-- ==== Sys2Proof/Word.lean ====
section
/-!
DEFINITION. The words of the machine: 24-bit words and addresses (00_scope R9, R10), 48-bit longs, 56-bit
accumulators, and their plainest slices.
-/
namespace Sys2Proof

/-- A data word, program word or address of 24 bits (00_scope R9, `WORD` and `ADDR`). -/
abbrev Word := BitVec 24
/-- A long word of 48 bits (00_scope R10). -/
abbrev Long := BitVec 48
/-- An accumulator of 56 bits, EXT:MSP:LSP (10_state R20). -/
abbrev AccWord := BitVec 56
/-- One byte: a CCR, an immediate mask. -/
abbrev Byte := BitVec 8

/-- The bit `i` of `v` replaced by `b`. -/
def setBit {n : Nat} (v : BitVec n) (i : Nat) (b : Bool) : BitVec n :=
  if b then v ||| BitVec.twoPow n i else v &&& ~~~(BitVec.twoPow n i)

/-- One bit as a word of width `n`. -/
def bitAt (n i : Nat) (b : Bool) : BitVec n := if b then BitVec.twoPow n i else 0

end Sys2Proof
end

