-- ==== Sys2Proof/Syntax.lean ====
section
/-!
DEFINITION. The instruction set as data: operand types (30_encoding R155 to R165, 20_memory R116) and `Instr`, one
constructor per row of spec/opcode_table.json. A constructor carries its extension word.
-/
namespace Sys2Proof

/-- An accumulator, the `d`/`D`/`S` bit (R155): 0 = A, 1 = B. -/
inductive Acc | a | b
deriving DecidableEq, Repr

/-- A memory space of a data operand, the `S`/`s` bit (R155): 0 = X, 1 = Y. -/
inductive Space | x | y
deriving DecidableEq, Repr

/-- The `W` bit (R155): 0 = the register (or peripheral) is the source, 1 = it is the destination. -/
inductive Dir | read | write
deriving DecidableEq, Repr

/-- A Data ALU input register (R155 `JJ`, `QQ`, `qq`). -/
inductive XYReg | x0 | y0 | x1 | y1
deriving DecidableEq, Repr

/-- A 48-bit input register pair (R155 `J`): X1:X0 or Y1:Y0. -/
inductive XYLong | x | y
deriving DecidableEq, Repr

/-- The registers of the four-bit code `DDDD` (R159(e)): the twelve Data ALU registers. -/
inductive AluReg | x0 | x1 | y0 | y1 | a0 | b0 | a2 | b2 | a1 | b1 | a | b
deriving DecidableEq, Repr

/-- The registers of the five-bit code `ddddd` (R159(c)). -/
inductive DReg
  | alu (r : AluReg)
  | r (n : Fin 8)
  | n (n : Fin 8)
deriving DecidableEq, Repr

/-- The registers of the MOVEC code (R159(f)). -/
inductive CReg | m (n : Fin 8) | ep | vba | sc | sz | sr | omr | sp | ssh | ssl | la | lc
deriving DecidableEq, Repr

/-- Every on-chip register, the six-bit code (R156). -/
inductive Reg
  | d (r : DReg)
  | c (r : CReg)
deriving DecidableEq, Repr

/-- The registers of LUA `(Rn+aa),D` (R159(d)). -/
inductive AguReg | r (n : Fin 8) | n (n : Fin 8)
deriving DecidableEq, Repr

/-- The operand of an L: move (R157). -/
inductive LongReg | a10 | b10 | x | y | a | b | ab | ba
deriving DecidableEq, Repr

/-- The X-side register of X:R class I and X:Y: (R158 `ee`, R159(g) `ff`). -/
inductive XSide | x0 | x1 | a | b
deriving DecidableEq, Repr

/-- The Y-side register of R:Y class I and X:Y: (R158 `ff`, R159(g) `ff`). -/
inductive YSide | y0 | y1 | a | b
deriving DecidableEq, Repr

/-- The register `e` of R:Y class I (R159(g)): X0 or X1. -/
inductive X01 | x0 | x1
deriving DecidableEq, Repr

/-- The register `F` of X:R class I (R159(g)): Y0 or Y1. -/
inductive Y01 | y0 | y1
deriving DecidableEq, Repr

/-- The control register `sss`/`SSS` (R159(a)). -/
inductive ShiftSrc | a1 | b1 | x0 | y0 | x1 | y1
deriving DecidableEq, Repr

/-- The source `qqq` of INSERT (R159(a)). -/
inductive InsSrc | a0 | b0 | x0 | y0 | x1 | y1
deriving DecidableEq, Repr

/-- The source `ggg` of CMPU and `JJJ` of Tcc (R159(a)): the other accumulator or an input register. -/
inductive AccOrReg | other | reg (r : XYReg)
deriving DecidableEq, Repr

/-- The operand pairs of the parallel multiplies, `QQQ` (R159(b)). -/
inductive MulPair | x0x0 | y0y0 | x1x0 | y1y0 | x0y1 | y0x0 | x1y0 | y1x1
deriving DecidableEq, Repr

/-- An ordered pair of multiply operands, `QQQQ` (R159(b)). -/
structure MulOps where
  s1 : XYReg
  s2 : XYReg
deriving DecidableEq, Repr

/-- Signedness of DMAC's operands (R155 `ss`). -/
inductive Sign2 | ss | su | uu
deriving DecidableEq, Repr

/-- Signedness of the operands of MAC/MPY(su,uu) (R155 `s`). -/
inductive Sign1 | su | uu
deriving DecidableEq, Repr

/-- A program control byte, `EE` (R155). -/
inductive PcuByte | mr | ccr | com | eom
deriving DecidableEq, Repr

/-- A condition, `CCCC` (R160). -/
inductive Cond | cc | ge | ne | pl | nn | ec | lc | gt | cs | lt | eq | mi | nr | es | ls | le
deriving DecidableEq, Repr

/-- The four-mode field `MM` of the U move and LUA (20_memory R116, "Encoding 4"). -/
inductive UpdMode | postDecN | postIncN | postDec | postInc
deriving DecidableEq, Repr

/-- The two-bit modes `mm`/`MM` of X:Y: (R158). -/
inductive XYMode | noUpd | postIncN | postDec | postInc
deriving DecidableEq, Repr

/-- The six-bit effective address (20_memory R116), with its extension word. -/
inductive Ea
  | postDecN (n : Fin 8)   -- (Rn)-Nn
  | postIncN (n : Fin 8)   -- (Rn)+Nn
  | postDec (n : Fin 8)    -- (Rn)-
  | postInc (n : Fin 8)    -- (Rn)+
  | noUpd (n : Fin 8)      -- (Rn)
  | indexN (n : Fin 8)     -- (Rn+Nn)
  | preDec (n : Fin 8)     -- -(Rn)
  | abs (addr : Word)      -- absolute address
  | imm (data : Word)      -- immediate data
deriving DecidableEq, Repr

/-- The Data Bus Movement field of a parallel instruction (30_encoding R152), IFcc and IFcc.U apart. -/
inductive PMove
  | none
  | imm (i : BitVec 8) (d : DReg)
  | reg (s d : DReg)
  | upd (u : UpdMode) (n : Fin 8)
  | xEa (d : DReg) (w : Dir) (ea : Ea)
  | xAa (d : DReg) (w : Dir) (aa : BitVec 6)
  | yEa (d : DReg) (w : Dir) (ea : Ea)
  | yAa (d : DReg) (w : Dir) (aa : BitVec 6)
  | xr1 (xs : XSide) (s2 : Acc) (d2 : Y01) (w : Dir) (ea : Ea)
  | xr2 (d : Acc) (ea : Ea)
  | ry1 (s1 : Acc) (d1 : X01) (ys : YSide) (w : Dir) (ea : Ea)
  | ry2 (d : Acc) (ea : Ea)
  | lEa (l : LongReg) (w : Dir) (ea : Ea)
  | lAa (l : LongReg) (w : Dir) (aa : BitVec 6)
  | xy (yw : Dir) (ym : XYMode) (xs : XSide) (ys : YSide) (xw : Dir) (yn : Fin 4) (xm : XYMode) (xn : Fin 8)
deriving DecidableEq, Repr

/-- A Data ALU operation of the parallel opcode byte (30_encoding R161, R162), as IFcc and IFcc.U hold it. `move` is
the byte $00 (Table 12-21). -/
inductive AluOp
  | move
  | tfrAcc (d : Acc) | tfrReg (s : XYReg) (d : Acc)
  | addr (d : Acc) | tst (d : Acc)
  | cmpAcc (d : Acc) | cmpReg (s : XYReg) (d : Acc)
  | subr (d : Acc)
  | cmpmAcc (d : Acc) | cmpmReg (s : XYReg) (d : Acc)
  | addAcc (d : Acc) | addXY (s : XYLong) (d : Acc) | addReg (s : XYReg) (d : Acc)
  | rnd (d : Acc) | addl (d : Acc) | clr (d : Acc)
  | subAcc (d : Acc) | subXY (s : XYLong) (d : Acc) | subReg (s : XYReg) (d : Acc)
  | maxm | max
  | subl (d : Acc) | not (d : Acc)
  | adc (s : XYLong) (d : Acc)
  | asr (d : Acc) | lsr (d : Acc)
  | sbc (s : XYLong) (d : Acc)
  | abs (d : Acc) | ror (d : Acc) | asl (d : Acc) | lsl (d : Acc) | neg (d : Acc) | rol (d : Acc)
  | or (s : XYReg) (d : Acc) | eor (s : XYReg) (d : Acc) | and (s : XYReg) (d : Acc)
  | mpy (q : MulPair) (d : Acc) (neg : Bool) | mpyr (q : MulPair) (d : Acc) (neg : Bool)
  | mac (q : MulPair) (d : Acc) (neg : Bool) | macr (q : MulPair) (d : Acc) (neg : Bool)
deriving DecidableEq, Repr

/-- The instructions: one constructor per row of spec/opcode_table.json, in the table's order
(rows without an operand last). The comment of each is
its row's syntax and encoding. `m` is the parallel move of a Data ALU row. A move row (moveNone to moveXY) is that move
with the opcode byte $00 (MOVE). `moveParallel` is the table's row MOVE `pppp…00000000`: all its words are words of the
move rows, and decode gives those (log 8). -/
inductive Instr
  | moveParallel (m : PMove)   -- MOVE (parallel move) | xxxxxxxxxxxxxxxx00000000
  | tfrAcc (d : Acc) (m : PMove)   -- TFR B,A / A,B (parallel move) | xxxxxxxxxxxxxxxx0000d001
  | tfrReg (s : XYReg) (d : Acc) (m : PMove)   -- TFR S,D (S=X0,Y0,X1,Y1) (parallel move) | xxxxxxxxxxxxxxxx01JJd001
  | addr (d : Acc) (m : PMove)   -- ADDR S,D (parallel move) | xxxxxxxxxxxxxxxx0000d010
  | tst (d : Acc) (m : PMove)   -- TST S (parallel move) | xxxxxxxxxxxxxxxx0000d011
  | cmpAcc (d : Acc) (m : PMove)   -- CMP B,A / A,B (parallel move) | xxxxxxxxxxxxxxxx0000d101
  | cmpReg (s : XYReg) (d : Acc) (m : PMove)   -- CMP S1,S2 (S1=X0,Y0,X1,Y1) (parallel move) | xxxxxxxxxxxxxxxx01JJd101
  | subr (d : Acc) (m : PMove)   -- SUBR S,D (parallel move) | xxxxxxxxxxxxxxxx0000d110
  | cmpmAcc (d : Acc) (m : PMove)   -- CMPM B,A / A,B (parallel move) | xxxxxxxxxxxxxxxx0000d111
  | cmpmReg (s : XYReg) (d : Acc) (m : PMove)   -- CMPM S1,S2 (S1=X0,Y0,X1,Y1) (parallel move) | xxxxxxxxxxxxxxxx01JJd111
  | addAcc (d : Acc) (m : PMove)   -- ADD B,A / A,B (parallel move) | xxxxxxxxxxxxxxxx0001d000
  | addXY (s : XYLong) (d : Acc) (m : PMove)   -- ADD X,D / Y,D (parallel move) | xxxxxxxxxxxxxxxx001Jd000
  | addReg (s : XYReg) (d : Acc) (m : PMove)   -- ADD S,D (S=X0,Y0,X1,Y1) (parallel move) | xxxxxxxxxxxxxxxx01JJd000
  | rnd (d : Acc) (m : PMove)   -- RND D (parallel move) | xxxxxxxxxxxxxxxx0001d001
  | addl (d : Acc) (m : PMove)   -- ADDL S,D (parallel move) | xxxxxxxxxxxxxxxx0001d010
  | clr (d : Acc) (m : PMove)   -- CLR D (parallel move) | xxxxxxxxxxxxxxxx0001d011
  | subAcc (d : Acc) (m : PMove)   -- SUB B,A / A,B (parallel move) | xxxxxxxxxxxxxxxx0001d100
  | subXY (s : XYLong) (d : Acc) (m : PMove)   -- SUB X,D / Y,D (parallel move) | xxxxxxxxxxxxxxxx001Jd100
  | subReg (s : XYReg) (d : Acc) (m : PMove)   -- SUB S,D (S=X0,Y0,X1,Y1) (parallel move) | xxxxxxxxxxxxxxxx01JJd100
  | maxm (m : PMove)   -- MAXM A,B (parallel move) | xxxxxxxxxxxxxxxx00010101
  | max (m : PMove)   -- MAX A,B (parallel move) | xxxxxxxxxxxxxxxx00011101
  | subl (d : Acc) (m : PMove)   -- SUBL S,D (parallel move) | xxxxxxxxxxxxxxxx0001d110
  | not (d : Acc) (m : PMove)   -- NOT D (parallel move) | xxxxxxxxxxxxxxxx0001d111
  | adc (s : XYLong) (d : Acc) (m : PMove)   -- ADC S,D (parallel move) | xxxxxxxxxxxxxxxx001Jd001
  | asr (d : Acc) (m : PMove)   -- ASR D (parallel move) | xxxxxxxxxxxxxxxx0010d010
  | lsr (d : Acc) (m : PMove)   -- LSR D (parallel move) | xxxxxxxxxxxxxxxx0010d011
  | sbc (s : XYLong) (d : Acc) (m : PMove)   -- SBC S,D (parallel move) | xxxxxxxxxxxxxxxx001Jd101
  | abs (d : Acc) (m : PMove)   -- ABS D (parallel move) | xxxxxxxxxxxxxxxx0010d110
  | ror (d : Acc) (m : PMove)   -- ROR D (parallel move) | xxxxxxxxxxxxxxxx0010d111
  | asl (d : Acc) (m : PMove)   -- ASL D (parallel move) | xxxxxxxxxxxxxxxx0011d010
  | lsl (d : Acc) (m : PMove)   -- LSL D (parallel move) | xxxxxxxxxxxxxxxx0011d011
  | neg (d : Acc) (m : PMove)   -- NEG D (parallel move) | xxxxxxxxxxxxxxxx0011d110
  | rol (d : Acc) (m : PMove)   -- ROL D (parallel move) | xxxxxxxxxxxxxxxx0011d111
  | or (s : XYReg) (d : Acc) (m : PMove)   -- OR S,D (parallel move) | xxxxxxxxxxxxxxxx01JJd010
  | eor (s : XYReg) (d : Acc) (m : PMove)   -- EOR S,D (parallel move) | xxxxxxxxxxxxxxxx01JJd011
  | and (s : XYReg) (d : Acc) (m : PMove)   -- AND S,D (parallel move) | xxxxxxxxxxxxxxxx01JJd110
  | mpy (q : MulPair) (d : Acc) (minus : Bool) (m : PMove)   -- MPY (+/-)S1,S2,D (parallel move) | xxxxxxxxxxxxxxxx1QQQdk00
  | mpyr (q : MulPair) (d : Acc) (minus : Bool) (m : PMove)   -- MPYR (+/-)S1,S2,D (parallel move) | xxxxxxxxxxxxxxxx1QQQdk01
  | mac (q : MulPair) (d : Acc) (minus : Bool) (m : PMove)   -- MAC (+/-)S1,S2,D (parallel move) | xxxxxxxxxxxxxxxx1QQQdk10
  | macr (q : MulPair) (d : Acc) (minus : Bool) (m : PMove)   -- MACR (+/-)S1,S2,D (parallel move) | xxxxxxxxxxxxxxxx1QQQdk11
  | reservedA (d : Acc) (m : PMove)   -- reserved parallel opcode (parallel move) | xxxxxxxxxxxxxxxx0000d100
  | reservedB (m : PMove)   -- reserved parallel opcode (Special case 1) (parallel move) | xxxxxxxxxxxxxxxx00001000
  | moveImm (i : BitVec 8) (d : DReg)   -- (...) #xx,D | 001dddddiiiiiiiixxxxxxxx
  | moveReg (s : DReg) (d : DReg)   -- (...) S,D | 001000eeeeedddddxxxxxxxx
  | moveUpd (u : UpdMode) (rn : Fin 8)   -- (...) ea | 00100000010MMRRRxxxxxxxx
  | ifcc (c : Cond) (op : AluOp)   -- (...) IFcc | 001000000010CCCCxxxxxxxx
  | ifccU (c : Cond) (op : AluOp)   -- (...) IFcc.U | 001000000011CCCCxxxxxxxx
  | moveXEa (d : DReg) (w : Dir) (ea : Ea)   -- (...) X:ea,D / S,X:ea / #xxxxxx,D | 01dd0eeeW1MMMRRRxxxxxxxx
  | moveXAa (d : DReg) (w : Dir) (aa : BitVec 6)   -- (...) X:aa,D / S,X:aa | 01dd0eeeW0aaaaaaxxxxxxxx
  | moveYEa (d : DReg) (w : Dir) (ea : Ea)   -- (...) Y:ea,D / S,Y:ea / #xxxxxx,D | 01dd1eeeW1MMMRRRxxxxxxxx
  | moveYAa (d : DReg) (w : Dir) (aa : BitVec 6)   -- (...) Y:aa,D / S,Y:aa | 01dd1eeeW0aaaaaaxxxxxxxx
  | moveXR1 (xs : XSide) (s2 : Acc) (d2 : Y01) (w : Dir) (ea : Ea)   -- (...) X:ea,D1 S2,D2 / S1,X:ea S2,D2 / #xxxxxx,D1 S2,D2 (class I) | 0001ffdFW0MMMRRRxxxxxxxx
  | moveXR2 (d : Acc) (ea : Ea)   -- (...) A,X:ea X0,A / B,X:ea X0,B (class II) | 0000100d00MMMRRRxxxxxxxx
  | moveRY1 (s1 : Acc) (d1 : X01) (ys : YSide) (w : Dir) (ea : Ea)   -- (...) S1,D1 Y:ea,D2 / S1,D1 S2,Y:ea / S1,D1 #xxxxxx,D2 (class I) | 0001deffW1MMMRRRxxxxxxxx
  | moveRY2 (d : Acc) (ea : Ea)   -- (...) Y0,A A,Y:ea / Y0,B B,Y:ea (class II) | 0000100d10MMMRRRxxxxxxxx
  | moveLEa (l : LongReg) (w : Dir) (ea : Ea)   -- (...) L:ea,D / S,L:ea | 0100l0LLW1MMMRRRxxxxxxxx
  | moveLAa (l : LongReg) (w : Dir) (aa : BitVec 6)   -- (...) L:aa,D / S,L:aa | 0100l0LLW0aaaaaaxxxxxxxx
  | moveXY (yw : Dir) (ym : XYMode) (xs : XSide) (ys : YSide) (xw : Dir) (yn : Fin 4) (xm : XYMode) (xn : Fin 8)   -- (...) X:<eax>,D1|S1,X:<eax>  Y:<eay>,D2|S2,Y:<eay> | 1wmmeeffWrrMMRRRxxxxxxxx
  | addShort (i : BitVec 6) (d : Acc)   -- ADD #xx,D | 0000000101iiiiii1000d000
  | addImm (d : Acc) (imm : Word)   -- ADD #xxxxxx,D | 00000001010000001100d000
  | andShort (i : BitVec 6) (d : Acc)   -- AND #xx,D | 0000000101iiiiii1000d110
  | andImm (d : Acc) (imm : Word)   -- AND #xxxxxx,D | 00000001010000001100d110
  | andi (i : BitVec 8) (e : PcuByte)   -- ANDI #xx,D | 00000000iiiiiiii101110EE
  | aslNum (i : BitVec 6) (s : Acc) (d : Acc)   -- ASL #ii,S2,D | 0000110000011101SiiiiiiD
  | aslBy (c : ShiftSrc) (s : Acc) (d : Acc)   -- ASL S1,S2,D | 0000110000011110010SsssD
  | asrNum (i : BitVec 6) (s : Acc) (d : Acc)   -- ASR #ii,S2,D | 0000110000011100SiiiiiiD
  | asrBy (c : ShiftSrc) (s : Acc) (d : Acc)   -- ASR S1,S2,D | 0000110000011110011SsssD
  | bccLong (c : Cond) (disp : Word)   -- Bcc xxxx | 00001101000100000100CCCC
  | bccShort (c : Cond) (disp : BitVec 9)   -- Bcc xxx | 00000101CCCC01aaaa0aaaaa
  | bccReg (c : Cond) (rn : Fin 8)   -- Bcc Rn | 0000110100011RRR0100CCCC
  | bchgEa (n : BitVec 5) (sp : Space) (ea : Ea)   -- BCHG #n,[X or Y]:ea | 0000101101MMMRRR0S0bbbbb
  | bchgAa (n : BitVec 5) (sp : Space) (aa : BitVec 6)   -- BCHG #n,[X or Y]:aa | 0000101100aaaaaa0S0bbbbb
  | bchgPp (n : BitVec 5) (sp : Space) (pp : BitVec 6)   -- BCHG #n,[X or Y]:pp | 0000101110pppppp0S0bbbbb
  | bchgQq (n : BitVec 5) (sp : Space) (qq : BitVec 6)   -- BCHG #n,[X or Y]:qq | 0000000101qqqqqq0S0bbbbb
  | bchgReg (n : BitVec 5) (r : Reg)   -- BCHG #n,D | 0000101111DDDDDD010bbbbb
  | bclrEa (n : BitVec 5) (sp : Space) (ea : Ea)   -- BCLR #n,[X or Y]:ea | 0000101001MMMRRR0S0bbbbb
  | bclrAa (n : BitVec 5) (sp : Space) (aa : BitVec 6)   -- BCLR #n,[X or Y]:aa | 0000101000aaaaaa0S0bbbbb
  | bclrPp (n : BitVec 5) (sp : Space) (pp : BitVec 6)   -- BCLR #n,[X or Y]:pp | 0000101010pppppp0S0bbbbb
  | bclrQq (n : BitVec 5) (sp : Space) (qq : BitVec 6)   -- BCLR #n,[X or Y]:qq | 0000000100qqqqqq0S0bbbbb
  | bclrReg (n : BitVec 5) (r : Reg)   -- BCLR #n,D | 0000101011DDDDDD010bbbbb
  | bsetEa (n : BitVec 5) (sp : Space) (ea : Ea)   -- BSET #n,[X or Y]:ea | 0000101001MMMRRR0S1bbbbb
  | bsetAa (n : BitVec 5) (sp : Space) (aa : BitVec 6)   -- BSET #n,[X or Y]:aa | 0000101000aaaaaa0S1bbbbb
  | bsetPp (n : BitVec 5) (sp : Space) (pp : BitVec 6)   -- BSET #n,[X or Y]:pp | 0000101010pppppp0S1bbbbb
  | bsetQq (n : BitVec 5) (sp : Space) (qq : BitVec 6)   -- BSET #n,[X or Y]:qq | 0000000100qqqqqq0S1bbbbb
  | bsetReg (n : BitVec 5) (r : Reg)   -- BSET #n,D | 0000101011DDDDDD011bbbbb
  | btstEa (n : BitVec 5) (sp : Space) (ea : Ea)   -- BTST #n,[X or Y]:ea | 0000101101MMMRRR0S1bbbbb
  | btstAa (n : BitVec 5) (sp : Space) (aa : BitVec 6)   -- BTST #n,[X or Y]:aa | 0000101100aaaaaa0S1bbbbb
  | btstPp (n : BitVec 5) (sp : Space) (pp : BitVec 6)   -- BTST #n,[X or Y]:pp | 0000101110pppppp0S1bbbbb
  | btstQq (n : BitVec 5) (sp : Space) (qq : BitVec 6)   -- BTST #n,[X or Y]:qq | 0000000101qqqqqq0S1bbbbb
  | btstReg (n : BitVec 5) (r : Reg)   -- BTST #n,D | 0000101111DDDDDD011bbbbb
  | braLong (disp : Word)   -- BRA xxxx | 000011010001000011000000
  | braShort (disp : BitVec 9)   -- BRA xxx | 00000101000011aaaa0aaaaa
  | braReg (rn : Fin 8)   -- BRA Rn | 0000110100011RRR11000000
  | brclrEa (n : BitVec 5) (sp : Space) (ea : Ea) (disp : Word)   -- BRCLR #n,[X or Y]:ea,xxxx | 0000110010MMMRRR0S0bbbbb
  | brclrAa (n : BitVec 5) (sp : Space) (aa : BitVec 6) (disp : Word)   -- BRCLR #n,[X or Y]:aa,xxxx | 0000110010aaaaaa1S0bbbbb
  | brclrPp (n : BitVec 5) (sp : Space) (pp : BitVec 6) (disp : Word)   -- BRCLR #n,[X or Y]:pp,xxxx | 0000110011pppppp0S0bbbbb
  | brclrQq (n : BitVec 5) (sp : Space) (qq : BitVec 6) (disp : Word)   -- BRCLR #n,[X or Y]:qq,xxxx | 0000010010qqqqqq0S0bbbbb
  | brclrReg (n : BitVec 5) (r : Reg) (disp : Word)   -- BRCLR #n,S,xxxx | 0000110011DDDDDD100bbbbb
  | brsetEa (n : BitVec 5) (sp : Space) (ea : Ea) (disp : Word)   -- BRSET #n,[X or Y]:ea,xxxx | 0000110010MMMRRR0S1bbbbb
  | brsetAa (n : BitVec 5) (sp : Space) (aa : BitVec 6) (disp : Word)   -- BRSET #n,[X or Y]:aa,xxxx | 0000110010aaaaaa1S1bbbbb
  | brsetPp (n : BitVec 5) (sp : Space) (pp : BitVec 6) (disp : Word)   -- BRSET #n,[X or Y]:pp,xxxx | 0000110011pppppp0S1bbbbb
  | brsetQq (n : BitVec 5) (sp : Space) (qq : BitVec 6) (disp : Word)   -- BRSET #n,[X or Y]:qq,xxxx | 0000010010qqqqqq0S1bbbbb
  | brsetReg (n : BitVec 5) (r : Reg) (disp : Word)   -- BRSET #n,S,xxxx | 0000110011DDDDDD101bbbbb
  | bsclrEa (n : BitVec 5) (sp : Space) (ea : Ea) (disp : Word)   -- BSCLR #n,[X or Y]:ea,xxxx | 0000110110MMMRRR0S0bbbbb
  | bsclrAa (n : BitVec 5) (sp : Space) (aa : BitVec 6) (disp : Word)   -- BSCLR #n,[X or Y]:aa,xxxx | 0000110110aaaaaa1S0bbbbb
  | bsclrPp (n : BitVec 5) (sp : Space) (pp : BitVec 6) (disp : Word)   -- BSCLR #n,[X or Y]:pp,xxxx | 0000110111pppppp0S0bbbbb
  | bsclrQq (n : BitVec 5) (sp : Space) (qq : BitVec 6) (disp : Word)   -- BSCLR #n,[X or Y]:qq,xxxx | 0000010010qqqqqq1S0bbbbb
  | bsclrReg (n : BitVec 5) (r : Reg) (disp : Word)   -- BSCLR #n,S,xxxx | 0000110111DDDDDD100bbbbb
  | bssetEa (n : BitVec 5) (sp : Space) (ea : Ea) (disp : Word)   -- BSSET #n,[X or Y]:ea,xxxx | 0000110110MMMRRR0S1bbbbb
  | bssetAa (n : BitVec 5) (sp : Space) (aa : BitVec 6) (disp : Word)   -- BSSET #n,[X or Y]:aa,xxxx | 0000110110aaaaaa1S1bbbbb
  | bssetPp (n : BitVec 5) (sp : Space) (pp : BitVec 6) (disp : Word)   -- BSSET #n,[X or Y]:pp,xxxx | 0000110111pppppp0S1bbbbb
  | bssetQq (n : BitVec 5) (sp : Space) (qq : BitVec 6) (disp : Word)   -- BSSET #n,[X or Y]:qq,xxxx | 0000010010qqqqqq1S1bbbbb
  | bssetReg (n : BitVec 5) (r : Reg) (disp : Word)   -- BSSET #n,S,xxxx | 0000110111DDDDDD101bbbbb
  | brkcc (c : Cond)   -- BRKcc | 00000000000000100001CCCC
  | bsccLong (c : Cond) (disp : Word)   -- BScc xxxx | 00001101000100000000CCCC
  | bsccShort (c : Cond) (disp : BitVec 9)   -- BScc xxx | 00000101CCCC00aaaa0aaaaa
  | bsccReg (c : Cond) (rn : Fin 8)   -- BScc Rn | 0000110100011RRR0000CCCC
  | bsrLong (disp : Word)   -- BSR xxxx | 000011010001000010000000
  | bsrShort (disp : BitVec 9)   -- BSR xxx | 00000101000010aaaa0aaaaa
  | bsrReg (rn : Fin 8)   -- BSR Rn | 0000110100011RRR10000000
  | clb (s : Acc) (d : Acc)   -- CLB S,D | 0000110000011110000000SD
  | cmpShort (i : BitVec 6) (d : Acc)   -- CMP #xx,S2 | 0000000101iiiiii1000d101
  | cmpImm (d : Acc) (imm : Word)   -- CMP #xxxxxx,S2 | 00000001010000001100d101
  | cmpu (g : AccOrReg) (d : Acc)   -- CMPU S1,S2 | 00001100000111111111gggd
  | debugcc (c : Cond)   -- DEBUGcc | 00000000000000110000CCCC
  | dec (d : Acc)   -- DEC D | 00000000000000000000101d
  | div (s : XYReg) (d : Acc)   -- DIV S,D | 000000011000000001JJd000
  | dmac (sg : Sign2) (q : MulOps) (d : Acc) (minus : Bool)   -- DMAC (+/-)S1,S2,D (ss,su,uu) | 000000010010010s1tdkQQQQ
  | doEa (sp : Space) (ea : Ea) (la : Word)   -- DO [X or Y]:ea,expr | 0000011001MMMRRR0S000000
  | doAa (sp : Space) (aa : BitVec 6) (la : Word)   -- DO [X or Y]:aa,expr | 0000011000aaaaaa0S000000
  | doNum (cnt : BitVec 12) (la : Word)   -- DO #xxx,expr | 00000110iiiiiiii1000hhhh
  | doReg (r : Reg) (la : Word)   -- DO S,expr | 0000011011DDDDDD00000000
  | dorEa (sp : Space) (ea : Ea) (disp : Word)   -- DOR [X or Y]:ea,label | 0000011001MMMRRR0S010000
  | dorAa (sp : Space) (aa : BitVec 6) (disp : Word)   -- DOR [X or Y]:aa,label | 0000011000aaaaaa0S010000
  | dorNum (cnt : BitVec 12) (disp : Word)   -- DOR #xxx,label | 00000110iiiiiiii1001hhhh
  | dorReg (r : Reg) (disp : Word)   -- DOR S,label | 0000011011DDDDDD00010000
  | repEa (sp : Space) (ea : Ea)   -- REP [X or Y]:ea | 0000011001MMMRRR0S100000
  | repAa (sp : Space) (aa : BitVec 6)   -- REP [X or Y]:aa | 0000011000aaaaaa0S100000
  | repNum (cnt : BitVec 12)   -- REP #xxx | 00000110iiiiiiii1010hhhh
  | repReg (r : Reg)   -- REP S | 0000011011DDDDDD00100000
  | doForever (la : Word)   -- DO FOREVER,expr | 000000000000001000000011
  | dorForever (disp : Word)   -- DOR FOREVER,label | 000000000000001000000010
  | eorShort (i : BitVec 6) (d : Acc)   -- EOR #xx,D | 0000000101iiiiii1000d011
  | eorImm (d : Acc) (imm : Word)   -- EOR #xxxxxx,D | 00000001010000001100d011
  | extractBy (c : ShiftSrc) (s : Acc) (d : Acc)   -- EXTRACT S1,S2,D | 0000110000011010000sSSSD
  | extractNum (s : Acc) (d : Acc) (co : Word)   -- EXTRACT #CO,S2,D | 0000110000011000000s000D
  | extractuBy (c : ShiftSrc) (s : Acc) (d : Acc)   -- EXTRACTU S1,S2,D | 0000110000011010100sSSSD
  | extractuNum (s : Acc) (d : Acc) (co : Word)   -- EXTRACTU #CO,S2,D | 0000110000011000100s000D
  | inc (d : Acc)   -- INC D | 00000000000000000000100d
  | insertBy (c : ShiftSrc) (s : InsSrc) (d : Acc)   -- INSERT S1,S2,D | 00001100000110110qqqSSSD
  | insertNum (s : InsSrc) (d : Acc) (co : Word)   -- INSERT #CO,S2,D | 00001100000110010qqq000D
  | jccShort (c : Cond) (a : BitVec 12)   -- Jcc xxx | 00001110CCCCaaaaaaaaaaaa
  | jccEa (c : Cond) (ea : Ea)   -- Jcc ea | 0000101011MMMRRR1010CCCC
  | jclrEa (n : BitVec 5) (sp : Space) (ea : Ea) (target : Word)   -- JCLR #n,[X or Y]:ea,xxxx | 0000101001MMMRRR1S0bbbbb
  | jclrAa (n : BitVec 5) (sp : Space) (aa : BitVec 6) (target : Word)   -- JCLR #n,[X or Y]:aa,xxxx | 0000101000aaaaaa1S0bbbbb
  | jclrPp (n : BitVec 5) (sp : Space) (pp : BitVec 6) (target : Word)   -- JCLR #n,[X or Y]:pp,xxxx | 0000101010pppppp1S0bbbbb
  | jclrQq (n : BitVec 5) (sp : Space) (qq : BitVec 6) (target : Word)   -- JCLR #n,[X or Y]:qq,xxxx | 0000000110qqqqqq1S0bbbbb
  | jclrReg (n : BitVec 5) (r : Reg) (target : Word)   -- JCLR #n,S,xxxx | 0000101011DDDDDD000bbbbb
  | jsetEa (n : BitVec 5) (sp : Space) (ea : Ea) (target : Word)   -- JSET #n,[X or Y]:ea,xxxx | 0000101001MMMRRR1S1bbbbb
  | jsetAa (n : BitVec 5) (sp : Space) (aa : BitVec 6) (target : Word)   -- JSET #n,[X or Y]:aa,xxxx | 0000101000aaaaaa1S1bbbbb
  | jsetPp (n : BitVec 5) (sp : Space) (pp : BitVec 6) (target : Word)   -- JSET #n,[X or Y]:pp,xxxx | 0000101010pppppp1S1bbbbb
  | jsetQq (n : BitVec 5) (sp : Space) (qq : BitVec 6) (target : Word)   -- JSET #n,[X or Y]:qq,xxxx | 0000000110qqqqqq1S1bbbbb
  | jsetReg (n : BitVec 5) (r : Reg) (target : Word)   -- JSET #n,S,xxxx | 0000101011DDDDDD001bbbbb
  | jsclrEa (n : BitVec 5) (sp : Space) (ea : Ea) (target : Word)   -- JSCLR #n,[X or Y]:ea,xxxx | 0000101101MMMRRR1S0bbbbb
  | jsclrAa (n : BitVec 5) (sp : Space) (aa : BitVec 6) (target : Word)   -- JSCLR #n,[X or Y]:aa,xxxx | 0000101100aaaaaa1S0bbbbb
  | jsclrPp (n : BitVec 5) (sp : Space) (pp : BitVec 6) (target : Word)   -- JSCLR #n,[X or Y]:pp,xxxx | 0000101110pppppp1S0bbbbb
  | jsclrQq (n : BitVec 5) (sp : Space) (qq : BitVec 6) (target : Word)   -- JSCLR #n,[X or Y]:qq,xxxx | 0000000111qqqqqq1S0bbbbb
  | jsclrReg (n : BitVec 5) (r : Reg) (target : Word)   -- JSCLR #n,S,xxxx | 0000101111DDDDDD000bbbbb
  | jssetEa (n : BitVec 5) (sp : Space) (ea : Ea) (target : Word)   -- JSSET #n,[X or Y]:ea,xxxx | 0000101101MMMRRR1S1bbbbb
  | jssetAa (n : BitVec 5) (sp : Space) (aa : BitVec 6) (target : Word)   -- JSSET #n,[X or Y]:aa,xxxx | 0000101100aaaaaa1S1bbbbb
  | jssetPp (n : BitVec 5) (sp : Space) (pp : BitVec 6) (target : Word)   -- JSSET #n,[X or Y]:pp,xxxx | 0000101110pppppp1S1bbbbb
  | jssetQq (n : BitVec 5) (sp : Space) (qq : BitVec 6) (target : Word)   -- JSSET #n,[X or Y]:qq,xxxx | 0000000111qqqqqq1S1bbbbb
  | jssetReg (n : BitVec 5) (r : Reg) (target : Word)   -- JSSET #n,S,xxxx | 0000101111DDDDDD001bbbbb
  | jmpShort (a : BitVec 12)   -- JMP xxx | 000011000000aaaaaaaaaaaa
  | jmpEa (ea : Ea)   -- JMP ea | 0000101011MMMRRR10000000
  | jsccShort (c : Cond) (a : BitVec 12)   -- JScc xxx | 00001111CCCCaaaaaaaaaaaa
  | jsccEa (c : Cond) (ea : Ea)   -- JScc ea | 0000101111MMMRRR1010CCCC
  | jsrShort (a : BitVec 12)   -- JSR xxx | 000011010000aaaaaaaaaaaa
  | jsrEa (ea : Ea)   -- JSR ea | 0000101111MMMRRR10000000
  | lraReg (rn : Fin 8) (d : DReg)   -- LRA Rn,D | 0000010011000RRR000ddddd
  | lraLong (d : DReg) (disp : Word)   -- LRA xxxx,D | 0000010001000000010ddddd
  | lslNum (i : BitVec 5) (d : Acc)   -- LSL #ii,D | 000011000001111010iiiiiD
  | lslBy (c : ShiftSrc) (d : Acc)   -- LSL S,D | 00001100000111100001sssD
  | lsrNum (i : BitVec 5) (d : Acc)   -- LSR #ii,D | 000011000001111011iiiiiD
  | lsrBy (c : ShiftSrc) (d : Acc)   -- LSR S,D | 00001100000111100011sssD
  | luaEa (u : UpdMode) (rn : Fin 8) (d : DReg)   -- LUA ea,D | 00000100010MMRRR000ddddd
  | luaDisp (disp : BitVec 7) (rn : Fin 8) (d : AguReg)   -- LUA (Rn+aa),D | 0000010000aaaRRRaaaadddd
  | macNum (s : XYReg) (n : BitVec 5) (d : Acc) (minus : Bool)   -- MAC (+/-)S,#n,D | 00000001000sssss11QQdk10
  | macSu (sg : Sign1) (q : MulOps) (d : Acc) (minus : Bool)   -- MAC(su|uu) (+/-)S1,S2,D | 00000001001001101sdkQQQQ
  | maci (s : XYReg) (d : Acc) (minus : Bool) (imm : Word)   -- MACI (+/-)#xxxxxx,S,D | 000000010100000111qqdk10
  | macrNum (s : XYReg) (n : BitVec 5) (d : Acc) (minus : Bool)   -- MACR (+/-)S,#n,D | 00000001000sssss11QQdk11
  | macri (s : XYReg) (d : Acc) (minus : Bool) (imm : Word)   -- MACRI (+/-)#xxxxxx,S,D | 000000010100000111qqdk11
  | merge (s : ShiftSrc) (d : Acc)   -- MERGE S,D | 00001100000110111000SSSD
  | moveXLong (rn : Fin 8) (w : Dir) (r : Reg) (disp : Word)   -- MOVE X:(Rn+xxxx),D / S,X:(Rn+xxxx) | 0000101001110RRR1WDDDDDD
  | moveYLong (rn : Fin 8) (w : Dir) (r : Reg) (disp : Word)   -- MOVE Y:(Rn+xxxx),D / S,Y:(Rn+xxxx) | 0000101101110RRR1WDDDDDD
  | moveXShort (disp : BitVec 7) (rn : Fin 8) (w : Dir) (r : AluReg)   -- MOVE X:(Rn+xxx),D / S,X:(Rn+xxx) | 0000001aaaaaaRRR1a0WDDDD
  | moveYShort (disp : BitVec 7) (rn : Fin 8) (w : Dir) (r : AluReg)   -- MOVE Y:(Rn+xxx),D / S,Y:(Rn+xxx) | 0000001aaaaaaRRR1a1WDDDD
  | movecEa (w : Dir) (sp : Space) (ea : Ea) (r : CReg)   -- MOVEC [X or Y]:ea,D1 / S1,[X or Y]:ea / #xxxxxx,D1 | 00000101W1MMMRRR0S1ddddd
  | movecAa (w : Dir) (sp : Space) (aa : BitVec 6) (r : CReg)   -- MOVEC [X or Y]:aa,D1 / S1,[X or Y]:aa | 00000101W0aaaaaa0S1ddddd
  | movecReg (w : Dir) (r2 : Reg) (r : CReg)   -- MOVEC S1,D2 / S2,D1 | 00000100W1eeeeee101ddddd
  | movecImm (i : BitVec 8) (r : CReg)   -- MOVEC #xx,D1 | 00000101iiiiiiii101ddddd
  | movemEa (w : Dir) (ea : Ea) (r : Reg)   -- MOVEM P:ea,D / S,P:ea | 00000111W1MMMRRR10dddddd
  | movemAa (w : Dir) (aa : BitVec 6) (r : Reg)   -- MOVEM P:aa,D / S,P:aa | 00000111W0aaaaaa00dddddd
  | movepPpEa (ps : Space) (w : Dir) (sp : Space) (ea : Ea) (pp : BitVec 6)   -- MOVEP [X or Y]:pp,[X or Y]:ea / [X or Y]:ea,[X or Y]:pp / #xxxxxx,[X or Y]:pp | 0000100sW1MMMRRR1Spppppp
  | movepXqqEa (w : Dir) (sp : Space) (ea : Ea) (qq : BitVec 6)   -- MOVEP X:qq,[X or Y]:ea / [X or Y]:ea,X:qq / #xxxxxx,X:qq | 00000111W1MMMRRR0Sqqqqqq
  | movepYqqEa (w : Dir) (sp : Space) (ea : Ea) (qq : BitVec 6)   -- MOVEP Y:qq,[X or Y]:ea / [X or Y]:ea,Y:qq / #xxxxxx,Y:qq | 00000111W0MMMRRR1Sqqqqqq
  | movepPpP (ps : Space) (w : Dir) (ea : Ea) (pp : BitVec 6)   -- MOVEP [X or Y]:pp,P:ea / P:ea,[X or Y]:pp | 0000100sW1MMMRRR01pppppp
  | movepQqP (w : Dir) (ea : Ea) (ps : Space) (qq : BitVec 6)   -- MOVEP [X or Y]:qq,P:ea / P:ea,[X or Y]:qq | 000000001WMMMRRR0Sqqqqqq
  | movepPpReg (ps : Space) (w : Dir) (r : Reg) (pp : BitVec 6)   -- MOVEP [X or Y]:pp,D / S,[X or Y]:pp | 0000100sW1dddddd00pppppp
  | movepXqqReg (w : Dir) (r : Reg) (qq : BitVec 6)   -- MOVEP X:qq,D / S,X:qq | 00000100W1dddddd1q0qqqqq
  | movepYqqReg (w : Dir) (r : Reg) (qq : BitVec 6)   -- MOVEP Y:qq,D / S,Y:qq | 00000100W1dddddd0q1qqqqq
  | mpyNum (s : XYReg) (n : BitVec 5) (d : Acc) (minus : Bool)   -- MPY (+/-)S,#n,D | 00000001000sssss11QQdk00
  | mpySu (sg : Sign1) (q : MulOps) (d : Acc) (minus : Bool)   -- MPY(su|uu) (+/-)S1,S2,D | 00000001001001111sdkQQQQ
  | mpyi (s : XYReg) (d : Acc) (minus : Bool) (imm : Word)   -- MPYI (+/-)#xxxxxx,S,D | 000000010100000111qqdk00
  | mpyrNum (s : XYReg) (n : BitVec 5) (d : Acc) (minus : Bool)   -- MPYR (+/-)S,#n,D | 00000001000sssss11QQdk01
  | mpyri (s : XYReg) (d : Acc) (minus : Bool) (imm : Word)   -- MPYRI (+/-)#xxxxxx,S,D | 000000010100000111qqdk01
  | norm (rn : Fin 8) (d : Acc)   -- NORM Rn,D | 0000000111011RRR0001d101
  | normf (s : ShiftSrc) (d : Acc)   -- NORMF S,D | 00001100000111100010sssD
  | orShort (i : BitVec 6) (d : Acc)   -- OR #xx,D | 0000000101iiiiii1000d010
  | orImm (d : Acc) (imm : Word)   -- OR #xxxxxx,D | 00000001010000001100d010
  | ori (i : BitVec 8) (e : PcuByte)   -- ORI #xx,D | 00000000iiiiiiii111110EE
  | plock (ea : Ea)   -- PLOCK ea | 0000101111MMMRRR10000001
  | plockr (disp : Word)   -- PLOCKR xxxx | 000000000000000000001111
  | punlock (ea : Ea)   -- PUNLOCK ea | 0000101011MMMRRR10000001
  | punlockr (disp : Word)   -- PUNLOCKR xxxx | 000000000000000000001110
  | subShort (i : BitVec 6) (d : Acc)   -- SUB #xx,D | 0000000101iiiiii1000d100
  | subImm (d : Acc) (imm : Word)   -- SUB #xxxxxx,D | 00000001010000001100d100
  | tccD (c : Cond) (s1 : AccOrReg) (d : Acc)   -- Tcc S1,D1 | 00000010CCCC00000JJJd000
  | tccDR (c : Cond) (s1 : AccOrReg) (d : Acc) (t : Fin 8) (u : Fin 8)   -- Tcc S1,D1 S2,D2 | 00000011CCCC0ttt0JJJdTTT
  | tccR (c : Cond) (t : Fin 8) (u : Fin 8)   -- Tcc S2,D2 | 00000010CCCC1ttt00000TTT
  | trapcc (c : Cond)   -- TRAPcc | 00000000000000000001CCCC
  | vsl (s : Acc) (i : Bool) (ea : Ea)   -- VSL S,i,L:ea | 0000101S11MMMRRR110i0000
  | moveNone   -- (...) | 0010000000000000xxxxxxxx
  | debug   -- DEBUG | 000000000000001000000000
  | enddo   -- ENDDO | 000000000000000010001100
  | illegal   -- ILLEGAL | 000000000000000000000101
  | nop   -- NOP | 000000000000000000000000
  | pflush   -- PFLUSH | 000000000000000000000011
  | pflushun   -- PFLUSHUN | 000000000000000000000001
  | pfree   -- PFREE | 000000000000000000000010
  | reset   -- RESET | 000000000000000010000100
  | rti   -- RTI | 000000000000000000000100
  | rts   -- RTS | 000000000000000000001100
  | stop   -- STOP | 000000000000000010000111
  | trap   -- TRAP | 000000000000000000000110
  | wait   -- WAIT | 000000000000000010000110
deriving DecidableEq, Repr

end Sys2Proof
end

