-- ==== Sys2Proof/WellFormed.lean ====
section
/-!
DEFINITION. Well-formed instructions: the operand combinations that have an encoding (30_encoding R154, R159, R163,
R170, R171). A combination refused here is, as a bit pattern, an undefined pattern (R170).
-/
namespace Sys2Proof

/-- Immediate data `110100` (20_memory R116). -/
def Ea.isImm : Ea → Bool
  | .imm _ => true
  | _ => false

/-- Memory alterable: every mode but immediate data (20_memory R116, "Encoding 2"). -/
def Ea.alterable (ea : Ea) : Bool := !ea.isImm

/-- `MMM` other than 110: no absolute address, no immediate data (30_encoding R154). -/
def Ea.registerOnly : Ea → Bool
  | .imm _ => false
  | .abs _ => false
  | _ => true

/-- Immediate data is a source only (30_encoding R170; 46_move R425). -/
def Ea.okFor (ea : Ea) (w : Dir) : Bool := ea.alterable || w == .write

/-- The extension words an effective address needs (30_encoding R154). -/
def Ea.extWords : Ea → List Word
  | .abs a => [a]
  | .imm d => [d]
  | _ => []

/-- A parallel move that has an encoding (46_move R422 to R430). -/
def PMove.wf : PMove → Bool
  | .none => true
  | .imm _ _ => true
  | .reg _ _ => true
  | .upd _ _ => true
  | .xEa _ w ea => ea.okFor w
  | .xAa _ _ _ => true
  | .yEa _ w ea => ea.okFor w
  | .yAa _ _ _ => true
  | .xr1 _ _ _ w ea => ea.okFor w
  | .xr2 _ ea => ea.registerOnly
  | .ry1 _ _ _ w ea => ea.okFor w
  | .ry2 _ ea => ea.registerOnly
  | .lEa _ _ ea => ea.alterable
  | .lAa _ _ _ => true
  | .xy _ _ _ _ _ _ _ _ => true

/-- The extension words of a parallel move. -/
def PMove.extWords : PMove → List Word
  | .none => []
  | .imm _ _ => []
  | .reg _ _ => []
  | .upd _ _ => []
  | .xEa _ _ ea => ea.extWords
  | .xAa _ _ _ => []
  | .yEa _ _ ea => ea.extWords
  | .yAa _ _ _ => []
  | .xr1 _ _ _ _ ea => ea.extWords
  | .xr2 _ ea => ea.extWords
  | .ry1 _ _ _ _ ea => ea.extWords
  | .ry2 _ ea => ea.extWords
  | .lEa _ _ ea => ea.extWords
  | .lAa _ _ _ => []
  | .xy _ _ _ _ _ _ _ _ => []

/-- The shift count of MAC, MACR, MPY, MPYR `S,#n,D`: 1 to 23 (30_encoding R159(i), R171). -/
def shiftCountOk (n : BitVec 5) : Bool := 1 ≤ n.toNat && n.toNat ≤ 23

/-- The operand combinations that have an encoding. `moveParallel` has none of its own (log 8).
A reserved opcode is one word (60_exceptions R569): the word after it is no part of it, and its move holds 0 there. -/
def Instr.wf : Instr → Bool
  | .moveParallel _ => false
  | .tfrAcc _ m => m.wf
  | .tfrReg _ _ m => m.wf
  | .addr _ m => m.wf
  | .tst _ m => m.wf
  | .cmpAcc _ m => m.wf
  | .cmpReg _ _ m => m.wf
  | .subr _ m => m.wf
  | .cmpmAcc _ m => m.wf
  | .cmpmReg _ _ m => m.wf
  | .addAcc _ m => m.wf
  | .addXY _ _ m => m.wf
  | .addReg _ _ m => m.wf
  | .rnd _ m => m.wf
  | .addl _ m => m.wf
  | .clr _ m => m.wf
  | .subAcc _ m => m.wf
  | .subXY _ _ m => m.wf
  | .subReg _ _ m => m.wf
  | .maxm m => m.wf
  | .max m => m.wf
  | .subl _ m => m.wf
  | .not _ m => m.wf
  | .adc _ _ m => m.wf
  | .asr _ m => m.wf
  | .lsr _ m => m.wf
  | .sbc _ _ m => m.wf
  | .abs _ m => m.wf
  | .ror _ m => m.wf
  | .asl _ m => m.wf
  | .lsl _ m => m.wf
  | .neg _ m => m.wf
  | .rol _ m => m.wf
  | .or _ _ m => m.wf
  | .eor _ _ m => m.wf
  | .and _ _ m => m.wf
  | .mpy _ _ _ m => m.wf
  | .mpyr _ _ _ m => m.wf
  | .mac _ _ _ m => m.wf
  | .macr _ _ _ m => m.wf
  | .reservedA _ m => m.wf && m.extWords.all fun w => w == 0
  | .reservedB m => m.wf && m.extWords.all fun w => w == 0
  | .moveImm _ _ => true
  | .moveReg _ _ => true
  | .moveUpd _ _ => true
  | .ifcc _ _ => true
  | .ifccU _ _ => true
  | .moveXEa d w ea => PMove.wf (.xEa d w ea)
  | .moveXAa _ _ _ => true
  | .moveYEa d w ea => PMove.wf (.yEa d w ea)
  | .moveYAa _ _ _ => true
  | .moveXR1 xs s2 d2 w ea => PMove.wf (.xr1 xs s2 d2 w ea)
  | .moveXR2 d ea => PMove.wf (.xr2 d ea)
  | .moveRY1 s1 d1 ys w ea => PMove.wf (.ry1 s1 d1 ys w ea)
  | .moveRY2 d ea => PMove.wf (.ry2 d ea)
  | .moveLEa l w ea => PMove.wf (.lEa l w ea)
  | .moveLAa _ _ _ => true
  | .moveXY _ _ _ _ _ _ _ _ => true
  | .addShort _ _ => true
  | .addImm _ _ => true
  | .andShort _ _ => true
  | .andImm _ _ => true
  | .andi _ _ => true
  | .aslNum _ _ _ => true
  | .aslBy _ _ _ => true
  | .asrNum _ _ _ => true
  | .asrBy _ _ _ => true
  | .bccLong _ _ => true
  | .bccShort _ _ => true
  | .bccReg _ _ => true
  | .bchgEa _ _ ea => ea.alterable
  | .bchgAa _ _ _ => true
  | .bchgPp _ _ _ => true
  | .bchgQq _ _ _ => true
  | .bchgReg _ _ => true
  | .bclrEa _ _ ea => ea.alterable
  | .bclrAa _ _ _ => true
  | .bclrPp _ _ _ => true
  | .bclrQq _ _ _ => true
  | .bclrReg _ _ => true
  | .bsetEa _ _ ea => ea.alterable
  | .bsetAa _ _ _ => true
  | .bsetPp _ _ _ => true
  | .bsetQq _ _ _ => true
  | .bsetReg _ _ => true
  | .btstEa _ _ ea => ea.alterable
  | .btstAa _ _ _ => true
  | .btstPp _ _ _ => true
  | .btstQq _ _ _ => true
  | .btstReg _ _ => true
  | .braLong _ => true
  | .braShort _ => true
  | .braReg _ => true
  | .brclrEa _ _ ea _ => ea.registerOnly
  | .brclrAa _ _ _ _ => true
  | .brclrPp _ _ _ _ => true
  | .brclrQq _ _ _ _ => true
  | .brclrReg _ _ _ => true
  | .brsetEa _ _ ea _ => ea.registerOnly
  | .brsetAa _ _ _ _ => true
  | .brsetPp _ _ _ _ => true
  | .brsetQq _ _ _ _ => true
  | .brsetReg _ _ _ => true
  | .bsclrEa _ _ ea _ => ea.registerOnly
  | .bsclrAa _ _ _ _ => true
  | .bsclrPp _ _ _ _ => true
  | .bsclrQq _ _ _ _ => true
  | .bsclrReg _ _ _ => true
  | .bssetEa _ _ ea _ => ea.registerOnly
  | .bssetAa _ _ _ _ => true
  | .bssetPp _ _ _ _ => true
  | .bssetQq _ _ _ _ => true
  | .bssetReg _ _ _ => true
  | .brkcc _ => true
  | .bsccLong _ _ => true
  | .bsccShort _ _ => true
  | .bsccReg _ _ => true
  | .bsrLong _ => true
  | .bsrShort _ => true
  | .bsrReg _ => true
  | .clb _ _ => true
  | .cmpShort _ _ => true
  | .cmpImm _ _ => true
  | .cmpu _ _ => true
  | .debugcc _ => true
  | .dec _ => true
  | .div _ _ => true
  | .dmac _ _ _ _ => true
  | .doEa _ ea _ => ea.registerOnly
  | .doAa _ _ _ => true
  | .doNum _ _ => true
  | .doReg _ _ => true
  | .dorEa _ ea _ => ea.registerOnly
  | .dorAa _ _ _ => true
  | .dorNum _ _ => true
  | .dorReg _ _ => true
  | .repEa _ ea => ea.registerOnly
  | .repAa _ _ => true
  | .repNum _ => true
  | .repReg _ => true
  | .doForever _ => true
  | .dorForever _ => true
  | .eorShort _ _ => true
  | .eorImm _ _ => true
  | .extractBy _ _ _ => true
  | .extractNum _ _ _ => true
  | .extractuBy _ _ _ => true
  | .extractuNum _ _ _ => true
  | .inc _ => true
  | .insertBy _ _ _ => true
  | .insertNum _ _ _ => true
  | .jccShort _ _ => true
  | .jccEa _ ea => ea.alterable
  | .jclrEa _ _ ea _ => ea.registerOnly
  | .jclrAa _ _ _ _ => true
  | .jclrPp _ _ _ _ => true
  | .jclrQq _ _ _ _ => true
  | .jclrReg _ _ _ => true
  | .jsetEa _ _ ea _ => ea.registerOnly
  | .jsetAa _ _ _ _ => true
  | .jsetPp _ _ _ _ => true
  | .jsetQq _ _ _ _ => true
  | .jsetReg _ _ _ => true
  | .jsclrEa _ _ ea _ => ea.registerOnly
  | .jsclrAa _ _ _ _ => true
  | .jsclrPp _ _ _ _ => true
  | .jsclrQq _ _ _ _ => true
  | .jsclrReg _ _ _ => true
  | .jssetEa _ _ ea _ => ea.registerOnly
  | .jssetAa _ _ _ _ => true
  | .jssetPp _ _ _ _ => true
  | .jssetQq _ _ _ _ => true
  | .jssetReg _ _ _ => true
  | .jmpShort _ => true
  | .jmpEa ea => ea.alterable
  | .jsccShort _ _ => true
  | .jsccEa _ ea => ea.alterable
  | .jsrShort _ => true
  | .jsrEa ea => ea.alterable
  | .lraReg _ _ => true
  | .lraLong _ _ => true
  | .lslNum _ _ => true
  | .lslBy _ _ => true
  | .lsrNum _ _ => true
  | .lsrBy _ _ => true
  | .luaEa _ _ _ => true
  | .luaDisp _ _ _ => true
  | .macNum _ n _ _ => shiftCountOk n
  | .macSu _ _ _ _ => true
  | .maci _ _ _ _ => true
  | .macrNum _ n _ _ => shiftCountOk n
  | .macri _ _ _ _ => true
  | .merge _ _ => true
  | .moveXLong _ _ _ _ => true
  | .moveYLong _ _ _ _ => true
  | .moveXShort _ _ _ _ => true
  | .moveYShort _ _ _ _ => true
  | .movecEa w _ ea _ => ea.okFor w
  | .movecAa _ _ _ _ => true
  | .movecReg _ _ _ => true
  | .movecImm _ _ => true
  | .movemEa _ ea _ => ea.alterable
  | .movemAa _ _ _ => true
  | .movepPpEa _ w _ ea _ => ea.okFor w
  | .movepXqqEa w _ ea _ => ea.okFor w
  | .movepYqqEa w _ ea _ => ea.okFor w
  | .movepPpP _ _ ea _ => ea.alterable
  | .movepQqP _ ea _ _ => ea.alterable
  | .movepPpReg _ _ _ _ => true
  | .movepXqqReg _ _ _ => true
  | .movepYqqReg _ _ _ => true
  | .mpyNum _ n _ _ => shiftCountOk n
  | .mpySu _ _ _ _ => true
  | .mpyi _ _ _ _ => true
  | .mpyrNum _ n _ _ => shiftCountOk n
  | .mpyri _ _ _ _ => true
  | .norm _ _ => true
  | .normf _ _ => true
  | .orShort _ _ => true
  | .orImm _ _ => true
  | .ori _ _ => true
  | .plock ea => ea.alterable
  | .plockr _ => true
  | .punlock ea => ea.alterable
  | .punlockr _ => true
  | .subShort _ _ => true
  | .subImm _ _ => true
  | .tccD _ _ _ => true
  | .tccDR _ _ _ _ _ => true
  | .tccR _ _ _ => true
  | .trapcc _ => true
  | .vsl _ _ ea => ea.alterable
  | .moveNone => true
  | .debug => true
  | .enddo => true
  | .illegal => true
  | .nop => true
  | .pflush => true
  | .pflushun => true
  | .pfree => true
  | .reset => true
  | .rti => true
  | .rts => true
  | .stop => true
  | .trap => true
  | .wait => true

/-- The extension words of an instruction, at most one (30_encoding R154). A reserved parallel pattern is one word
(60_exceptions R569, D36). -/
def Instr.extWords : Instr → List Word
  | .moveParallel m => m.extWords
  | .tfrAcc _ m => m.extWords
  | .tfrReg _ _ m => m.extWords
  | .addr _ m => m.extWords
  | .tst _ m => m.extWords
  | .cmpAcc _ m => m.extWords
  | .cmpReg _ _ m => m.extWords
  | .subr _ m => m.extWords
  | .cmpmAcc _ m => m.extWords
  | .cmpmReg _ _ m => m.extWords
  | .addAcc _ m => m.extWords
  | .addXY _ _ m => m.extWords
  | .addReg _ _ m => m.extWords
  | .rnd _ m => m.extWords
  | .addl _ m => m.extWords
  | .clr _ m => m.extWords
  | .subAcc _ m => m.extWords
  | .subXY _ _ m => m.extWords
  | .subReg _ _ m => m.extWords
  | .maxm m => m.extWords
  | .max m => m.extWords
  | .subl _ m => m.extWords
  | .not _ m => m.extWords
  | .adc _ _ m => m.extWords
  | .asr _ m => m.extWords
  | .lsr _ m => m.extWords
  | .sbc _ _ m => m.extWords
  | .abs _ m => m.extWords
  | .ror _ m => m.extWords
  | .asl _ m => m.extWords
  | .lsl _ m => m.extWords
  | .neg _ m => m.extWords
  | .rol _ m => m.extWords
  | .or _ _ m => m.extWords
  | .eor _ _ m => m.extWords
  | .and _ _ m => m.extWords
  | .mpy _ _ _ m => m.extWords
  | .mpyr _ _ _ m => m.extWords
  | .mac _ _ _ m => m.extWords
  | .macr _ _ _ m => m.extWords
  | .reservedA _ _ => []
  | .reservedB _ => []
  | .moveImm _ _ => []
  | .moveReg _ _ => []
  | .moveUpd _ _ => []
  | .ifcc _ _ => []
  | .ifccU _ _ => []
  | .moveXEa _ _ ea => ea.extWords
  | .moveXAa _ _ _ => []
  | .moveYEa _ _ ea => ea.extWords
  | .moveYAa _ _ _ => []
  | .moveXR1 _ _ _ _ ea => ea.extWords
  | .moveXR2 _ ea => ea.extWords
  | .moveRY1 _ _ _ _ ea => ea.extWords
  | .moveRY2 _ ea => ea.extWords
  | .moveLEa _ _ ea => ea.extWords
  | .moveLAa _ _ _ => []
  | .moveXY _ _ _ _ _ _ _ _ => []
  | .addShort _ _ => []
  | .addImm _ imm => [imm]
  | .andShort _ _ => []
  | .andImm _ imm => [imm]
  | .andi _ _ => []
  | .aslNum _ _ _ => []
  | .aslBy _ _ _ => []
  | .asrNum _ _ _ => []
  | .asrBy _ _ _ => []
  | .bccLong _ disp => [disp]
  | .bccShort _ _ => []
  | .bccReg _ _ => []
  | .bchgEa _ _ ea => ea.extWords
  | .bchgAa _ _ _ => []
  | .bchgPp _ _ _ => []
  | .bchgQq _ _ _ => []
  | .bchgReg _ _ => []
  | .bclrEa _ _ ea => ea.extWords
  | .bclrAa _ _ _ => []
  | .bclrPp _ _ _ => []
  | .bclrQq _ _ _ => []
  | .bclrReg _ _ => []
  | .bsetEa _ _ ea => ea.extWords
  | .bsetAa _ _ _ => []
  | .bsetPp _ _ _ => []
  | .bsetQq _ _ _ => []
  | .bsetReg _ _ => []
  | .btstEa _ _ ea => ea.extWords
  | .btstAa _ _ _ => []
  | .btstPp _ _ _ => []
  | .btstQq _ _ _ => []
  | .btstReg _ _ => []
  | .braLong disp => [disp]
  | .braShort _ => []
  | .braReg _ => []
  | .brclrEa _ _ _ disp => [disp]
  | .brclrAa _ _ _ disp => [disp]
  | .brclrPp _ _ _ disp => [disp]
  | .brclrQq _ _ _ disp => [disp]
  | .brclrReg _ _ disp => [disp]
  | .brsetEa _ _ _ disp => [disp]
  | .brsetAa _ _ _ disp => [disp]
  | .brsetPp _ _ _ disp => [disp]
  | .brsetQq _ _ _ disp => [disp]
  | .brsetReg _ _ disp => [disp]
  | .bsclrEa _ _ _ disp => [disp]
  | .bsclrAa _ _ _ disp => [disp]
  | .bsclrPp _ _ _ disp => [disp]
  | .bsclrQq _ _ _ disp => [disp]
  | .bsclrReg _ _ disp => [disp]
  | .bssetEa _ _ _ disp => [disp]
  | .bssetAa _ _ _ disp => [disp]
  | .bssetPp _ _ _ disp => [disp]
  | .bssetQq _ _ _ disp => [disp]
  | .bssetReg _ _ disp => [disp]
  | .brkcc _ => []
  | .bsccLong _ disp => [disp]
  | .bsccShort _ _ => []
  | .bsccReg _ _ => []
  | .bsrLong disp => [disp]
  | .bsrShort _ => []
  | .bsrReg _ => []
  | .clb _ _ => []
  | .cmpShort _ _ => []
  | .cmpImm _ imm => [imm]
  | .cmpu _ _ => []
  | .debugcc _ => []
  | .dec _ => []
  | .div _ _ => []
  | .dmac _ _ _ _ => []
  | .doEa _ _ la => [la]
  | .doAa _ _ la => [la]
  | .doNum _ la => [la]
  | .doReg _ la => [la]
  | .dorEa _ _ disp => [disp]
  | .dorAa _ _ disp => [disp]
  | .dorNum _ disp => [disp]
  | .dorReg _ disp => [disp]
  | .repEa _ ea => ea.extWords
  | .repAa _ _ => []
  | .repNum _ => []
  | .repReg _ => []
  | .doForever la => [la]
  | .dorForever disp => [disp]
  | .eorShort _ _ => []
  | .eorImm _ imm => [imm]
  | .extractBy _ _ _ => []
  | .extractNum _ _ co => [co]
  | .extractuBy _ _ _ => []
  | .extractuNum _ _ co => [co]
  | .inc _ => []
  | .insertBy _ _ _ => []
  | .insertNum _ _ co => [co]
  | .jccShort _ _ => []
  | .jccEa _ ea => ea.extWords
  | .jclrEa _ _ _ target => [target]
  | .jclrAa _ _ _ target => [target]
  | .jclrPp _ _ _ target => [target]
  | .jclrQq _ _ _ target => [target]
  | .jclrReg _ _ target => [target]
  | .jsetEa _ _ _ target => [target]
  | .jsetAa _ _ _ target => [target]
  | .jsetPp _ _ _ target => [target]
  | .jsetQq _ _ _ target => [target]
  | .jsetReg _ _ target => [target]
  | .jsclrEa _ _ _ target => [target]
  | .jsclrAa _ _ _ target => [target]
  | .jsclrPp _ _ _ target => [target]
  | .jsclrQq _ _ _ target => [target]
  | .jsclrReg _ _ target => [target]
  | .jssetEa _ _ _ target => [target]
  | .jssetAa _ _ _ target => [target]
  | .jssetPp _ _ _ target => [target]
  | .jssetQq _ _ _ target => [target]
  | .jssetReg _ _ target => [target]
  | .jmpShort _ => []
  | .jmpEa ea => ea.extWords
  | .jsccShort _ _ => []
  | .jsccEa _ ea => ea.extWords
  | .jsrShort _ => []
  | .jsrEa ea => ea.extWords
  | .lraReg _ _ => []
  | .lraLong _ disp => [disp]
  | .lslNum _ _ => []
  | .lslBy _ _ => []
  | .lsrNum _ _ => []
  | .lsrBy _ _ => []
  | .luaEa _ _ _ => []
  | .luaDisp _ _ _ => []
  | .macNum _ _ _ _ => []
  | .macSu _ _ _ _ => []
  | .maci _ _ _ imm => [imm]
  | .macrNum _ _ _ _ => []
  | .macri _ _ _ imm => [imm]
  | .merge _ _ => []
  | .moveXLong _ _ _ disp => [disp]
  | .moveYLong _ _ _ disp => [disp]
  | .moveXShort _ _ _ _ => []
  | .moveYShort _ _ _ _ => []
  | .movecEa _ _ ea _ => ea.extWords
  | .movecAa _ _ _ _ => []
  | .movecReg _ _ _ => []
  | .movecImm _ _ => []
  | .movemEa _ ea _ => ea.extWords
  | .movemAa _ _ _ => []
  | .movepPpEa _ _ _ ea _ => ea.extWords
  | .movepXqqEa _ _ ea _ => ea.extWords
  | .movepYqqEa _ _ ea _ => ea.extWords
  | .movepPpP _ _ ea _ => ea.extWords
  | .movepQqP _ ea _ _ => ea.extWords
  | .movepPpReg _ _ _ _ => []
  | .movepXqqReg _ _ _ => []
  | .movepYqqReg _ _ _ => []
  | .mpyNum _ _ _ _ => []
  | .mpySu _ _ _ _ => []
  | .mpyi _ _ _ imm => [imm]
  | .mpyrNum _ _ _ _ => []
  | .mpyri _ _ _ imm => [imm]
  | .norm _ _ => []
  | .normf _ _ => []
  | .orShort _ _ => []
  | .orImm _ imm => [imm]
  | .ori _ _ => []
  | .plock ea => ea.extWords
  | .plockr disp => [disp]
  | .punlock ea => ea.extWords
  | .punlockr disp => [disp]
  | .subShort _ _ => []
  | .subImm _ imm => [imm]
  | .tccD _ _ _ => []
  | .tccDR _ _ _ _ _ => []
  | .tccR _ _ _ => []
  | .trapcc _ => []
  | .vsl _ _ ea => ea.extWords
  | .moveNone => []
  | .debug => []
  | .enddo => []
  | .illegal => []
  | .nop => []
  | .pflush => []
  | .pflushun => []
  | .pfree => []
  | .reset => []
  | .rti => []
  | .rts => []
  | .stop => []
  | .trap => []
  | .wait => []

/-- The length in words (30_encoding R154). -/
def Instr.len (i : Instr) : Nat := 1 + i.extWords.length

end Sys2Proof
end

