-- ==== Sys2Proof/Decode.lean ====
section
/-!
DEFINITION. Decoding (30_encoding R150 to R171), total on any two words, and the encoder. Fields are pulled out here
once; `mask` and `pat` of a row are the table's `mask` and `match`.
-/
namespace Sys2Proof

/-! ## Field codes (30_encoding R155 to R160): each with its inverse -/

def boolOfBits (b : BitVec 1) : Bool := b == 1#1
def boolBits (b : Bool) : BitVec 1 := if b then 1#1 else 0#1
def fin8OfBits (b : BitVec 3) : Fin 8 := b.toFin
def fin8Bits (n : Fin 8) : BitVec 3 := BitVec.ofFin n
def fin4OfBits (b : BitVec 2) : Fin 4 := b.toFin
def fin4Bits (n : Fin 4) : BitVec 2 := BitVec.ofFin n

/-- R155 `d`. -/
def Acc.ofBits (b : BitVec 1) : Acc :=
  match b with
  | 0b0#1 => .a
  | _ => .b
/-- The inverse. -/
def Acc.bits : Acc → BitVec 1
  | .a => 0b0#1
  | .b => 0b1#1

/-- R155 `S`. -/
def Space.ofBits (b : BitVec 1) : Space :=
  match b with
  | 0b0#1 => .x
  | _ => .y
/-- The inverse. -/
def Space.bits : Space → BitVec 1
  | .x => 0b0#1
  | .y => 0b1#1

/-- R155 `W`. -/
def Dir.ofBits (b : BitVec 1) : Dir :=
  match b with
  | 0b0#1 => .read
  | _ => .write
/-- The inverse. -/
def Dir.bits : Dir → BitVec 1
  | .read => 0b0#1
  | .write => 0b1#1

/-- R155 `J`. -/
def XYLong.ofBits (b : BitVec 1) : XYLong :=
  match b with
  | 0b0#1 => .x
  | _ => .y
/-- The inverse. -/
def XYLong.bits : XYLong → BitVec 1
  | .x => 0b0#1
  | .y => 0b1#1

/-- R155 `JJ`, `qq`. -/
def XYReg.ofJJ (b : BitVec 2) : XYReg :=
  match b with
  | 0b00#2 => .x0
  | 0b01#2 => .y0
  | 0b10#2 => .x1
  | _ => .y1
/-- The inverse. -/
def XYReg.jj : XYReg → BitVec 2
  | .x0 => 0b00#2
  | .y0 => 0b01#2
  | .x1 => 0b10#2
  | .y1 => 0b11#2

/-- R155 `QQ`. -/
def XYReg.ofQQ (b : BitVec 2) : XYReg :=
  match b with
  | 0b00#2 => .y1
  | 0b01#2 => .x0
  | 0b10#2 => .y0
  | _ => .x1
/-- The inverse. -/
def XYReg.qq : XYReg → BitVec 2
  | .y1 => 0b00#2
  | .x0 => 0b01#2
  | .y0 => 0b10#2
  | .x1 => 0b11#2

/-- R159(b) `QQQ`. -/
def MulPair.ofBits (b : BitVec 3) : MulPair :=
  match b with
  | 0b000#3 => .x0x0
  | 0b001#3 => .y0y0
  | 0b010#3 => .x1x0
  | 0b011#3 => .y1y0
  | 0b100#3 => .x0y1
  | 0b101#3 => .y0x0
  | 0b110#3 => .x1y0
  | _ => .y1x1
/-- The inverse. -/
def MulPair.bits : MulPair → BitVec 3
  | .x0x0 => 0b000#3
  | .y0y0 => 0b001#3
  | .x1x0 => 0b010#3
  | .y1y0 => 0b011#3
  | .x0y1 => 0b100#3
  | .y0x0 => 0b101#3
  | .x1y0 => 0b110#3
  | .y1x1 => 0b111#3

/-- R160 `CCCC`. -/
def Cond.ofBits (b : BitVec 4) : Cond :=
  match b with
  | 0b0000#4 => .cc
  | 0b0001#4 => .ge
  | 0b0010#4 => .ne
  | 0b0011#4 => .pl
  | 0b0100#4 => .nn
  | 0b0101#4 => .ec
  | 0b0110#4 => .lc
  | 0b0111#4 => .gt
  | 0b1000#4 => .cs
  | 0b1001#4 => .lt
  | 0b1010#4 => .eq
  | 0b1011#4 => .mi
  | 0b1100#4 => .nr
  | 0b1101#4 => .es
  | 0b1110#4 => .ls
  | _ => .le
/-- The inverse. -/
def Cond.bits : Cond → BitVec 4
  | .cc => 0b0000#4
  | .ge => 0b0001#4
  | .ne => 0b0010#4
  | .pl => 0b0011#4
  | .nn => 0b0100#4
  | .ec => 0b0101#4
  | .lc => 0b0110#4
  | .gt => 0b0111#4
  | .cs => 0b1000#4
  | .lt => 0b1001#4
  | .eq => 0b1010#4
  | .mi => 0b1011#4
  | .nr => 0b1100#4
  | .es => 0b1101#4
  | .ls => 0b1110#4
  | .le => 0b1111#4

/-- R155 `EE`. -/
def PcuByte.ofBits (b : BitVec 2) : PcuByte :=
  match b with
  | 0b00#2 => .mr
  | 0b01#2 => .ccr
  | 0b10#2 => .com
  | _ => .eom
/-- The inverse. -/
def PcuByte.bits : PcuByte → BitVec 2
  | .mr => 0b00#2
  | .ccr => 0b01#2
  | .com => 0b10#2
  | .eom => 0b11#2

/-- 20_memory R116, Encoding 4. -/
def UpdMode.ofBits (b : BitVec 2) : UpdMode :=
  match b with
  | 0b00#2 => .postDecN
  | 0b01#2 => .postIncN
  | 0b10#2 => .postDec
  | _ => .postInc
/-- The inverse. -/
def UpdMode.bits : UpdMode → BitVec 2
  | .postDecN => 0b00#2
  | .postIncN => 0b01#2
  | .postDec => 0b10#2
  | .postInc => 0b11#2

/-- R158 `mm`, `MM`. -/
def XYMode.ofBits (b : BitVec 2) : XYMode :=
  match b with
  | 0b00#2 => .noUpd
  | 0b01#2 => .postIncN
  | 0b10#2 => .postDec
  | _ => .postInc
/-- The inverse. -/
def XYMode.bits : XYMode → BitVec 2
  | .noUpd => 0b00#2
  | .postIncN => 0b01#2
  | .postDec => 0b10#2
  | .postInc => 0b11#2

/-- R157 `LLL`. -/
def LongReg.ofBits (b : BitVec 3) : LongReg :=
  match b with
  | 0b000#3 => .a10
  | 0b001#3 => .b10
  | 0b010#3 => .x
  | 0b011#3 => .y
  | 0b100#3 => .a
  | 0b101#3 => .b
  | 0b110#3 => .ab
  | _ => .ba
/-- The inverse. -/
def LongReg.bits : LongReg → BitVec 3
  | .a10 => 0b000#3
  | .b10 => 0b001#3
  | .x => 0b010#3
  | .y => 0b011#3
  | .a => 0b100#3
  | .b => 0b101#3
  | .ab => 0b110#3
  | .ba => 0b111#3

/-- R158 `ee`, R159(g). -/
def XSide.ofBits (b : BitVec 2) : XSide :=
  match b with
  | 0b00#2 => .x0
  | 0b01#2 => .x1
  | 0b10#2 => .a
  | _ => .b
/-- The inverse. -/
def XSide.bits : XSide → BitVec 2
  | .x0 => 0b00#2
  | .x1 => 0b01#2
  | .a => 0b10#2
  | .b => 0b11#2

/-- R158 `ff`, R159(g). -/
def YSide.ofBits (b : BitVec 2) : YSide :=
  match b with
  | 0b00#2 => .y0
  | 0b01#2 => .y1
  | 0b10#2 => .a
  | _ => .b
/-- The inverse. -/
def YSide.bits : YSide → BitVec 2
  | .y0 => 0b00#2
  | .y1 => 0b01#2
  | .a => 0b10#2
  | .b => 0b11#2

/-- R159(g) `e`. -/
def X01.ofBits (b : BitVec 1) : X01 :=
  match b with
  | 0b0#1 => .x0
  | _ => .x1
/-- The inverse. -/
def X01.bits : X01 → BitVec 1
  | .x0 => 0b0#1
  | .x1 => 0b1#1

/-- R159(g) `F`. -/
def Y01.ofBits (b : BitVec 1) : Y01 :=
  match b with
  | 0b0#1 => .y0
  | _ => .y1
/-- The inverse. -/
def Y01.bits : Y01 → BitVec 1
  | .y0 => 0b0#1
  | .y1 => 0b1#1

/-- R155 `s`. -/
def Sign1.ofBits (b : BitVec 1) : Sign1 :=
  match b with
  | 0b0#1 => .su
  | _ => .uu
/-- The inverse. -/
def Sign1.bits : Sign1 → BitVec 1
  | .su => 0b0#1
  | .uu => 0b1#1

/-- R155 `ss`; 01 reserved. -/
def Sign2.ofBits (b : BitVec 2) : Option Sign2 :=
  match b with
  | 0b00#2 => some .ss
  | 0b10#2 => some .su
  | 0b11#2 => some .uu
  | _ => none
/-- The inverse. -/
def Sign2.bits : Sign2 → BitVec 2
  | .ss => 0b00#2
  | .su => 0b10#2
  | .uu => 0b11#2

/-- R159(a) `sss`; 000 and 001 reserved. -/
def ShiftSrc.ofBits (b : BitVec 3) : Option ShiftSrc :=
  match b with
  | 0b010#3 => some .a1
  | 0b011#3 => some .b1
  | 0b100#3 => some .x0
  | 0b101#3 => some .y0
  | 0b110#3 => some .x1
  | 0b111#3 => some .y1
  | _ => none
/-- The inverse. -/
def ShiftSrc.bits : ShiftSrc → BitVec 3
  | .a1 => 0b010#3
  | .b1 => 0b011#3
  | .x0 => 0b100#3
  | .y0 => 0b101#3
  | .x1 => 0b110#3
  | .y1 => 0b111#3

/-- R159(a) `qqq`; 000 and 001 reserved. -/
def InsSrc.ofBits (b : BitVec 3) : Option InsSrc :=
  match b with
  | 0b010#3 => some .a0
  | 0b011#3 => some .b0
  | 0b100#3 => some .x0
  | 0b101#3 => some .y0
  | 0b110#3 => some .x1
  | 0b111#3 => some .y1
  | _ => none
/-- The inverse. -/
def InsSrc.bits : InsSrc → BitVec 3
  | .a0 => 0b010#3
  | .b0 => 0b011#3
  | .x0 => 0b100#3
  | .y0 => 0b101#3
  | .x1 => 0b110#3
  | .y1 => 0b111#3

/-- R159(e) `DDDD`; 0000 to 0011 reserved. -/
def AluReg.ofBits (b : BitVec 4) : Option AluReg :=
  match b with
  | 0b0100#4 => some .x0
  | 0b0101#4 => some .x1
  | 0b0110#4 => some .y0
  | 0b0111#4 => some .y1
  | 0b1000#4 => some .a0
  | 0b1001#4 => some .b0
  | 0b1010#4 => some .a2
  | 0b1011#4 => some .b2
  | 0b1100#4 => some .a1
  | 0b1101#4 => some .b1
  | 0b1110#4 => some .a
  | 0b1111#4 => some .b
  | _ => none
/-- The inverse. -/
def AluReg.bits : AluReg → BitVec 4
  | .x0 => 0b0100#4
  | .x1 => 0b0101#4
  | .y0 => 0b0110#4
  | .y1 => 0b0111#4
  | .a0 => 0b1000#4
  | .b0 => 0b1001#4
  | .a2 => 0b1010#4
  | .b2 => 0b1011#4
  | .a1 => 0b1100#4
  | .b1 => 0b1101#4
  | .a => 0b1110#4
  | .b => 0b1111#4

/-- R159(b) `QQQQ`: all sixteen ordered pairs. -/
def MulOps.ofBits (b : BitVec 4) : MulOps :=
  match b with
  | 0b0000#4 => ⟨.x0, .x0⟩
  | 0b0001#4 => ⟨.y0, .y0⟩
  | 0b0010#4 => ⟨.x1, .x0⟩
  | 0b0011#4 => ⟨.y1, .y0⟩
  | 0b0100#4 => ⟨.x0, .y1⟩
  | 0b0101#4 => ⟨.y0, .x0⟩
  | 0b0110#4 => ⟨.x1, .y0⟩
  | 0b0111#4 => ⟨.y1, .x1⟩
  | 0b1000#4 => ⟨.x1, .x1⟩
  | 0b1001#4 => ⟨.y1, .y1⟩
  | 0b1010#4 => ⟨.x0, .x1⟩
  | 0b1011#4 => ⟨.y0, .y1⟩
  | 0b1100#4 => ⟨.y1, .x0⟩
  | 0b1101#4 => ⟨.x0, .y0⟩
  | 0b1110#4 => ⟨.y0, .x1⟩
  | _ => ⟨.x1, .y1⟩
/-- The inverse. -/
def MulOps.bits : MulOps → BitVec 4
  | ⟨.x0, .x0⟩ => 0b0000#4
  | ⟨.y0, .y0⟩ => 0b0001#4
  | ⟨.x1, .x0⟩ => 0b0010#4
  | ⟨.y1, .y0⟩ => 0b0011#4
  | ⟨.x0, .y1⟩ => 0b0100#4
  | ⟨.y0, .x0⟩ => 0b0101#4
  | ⟨.x1, .y0⟩ => 0b0110#4
  | ⟨.y1, .x1⟩ => 0b0111#4
  | ⟨.x1, .x1⟩ => 0b1000#4
  | ⟨.y1, .y1⟩ => 0b1001#4
  | ⟨.x0, .x1⟩ => 0b1010#4
  | ⟨.y0, .y1⟩ => 0b1011#4
  | ⟨.y1, .x0⟩ => 0b1100#4
  | ⟨.x0, .y0⟩ => 0b1101#4
  | ⟨.y0, .x1⟩ => 0b1110#4
  | ⟨.x1, .y1⟩ => 0b1111#4

/-- R159(a) `ggg` and `JJJ` (second column): 000 the other accumulator, 001 to 011 reserved, 1JJ an input register. -/
def AccOrReg.ofBits (b : BitVec 3) : Option AccOrReg :=
  if b.getLsbD 2 then some (.reg (XYReg.ofJJ (b.extractLsb' 0 2)))
  else if b = 0#3 then some .other else none
/-- The inverse. -/
def AccOrReg.bits : AccOrReg → BitVec 3
  | .other => 0#3
  | .reg k => 0b1#1 ++ k.jj

/-- R159(c): the five-bit register code `ddddd`. -/
def DReg.ofBits (b : BitVec 5) : Option DReg :=
  if b.getLsbD 4 then
    if b.getLsbD 3 then some (.n (fin8OfBits (b.extractLsb' 0 3))) else some (.r (fin8OfBits (b.extractLsb' 0 3)))
  else (AluReg.ofBits (b.extractLsb' 0 4)).map .alu
/-- The inverse. -/
def DReg.bits : DReg → BitVec 5
  | .alu k => 0b0#1 ++ k.bits
  | .r k => 0b10#2 ++ fin8Bits k
  | .n k => 0b11#2 ++ fin8Bits k

/-- R159(f): the five-bit code of MOVEC. -/
def CReg.ofBits (b : BitVec 5) : Option CReg :=
  if b.extractLsb' 3 2 = 0#2 then some (.m (fin8OfBits (b.extractLsb' 0 3)))
  else match b with
  | 0b01010#5 => some .ep
  | 0b10000#5 => some .vba
  | 0b10001#5 => some .sc
  | 0b11000#5 => some .sz
  | 0b11001#5 => some .sr
  | 0b11010#5 => some .omr
  | 0b11011#5 => some .sp
  | 0b11100#5 => some .ssh
  | 0b11101#5 => some .ssl
  | 0b11110#5 => some .la
  | 0b11111#5 => some .lc
  | _ => none
/-- The inverse. -/
def CReg.bits : CReg → BitVec 5
  | .m k => 0b00#2 ++ fin8Bits k
  | .ep => 0b01010#5
  | .vba => 0b10000#5
  | .sc => 0b10001#5
  | .sz => 0b11000#5
  | .sr => 0b11001#5
  | .omr => 0b11010#5
  | .sp => 0b11011#5
  | .ssh => 0b11100#5
  | .ssl => 0b11101#5
  | .la => 0b11110#5
  | .lc => 0b11111#5

/-- R156: the six-bit register code. -/
def Reg.ofBits (b : BitVec 6) : Option Reg :=
  if b.getLsbD 5 then (CReg.ofBits (b.extractLsb' 0 5)).map .c else (DReg.ofBits (b.extractLsb' 0 5)).map .d
/-- The inverse. -/
def Reg.bits : Reg → BitVec 6
  | .d k => 0b0#1 ++ k.bits
  | .c k => 0b1#1 ++ k.bits

/-- R159(d): 0nnn = Rn, 1nnn = Nn. -/
def AguReg.ofBits (b : BitVec 4) : AguReg :=
  if b.getLsbD 3 then .n (fin8OfBits (b.extractLsb' 0 3)) else .r (fin8OfBits (b.extractLsb' 0 3))
/-- The inverse. -/
def AguReg.bits : AguReg → BitVec 4
  | .r k => 0b0#1 ++ fin8Bits k
  | .n k => 0b1#1 ++ fin8Bits k

/-- 20_memory R116: the field MMMRRR; `ext` is the word after the operation word. 110rrr with rrr other than 000 and
100 is reserved (R170). -/
def Ea.ofBits (b : BitVec 6) (ext : Word) : Option Ea :=
  let n := fin8OfBits (b.extractLsb' 0 3)
  match b.extractLsb' 3 3 with
  | 0b000#3 => some (.postDecN n)
  | 0b001#3 => some (.postIncN n)
  | 0b010#3 => some (.postDec n)
  | 0b011#3 => some (.postInc n)
  | 0b100#3 => some (.noUpd n)
  | 0b101#3 => some (.indexN n)
  | 0b111#3 => some (.preDec n)
  | _ => if n = 0 then some (.abs ext) else if n = 4 then some (.imm ext) else none
/-- The inverse. -/
def Ea.bits : Ea → BitVec 6
  | .postDecN n => 0b000#3 ++ fin8Bits n
  | .postIncN n => 0b001#3 ++ fin8Bits n
  | .postDec n => 0b010#3 ++ fin8Bits n
  | .postInc n => 0b011#3 ++ fin8Bits n
  | .noUpd n => 0b100#3 ++ fin8Bits n
  | .indexN n => 0b101#3 ++ fin8Bits n
  | .preDec n => 0b111#3 ++ fin8Bits n
  | .abs _ => 0b110000#6
  | .imm _ => 0b110100#6

/-! ## The parallel format (30_encoding R151, R152, R161, R162) -/

/-- The Data Bus Movement field, bits 23:8 (R152). The I, R, U and L: patterns are told from their neighbours by the
order of the tests: a five-bit code with top bits 00 is at least 00100 (R152). -/
def PMove.ofBits (b : BitVec 16) (ext : Word) : Option PMove :=
  if b = 0x2000#16 then some .none
  else if b &&& 0xFFE0#16 = 0x2040#16 then
    some (.upd (UpdMode.ofBits (b.extractLsb' 3 2)) (fin8OfBits (b.extractLsb' 0 3)))
  else if b &&& 0xFC00#16 = 0x2000#16 then
    (DReg.ofBits (b.extractLsb' 5 5)).bind fun s => (DReg.ofBits (b.extractLsb' 0 5)).bind fun d => some (.reg s d)
  else if b &&& 0xE000#16 = 0x2000#16 then
    (DReg.ofBits (b.extractLsb' 8 5)).bind fun d => some (.imm (b.extractLsb' 0 8) d)
  else if b &&& 0xF440#16 = 0x4040#16 then
    (Ea.ofBits (b.extractLsb' 0 6) ext).bind fun ea =>
      some (.lEa (LongReg.ofBits (b.extractLsb' 11 1 ++ b.extractLsb' 8 2)) (Dir.ofBits (b.extractLsb' 7 1)) ea)
  else if b &&& 0xF440#16 = 0x4000#16 then
    some (.lAa (LongReg.ofBits (b.extractLsb' 11 1 ++ b.extractLsb' 8 2)) (Dir.ofBits (b.extractLsb' 7 1)) (b.extractLsb' 0 6))
  else if b &&& 0xC840#16 = 0x4040#16 then
    (DReg.ofBits (b.extractLsb' 12 2 ++ b.extractLsb' 8 3)).bind fun d => (Ea.ofBits (b.extractLsb' 0 6) ext).bind fun ea =>
      some (.xEa d (Dir.ofBits (b.extractLsb' 7 1)) ea)
  else if b &&& 0xC840#16 = 0x4000#16 then
    (DReg.ofBits (b.extractLsb' 12 2 ++ b.extractLsb' 8 3)).bind fun d =>
      some (.xAa d (Dir.ofBits (b.extractLsb' 7 1)) (b.extractLsb' 0 6))
  else if b &&& 0xC840#16 = 0x4840#16 then
    (DReg.ofBits (b.extractLsb' 12 2 ++ b.extractLsb' 8 3)).bind fun d => (Ea.ofBits (b.extractLsb' 0 6) ext).bind fun ea =>
      some (.yEa d (Dir.ofBits (b.extractLsb' 7 1)) ea)
  else if b &&& 0xC840#16 = 0x4800#16 then
    (DReg.ofBits (b.extractLsb' 12 2 ++ b.extractLsb' 8 3)).bind fun d =>
      some (.yAa d (Dir.ofBits (b.extractLsb' 7 1)) (b.extractLsb' 0 6))
  else if b &&& 0xF040#16 = 0x1000#16 then
    (Ea.ofBits (b.extractLsb' 0 6) ext).bind fun ea =>
      some (.xr1 (XSide.ofBits (b.extractLsb' 10 2)) (Acc.ofBits (b.extractLsb' 9 1)) (Y01.ofBits (b.extractLsb' 8 1))
        (Dir.ofBits (b.extractLsb' 7 1)) ea)
  else if b &&& 0xF040#16 = 0x1040#16 then
    (Ea.ofBits (b.extractLsb' 0 6) ext).bind fun ea =>
      some (.ry1 (Acc.ofBits (b.extractLsb' 11 1)) (X01.ofBits (b.extractLsb' 10 1)) (YSide.ofBits (b.extractLsb' 8 2))
        (Dir.ofBits (b.extractLsb' 7 1)) ea)
  else if b &&& 0xFEC0#16 = 0x0800#16 then
    (Ea.ofBits (b.extractLsb' 0 6) ext).bind fun ea => some (.xr2 (Acc.ofBits (b.extractLsb' 8 1)) ea)
  else if b &&& 0xFEC0#16 = 0x0880#16 then
    (Ea.ofBits (b.extractLsb' 0 6) ext).bind fun ea => some (.ry2 (Acc.ofBits (b.extractLsb' 8 1)) ea)
  else if b &&& 0x8000#16 = 0x8000#16 then
    some (.xy (Dir.ofBits (b.extractLsb' 14 1)) (XYMode.ofBits (b.extractLsb' 12 2)) (XSide.ofBits (b.extractLsb' 10 2))
      (YSide.ofBits (b.extractLsb' 8 2)) (Dir.ofBits (b.extractLsb' 7 1)) (fin4OfBits (b.extractLsb' 5 2))
      (XYMode.ofBits (b.extractLsb' 3 2)) (fin8OfBits (b.extractLsb' 0 3)))
  else Option.none

/-- The inverse (R152), bits 23:8. -/
def PMove.bits : PMove → BitVec 16
  | .none => 0x2000#16
  | .imm i d => 0b001#3 ++ d.bits ++ i
  | .reg s d => 0b001000#6 ++ s.bits ++ d.bits
  | .upd u n => 0b00100000010#11 ++ u.bits ++ fin8Bits n
  | .xEa d w ea => 0b01#2 ++ d.bits.extractLsb' 3 2 ++ 0b0#1 ++ d.bits.extractLsb' 0 3 ++ w.bits ++ 0b1#1 ++ ea.bits
  | .xAa d w aa => 0b01#2 ++ d.bits.extractLsb' 3 2 ++ 0b0#1 ++ d.bits.extractLsb' 0 3 ++ w.bits ++ 0b0#1 ++ aa
  | .yEa d w ea => 0b01#2 ++ d.bits.extractLsb' 3 2 ++ 0b1#1 ++ d.bits.extractLsb' 0 3 ++ w.bits ++ 0b1#1 ++ ea.bits
  | .yAa d w aa => 0b01#2 ++ d.bits.extractLsb' 3 2 ++ 0b1#1 ++ d.bits.extractLsb' 0 3 ++ w.bits ++ 0b0#1 ++ aa
  | .xr1 xs s2 d2 w ea => 0b0001#4 ++ xs.bits ++ s2.bits ++ d2.bits ++ w.bits ++ 0b0#1 ++ ea.bits
  | .xr2 d ea => 0b0000100#7 ++ d.bits ++ 0b00#2 ++ ea.bits
  | .ry1 s1 d1 ys w ea => 0b0001#4 ++ s1.bits ++ d1.bits ++ ys.bits ++ w.bits ++ 0b1#1 ++ ea.bits
  | .ry2 d ea => 0b0000100#7 ++ d.bits ++ 0b10#2 ++ ea.bits
  | .lEa l w ea => 0b0100#4 ++ l.bits.extractLsb' 2 1 ++ 0b0#1 ++ l.bits.extractLsb' 0 2 ++ w.bits ++ 0b1#1 ++ ea.bits
  | .lAa l w aa => 0b0100#4 ++ l.bits.extractLsb' 2 1 ++ 0b0#1 ++ l.bits.extractLsb' 0 2 ++ w.bits ++ 0b0#1 ++ aa
  | .xy yw ym xs ys xw yn xm xn =>
    0b1#1 ++ yw.bits ++ ym.bits ++ xs.bits ++ ys.bits ++ xw.bits ++ fin4Bits yn ++ xm.bits ++ fin8Bits xn

/-- A row of an opcode table: `w` matches when `w &&& mask = pat` (R163). -/
structure Row (n : Nat) (α : Type) where
  mask : BitVec n
  pat : BitVec n
  build : BitVec n → Word → Option α

/-- Does the row match? -/
def Row.hit {n : Nat} {α : Type} (w : BitVec n) (r : Row n α) : Bool := w &&& r.mask == r.pat

/-- The Data ALU operations of the opcode byte (R161, R162). -/
def aluRows : List (Row 8 AluOp) := [
  ⟨0xFF#8, 0x00#8, fun _ _ => some .move⟩,
  ⟨0xF7#8, 0x01#8, fun b _ => some (.tfrAcc (Acc.ofBits (b.extractLsb' 3 1)))⟩,
  ⟨0xC7#8, 0x41#8, fun b _ => some (.tfrReg (XYReg.ofJJ (b.extractLsb' 4 2)) (Acc.ofBits (b.extractLsb' 3 1)))⟩,
  ⟨0xF7#8, 0x02#8, fun b _ => some (.addr (Acc.ofBits (b.extractLsb' 3 1)))⟩,
  ⟨0xF7#8, 0x03#8, fun b _ => some (.tst (Acc.ofBits (b.extractLsb' 3 1)))⟩,
  ⟨0xF7#8, 0x05#8, fun b _ => some (.cmpAcc (Acc.ofBits (b.extractLsb' 3 1)))⟩,
  ⟨0xC7#8, 0x45#8, fun b _ => some (.cmpReg (XYReg.ofJJ (b.extractLsb' 4 2)) (Acc.ofBits (b.extractLsb' 3 1)))⟩,
  ⟨0xF7#8, 0x06#8, fun b _ => some (.subr (Acc.ofBits (b.extractLsb' 3 1)))⟩,
  ⟨0xF7#8, 0x07#8, fun b _ => some (.cmpmAcc (Acc.ofBits (b.extractLsb' 3 1)))⟩,
  ⟨0xC7#8, 0x47#8, fun b _ => some (.cmpmReg (XYReg.ofJJ (b.extractLsb' 4 2)) (Acc.ofBits (b.extractLsb' 3 1)))⟩,
  ⟨0xF7#8, 0x10#8, fun b _ => some (.addAcc (Acc.ofBits (b.extractLsb' 3 1)))⟩,
  ⟨0xE7#8, 0x20#8, fun b _ => some (.addXY (XYLong.ofBits (b.extractLsb' 4 1)) (Acc.ofBits (b.extractLsb' 3 1)))⟩,
  ⟨0xC7#8, 0x40#8, fun b _ => some (.addReg (XYReg.ofJJ (b.extractLsb' 4 2)) (Acc.ofBits (b.extractLsb' 3 1)))⟩,
  ⟨0xF7#8, 0x11#8, fun b _ => some (.rnd (Acc.ofBits (b.extractLsb' 3 1)))⟩,
  ⟨0xF7#8, 0x12#8, fun b _ => some (.addl (Acc.ofBits (b.extractLsb' 3 1)))⟩,
  ⟨0xF7#8, 0x13#8, fun b _ => some (.clr (Acc.ofBits (b.extractLsb' 3 1)))⟩,
  ⟨0xF7#8, 0x14#8, fun b _ => some (.subAcc (Acc.ofBits (b.extractLsb' 3 1)))⟩,
  ⟨0xE7#8, 0x24#8, fun b _ => some (.subXY (XYLong.ofBits (b.extractLsb' 4 1)) (Acc.ofBits (b.extractLsb' 3 1)))⟩,
  ⟨0xC7#8, 0x44#8, fun b _ => some (.subReg (XYReg.ofJJ (b.extractLsb' 4 2)) (Acc.ofBits (b.extractLsb' 3 1)))⟩,
  ⟨0xFF#8, 0x15#8, fun _ _ => some .maxm⟩,
  ⟨0xFF#8, 0x1D#8, fun _ _ => some .max⟩,
  ⟨0xF7#8, 0x16#8, fun b _ => some (.subl (Acc.ofBits (b.extractLsb' 3 1)))⟩,
  ⟨0xF7#8, 0x17#8, fun b _ => some (.not (Acc.ofBits (b.extractLsb' 3 1)))⟩,
  ⟨0xE7#8, 0x21#8, fun b _ => some (.adc (XYLong.ofBits (b.extractLsb' 4 1)) (Acc.ofBits (b.extractLsb' 3 1)))⟩,
  ⟨0xF7#8, 0x22#8, fun b _ => some (.asr (Acc.ofBits (b.extractLsb' 3 1)))⟩,
  ⟨0xF7#8, 0x23#8, fun b _ => some (.lsr (Acc.ofBits (b.extractLsb' 3 1)))⟩,
  ⟨0xE7#8, 0x25#8, fun b _ => some (.sbc (XYLong.ofBits (b.extractLsb' 4 1)) (Acc.ofBits (b.extractLsb' 3 1)))⟩,
  ⟨0xF7#8, 0x26#8, fun b _ => some (.abs (Acc.ofBits (b.extractLsb' 3 1)))⟩,
  ⟨0xF7#8, 0x27#8, fun b _ => some (.ror (Acc.ofBits (b.extractLsb' 3 1)))⟩,
  ⟨0xF7#8, 0x32#8, fun b _ => some (.asl (Acc.ofBits (b.extractLsb' 3 1)))⟩,
  ⟨0xF7#8, 0x33#8, fun b _ => some (.lsl (Acc.ofBits (b.extractLsb' 3 1)))⟩,
  ⟨0xF7#8, 0x36#8, fun b _ => some (.neg (Acc.ofBits (b.extractLsb' 3 1)))⟩,
  ⟨0xF7#8, 0x37#8, fun b _ => some (.rol (Acc.ofBits (b.extractLsb' 3 1)))⟩,
  ⟨0xC7#8, 0x42#8, fun b _ => some (.or (XYReg.ofJJ (b.extractLsb' 4 2)) (Acc.ofBits (b.extractLsb' 3 1)))⟩,
  ⟨0xC7#8, 0x43#8, fun b _ => some (.eor (XYReg.ofJJ (b.extractLsb' 4 2)) (Acc.ofBits (b.extractLsb' 3 1)))⟩,
  ⟨0xC7#8, 0x46#8, fun b _ => some (.and (XYReg.ofJJ (b.extractLsb' 4 2)) (Acc.ofBits (b.extractLsb' 3 1)))⟩,
  ⟨0x83#8, 0x80#8, fun b _ => some (.mpy (MulPair.ofBits (b.extractLsb' 4 3)) (Acc.ofBits (b.extractLsb' 3 1)) (boolOfBits (b.extractLsb' 2 1)))⟩,
  ⟨0x83#8, 0x81#8, fun b _ => some (.mpyr (MulPair.ofBits (b.extractLsb' 4 3)) (Acc.ofBits (b.extractLsb' 3 1)) (boolOfBits (b.extractLsb' 2 1)))⟩,
  ⟨0x83#8, 0x82#8, fun b _ => some (.mac (MulPair.ofBits (b.extractLsb' 4 3)) (Acc.ofBits (b.extractLsb' 3 1)) (boolOfBits (b.extractLsb' 2 1)))⟩,
  ⟨0x83#8, 0x83#8, fun b _ => some (.macr (MulPair.ofBits (b.extractLsb' 4 3)) (Acc.ofBits (b.extractLsb' 3 1)) (boolOfBits (b.extractLsb' 2 1)))⟩]

/-- The opcode byte: `none` for the reserved patterns. -/
def AluOp.ofByte (b : BitVec 8) : Option AluOp := (aluRows.find? (Row.hit b)).bind fun r => r.build b 0

/-- The inverse. -/
def AluOp.byte : AluOp → BitVec 8
  | .move => 0b00000000#8
  | .tfrAcc d => 0b0000#4 ++ d.bits ++ 0b001#3
  | .tfrReg s d => 0b01#2 ++ s.jj ++ d.bits ++ 0b001#3
  | .addr d => 0b0000#4 ++ d.bits ++ 0b010#3
  | .tst d => 0b0000#4 ++ d.bits ++ 0b011#3
  | .cmpAcc d => 0b0000#4 ++ d.bits ++ 0b101#3
  | .cmpReg s d => 0b01#2 ++ s.jj ++ d.bits ++ 0b101#3
  | .subr d => 0b0000#4 ++ d.bits ++ 0b110#3
  | .cmpmAcc d => 0b0000#4 ++ d.bits ++ 0b111#3
  | .cmpmReg s d => 0b01#2 ++ s.jj ++ d.bits ++ 0b111#3
  | .addAcc d => 0b0001#4 ++ d.bits ++ 0b000#3
  | .addXY s d => 0b001#3 ++ s.bits ++ d.bits ++ 0b000#3
  | .addReg s d => 0b01#2 ++ s.jj ++ d.bits ++ 0b000#3
  | .rnd d => 0b0001#4 ++ d.bits ++ 0b001#3
  | .addl d => 0b0001#4 ++ d.bits ++ 0b010#3
  | .clr d => 0b0001#4 ++ d.bits ++ 0b011#3
  | .subAcc d => 0b0001#4 ++ d.bits ++ 0b100#3
  | .subXY s d => 0b001#3 ++ s.bits ++ d.bits ++ 0b100#3
  | .subReg s d => 0b01#2 ++ s.jj ++ d.bits ++ 0b100#3
  | .maxm => 0b00010101#8
  | .max => 0b00011101#8
  | .subl d => 0b0001#4 ++ d.bits ++ 0b110#3
  | .not d => 0b0001#4 ++ d.bits ++ 0b111#3
  | .adc s d => 0b001#3 ++ s.bits ++ d.bits ++ 0b001#3
  | .asr d => 0b0010#4 ++ d.bits ++ 0b010#3
  | .lsr d => 0b0010#4 ++ d.bits ++ 0b011#3
  | .sbc s d => 0b001#3 ++ s.bits ++ d.bits ++ 0b101#3
  | .abs d => 0b0010#4 ++ d.bits ++ 0b110#3
  | .ror d => 0b0010#4 ++ d.bits ++ 0b111#3
  | .asl d => 0b0011#4 ++ d.bits ++ 0b010#3
  | .lsl d => 0b0011#4 ++ d.bits ++ 0b011#3
  | .neg d => 0b0011#4 ++ d.bits ++ 0b110#3
  | .rol d => 0b0011#4 ++ d.bits ++ 0b111#3
  | .or s d => 0b01#2 ++ s.jj ++ d.bits ++ 0b010#3
  | .eor s d => 0b01#2 ++ s.jj ++ d.bits ++ 0b011#3
  | .and s d => 0b01#2 ++ s.jj ++ d.bits ++ 0b110#3
  | .mpy q d minus => 0b1#1 ++ q.bits ++ d.bits ++ boolBits minus ++ 0b00#2
  | .mpyr q d minus => 0b1#1 ++ q.bits ++ d.bits ++ boolBits minus ++ 0b01#2
  | .mac q d minus => 0b1#1 ++ q.bits ++ d.bits ++ boolBits minus ++ 0b10#2
  | .macr q d minus => 0b1#1 ++ q.bits ++ d.bits ++ boolBits minus ++ 0b11#2

/-- A Data ALU operation with its move. The byte $00 gives the move row (46_move R421). -/
def Instr.ofParallel (op : AluOp) (m : PMove) : Instr :=
  match op with
  | .move => match m with
    | .none => .moveNone
    | .imm i d => .moveImm i d
    | .reg s d => .moveReg s d
    | .upd u rn => .moveUpd u rn
    | .xEa d w ea => .moveXEa d w ea
    | .xAa d w aa => .moveXAa d w aa
    | .yEa d w ea => .moveYEa d w ea
    | .yAa d w aa => .moveYAa d w aa
    | .xr1 xs s2 d2 w ea => .moveXR1 xs s2 d2 w ea
    | .xr2 d ea => .moveXR2 d ea
    | .ry1 s1 d1 ys w ea => .moveRY1 s1 d1 ys w ea
    | .ry2 d ea => .moveRY2 d ea
    | .lEa l w ea => .moveLEa l w ea
    | .lAa l w aa => .moveLAa l w aa
    | .xy yw ym xs ys xw yn xm xn => .moveXY yw ym xs ys xw yn xm xn
  | .tfrAcc d => .tfrAcc d m
  | .tfrReg s d => .tfrReg s d m
  | .addr d => .addr d m
  | .tst d => .tst d m
  | .cmpAcc d => .cmpAcc d m
  | .cmpReg s d => .cmpReg s d m
  | .subr d => .subr d m
  | .cmpmAcc d => .cmpmAcc d m
  | .cmpmReg s d => .cmpmReg s d m
  | .addAcc d => .addAcc d m
  | .addXY s d => .addXY s d m
  | .addReg s d => .addReg s d m
  | .rnd d => .rnd d m
  | .addl d => .addl d m
  | .clr d => .clr d m
  | .subAcc d => .subAcc d m
  | .subXY s d => .subXY s d m
  | .subReg s d => .subReg s d m
  | .maxm => .maxm m
  | .max => .max m
  | .subl d => .subl d m
  | .not d => .not d m
  | .adc s d => .adc s d m
  | .asr d => .asr d m
  | .lsr d => .lsr d m
  | .sbc s d => .sbc s d m
  | .abs d => .abs d m
  | .ror d => .ror d m
  | .asl d => .asl d m
  | .lsl d => .lsl d m
  | .neg d => .neg d m
  | .rol d => .rol d m
  | .or s d => .or s d m
  | .eor s d => .eor s d m
  | .and s d => .and s d m
  | .mpy q d minus => .mpy q d minus m
  | .mpyr q d minus => .mpyr q d minus m
  | .mac q d minus => .mac q d minus m
  | .macr q d minus => .macr q d minus m

/-- A word of the parallel format (R163 step 2). -/
def decodeParallel (w ext : Word) : Option Instr :=
  let b := w.extractLsb' 0 8
  if w &&& 0xFFF000#24 = 0x202000#24 then (AluOp.ofByte b).bind fun op => some (.ifcc (Cond.ofBits (w.extractLsb' 8 4)) op)
  else if w &&& 0xFFF000#24 = 0x203000#24 then (AluOp.ofByte b).bind fun op => some (.ifccU (Cond.ofBits (w.extractLsb' 8 4)) op)
  else if b &&& 0xF7#8 = 0x04#8 then
    (PMove.ofBits (w.extractLsb' 8 16) 0).bind fun m => some (.reservedA (Acc.ofBits (b.extractLsb' 3 1)) m)
  else if b = 0x08#8 then (PMove.ofBits (w.extractLsb' 8 16) 0).bind fun m => some (.reservedB m)
  else (PMove.ofBits (w.extractLsb' 8 16) ext).bind fun m => (AluOp.ofByte b).bind fun op => some (Instr.ofParallel op m)

/-! ## The non-parallel format (30_encoding R153, R163): one row per row of the table -/

/-- Rows of the non-parallel format, part 0. -/
def rows0 : List (Row 24 Instr) := [
  ⟨0xFFF880#24, 0x0A7080#24, fun w ext => (Reg.ofBits (w.extractLsb' 0 6)).bind fun r => some (.moveXLong (fin8OfBits (w.extractLsb' 8 3)) (Dir.ofBits (w.extractLsb' 6 1)) r ext)⟩,
  ⟨0xFFF880#24, 0x0B7080#24, fun w ext => (Reg.ofBits (w.extractLsb' 0 6)).bind fun r => some (.moveYLong (fin8OfBits (w.extractLsb' 8 3)) (Dir.ofBits (w.extractLsb' 6 1)) r ext)⟩,
  ⟨0xFFC0F7#24, 0x014080#24, fun w _ => some (.addShort (w.extractLsb' 8 6) (Acc.ofBits (w.extractLsb' 3 1)))⟩,
  ⟨0xFFFFF7#24, 0x0140C0#24, fun w ext => some (.addImm (Acc.ofBits (w.extractLsb' 3 1)) ext)⟩,
  ⟨0xFFC0F7#24, 0x014086#24, fun w _ => some (.andShort (w.extractLsb' 8 6) (Acc.ofBits (w.extractLsb' 3 1)))⟩,
  ⟨0xFFFFF7#24, 0x0140C6#24, fun w ext => some (.andImm (Acc.ofBits (w.extractLsb' 3 1)) ext)⟩,
  ⟨0xFF00FC#24, 0x0000B8#24, fun w _ => some (.andi (w.extractLsb' 8 8) (PcuByte.ofBits (w.extractLsb' 0 2)))⟩,
  ⟨0xFFFF00#24, 0x0C1D00#24, fun w _ => some (.aslNum (w.extractLsb' 1 6) (Acc.ofBits (w.extractLsb' 7 1)) (Acc.ofBits (w.extractLsb' 0 1)))⟩,
  ⟨0xFFFFE0#24, 0x0C1E40#24, fun w _ => (ShiftSrc.ofBits (w.extractLsb' 1 3)).bind fun c => some (.aslBy c (Acc.ofBits (w.extractLsb' 4 1)) (Acc.ofBits (w.extractLsb' 0 1)))⟩,
  ⟨0xFFFF00#24, 0x0C1C00#24, fun w _ => some (.asrNum (w.extractLsb' 1 6) (Acc.ofBits (w.extractLsb' 7 1)) (Acc.ofBits (w.extractLsb' 0 1)))⟩,
  ⟨0xFFFFE0#24, 0x0C1E60#24, fun w _ => (ShiftSrc.ofBits (w.extractLsb' 1 3)).bind fun c => some (.asrBy c (Acc.ofBits (w.extractLsb' 4 1)) (Acc.ofBits (w.extractLsb' 0 1)))⟩,
  ⟨0xFFFFF0#24, 0x0D1040#24, fun w ext => some (.bccLong (Cond.ofBits (w.extractLsb' 0 4)) ext)⟩,
  ⟨0xFF0C20#24, 0x050400#24, fun w _ => some (.bccShort (Cond.ofBits (w.extractLsb' 12 4)) (w.extractLsb' 6 4 ++ w.extractLsb' 0 5))⟩,
  ⟨0xFFF8F0#24, 0x0D1840#24, fun w _ => some (.bccReg (Cond.ofBits (w.extractLsb' 0 4)) (fin8OfBits (w.extractLsb' 8 3)))⟩,
  ⟨0xFFC0A0#24, 0x0B4000#24, fun w ext => (Ea.ofBits (w.extractLsb' 8 6) ext).bind fun ea => some (.bchgEa (w.extractLsb' 0 5) (Space.ofBits (w.extractLsb' 6 1)) ea)⟩,
  ⟨0xFFC0A0#24, 0x0B0000#24, fun w _ => some (.bchgAa (w.extractLsb' 0 5) (Space.ofBits (w.extractLsb' 6 1)) (w.extractLsb' 8 6))⟩,
  ⟨0xFFC0A0#24, 0x0B8000#24, fun w _ => some (.bchgPp (w.extractLsb' 0 5) (Space.ofBits (w.extractLsb' 6 1)) (w.extractLsb' 8 6))⟩,
  ⟨0xFFC0A0#24, 0x014000#24, fun w _ => some (.bchgQq (w.extractLsb' 0 5) (Space.ofBits (w.extractLsb' 6 1)) (w.extractLsb' 8 6))⟩,
  ⟨0xFFC0E0#24, 0x0BC040#24, fun w _ => (Reg.ofBits (w.extractLsb' 8 6)).bind fun r => some (.bchgReg (w.extractLsb' 0 5) r)⟩,
  ⟨0xFFC0A0#24, 0x0A4000#24, fun w ext => (Ea.ofBits (w.extractLsb' 8 6) ext).bind fun ea => some (.bclrEa (w.extractLsb' 0 5) (Space.ofBits (w.extractLsb' 6 1)) ea)⟩,
  ⟨0xFFC0A0#24, 0x0A0000#24, fun w _ => some (.bclrAa (w.extractLsb' 0 5) (Space.ofBits (w.extractLsb' 6 1)) (w.extractLsb' 8 6))⟩,
  ⟨0xFFC0A0#24, 0x0A8000#24, fun w _ => some (.bclrPp (w.extractLsb' 0 5) (Space.ofBits (w.extractLsb' 6 1)) (w.extractLsb' 8 6))⟩,
  ⟨0xFFC0A0#24, 0x010000#24, fun w _ => some (.bclrQq (w.extractLsb' 0 5) (Space.ofBits (w.extractLsb' 6 1)) (w.extractLsb' 8 6))⟩,
  ⟨0xFFC0E0#24, 0x0AC040#24, fun w _ => (Reg.ofBits (w.extractLsb' 8 6)).bind fun r => some (.bclrReg (w.extractLsb' 0 5) r)⟩]

/-- Rows of the non-parallel format, part 1. -/
def rows1 : List (Row 24 Instr) := [
  ⟨0xFFC0A0#24, 0x0A4020#24, fun w ext => (Ea.ofBits (w.extractLsb' 8 6) ext).bind fun ea => some (.bsetEa (w.extractLsb' 0 5) (Space.ofBits (w.extractLsb' 6 1)) ea)⟩,
  ⟨0xFFC0A0#24, 0x0A0020#24, fun w _ => some (.bsetAa (w.extractLsb' 0 5) (Space.ofBits (w.extractLsb' 6 1)) (w.extractLsb' 8 6))⟩,
  ⟨0xFFC0A0#24, 0x0A8020#24, fun w _ => some (.bsetPp (w.extractLsb' 0 5) (Space.ofBits (w.extractLsb' 6 1)) (w.extractLsb' 8 6))⟩,
  ⟨0xFFC0A0#24, 0x010020#24, fun w _ => some (.bsetQq (w.extractLsb' 0 5) (Space.ofBits (w.extractLsb' 6 1)) (w.extractLsb' 8 6))⟩,
  ⟨0xFFC0E0#24, 0x0AC060#24, fun w _ => (Reg.ofBits (w.extractLsb' 8 6)).bind fun r => some (.bsetReg (w.extractLsb' 0 5) r)⟩,
  ⟨0xFFC0A0#24, 0x0B4020#24, fun w ext => (Ea.ofBits (w.extractLsb' 8 6) ext).bind fun ea => some (.btstEa (w.extractLsb' 0 5) (Space.ofBits (w.extractLsb' 6 1)) ea)⟩,
  ⟨0xFFC0A0#24, 0x0B0020#24, fun w _ => some (.btstAa (w.extractLsb' 0 5) (Space.ofBits (w.extractLsb' 6 1)) (w.extractLsb' 8 6))⟩,
  ⟨0xFFC0A0#24, 0x0B8020#24, fun w _ => some (.btstPp (w.extractLsb' 0 5) (Space.ofBits (w.extractLsb' 6 1)) (w.extractLsb' 8 6))⟩,
  ⟨0xFFC0A0#24, 0x014020#24, fun w _ => some (.btstQq (w.extractLsb' 0 5) (Space.ofBits (w.extractLsb' 6 1)) (w.extractLsb' 8 6))⟩,
  ⟨0xFFC0E0#24, 0x0BC060#24, fun w _ => (Reg.ofBits (w.extractLsb' 8 6)).bind fun r => some (.btstReg (w.extractLsb' 0 5) r)⟩,
  ⟨0xFFFFFF#24, 0x0D10C0#24, fun _ ext => some (.braLong ext)⟩,
  ⟨0xFFFC20#24, 0x050C00#24, fun w _ => some (.braShort (w.extractLsb' 6 4 ++ w.extractLsb' 0 5))⟩,
  ⟨0xFFF8FF#24, 0x0D18C0#24, fun w _ => some (.braReg (fin8OfBits (w.extractLsb' 8 3)))⟩,
  ⟨0xFFC0A0#24, 0x0C8000#24, fun w ext => (Ea.ofBits (w.extractLsb' 8 6) ext).bind fun ea => some (.brclrEa (w.extractLsb' 0 5) (Space.ofBits (w.extractLsb' 6 1)) ea ext)⟩,
  ⟨0xFFC0A0#24, 0x0C8080#24, fun w ext => some (.brclrAa (w.extractLsb' 0 5) (Space.ofBits (w.extractLsb' 6 1)) (w.extractLsb' 8 6) ext)⟩,
  ⟨0xFFC0A0#24, 0x0CC000#24, fun w ext => some (.brclrPp (w.extractLsb' 0 5) (Space.ofBits (w.extractLsb' 6 1)) (w.extractLsb' 8 6) ext)⟩,
  ⟨0xFFC0A0#24, 0x048000#24, fun w ext => some (.brclrQq (w.extractLsb' 0 5) (Space.ofBits (w.extractLsb' 6 1)) (w.extractLsb' 8 6) ext)⟩,
  ⟨0xFFC0E0#24, 0x0CC080#24, fun w ext => (Reg.ofBits (w.extractLsb' 8 6)).bind fun r => some (.brclrReg (w.extractLsb' 0 5) r ext)⟩,
  ⟨0xFFC0A0#24, 0x0C8020#24, fun w ext => (Ea.ofBits (w.extractLsb' 8 6) ext).bind fun ea => some (.brsetEa (w.extractLsb' 0 5) (Space.ofBits (w.extractLsb' 6 1)) ea ext)⟩,
  ⟨0xFFC0A0#24, 0x0C80A0#24, fun w ext => some (.brsetAa (w.extractLsb' 0 5) (Space.ofBits (w.extractLsb' 6 1)) (w.extractLsb' 8 6) ext)⟩,
  ⟨0xFFC0A0#24, 0x0CC020#24, fun w ext => some (.brsetPp (w.extractLsb' 0 5) (Space.ofBits (w.extractLsb' 6 1)) (w.extractLsb' 8 6) ext)⟩,
  ⟨0xFFC0A0#24, 0x048020#24, fun w ext => some (.brsetQq (w.extractLsb' 0 5) (Space.ofBits (w.extractLsb' 6 1)) (w.extractLsb' 8 6) ext)⟩,
  ⟨0xFFC0E0#24, 0x0CC0A0#24, fun w ext => (Reg.ofBits (w.extractLsb' 8 6)).bind fun r => some (.brsetReg (w.extractLsb' 0 5) r ext)⟩,
  ⟨0xFFC0A0#24, 0x0D8000#24, fun w ext => (Ea.ofBits (w.extractLsb' 8 6) ext).bind fun ea => some (.bsclrEa (w.extractLsb' 0 5) (Space.ofBits (w.extractLsb' 6 1)) ea ext)⟩]

/-- Rows of the non-parallel format, part 2. -/
def rows2 : List (Row 24 Instr) := [
  ⟨0xFFC0A0#24, 0x0D8080#24, fun w ext => some (.bsclrAa (w.extractLsb' 0 5) (Space.ofBits (w.extractLsb' 6 1)) (w.extractLsb' 8 6) ext)⟩,
  ⟨0xFFC0A0#24, 0x0DC000#24, fun w ext => some (.bsclrPp (w.extractLsb' 0 5) (Space.ofBits (w.extractLsb' 6 1)) (w.extractLsb' 8 6) ext)⟩,
  ⟨0xFFC0A0#24, 0x048080#24, fun w ext => some (.bsclrQq (w.extractLsb' 0 5) (Space.ofBits (w.extractLsb' 6 1)) (w.extractLsb' 8 6) ext)⟩,
  ⟨0xFFC0E0#24, 0x0DC080#24, fun w ext => (Reg.ofBits (w.extractLsb' 8 6)).bind fun r => some (.bsclrReg (w.extractLsb' 0 5) r ext)⟩,
  ⟨0xFFC0A0#24, 0x0D8020#24, fun w ext => (Ea.ofBits (w.extractLsb' 8 6) ext).bind fun ea => some (.bssetEa (w.extractLsb' 0 5) (Space.ofBits (w.extractLsb' 6 1)) ea ext)⟩,
  ⟨0xFFC0A0#24, 0x0D80A0#24, fun w ext => some (.bssetAa (w.extractLsb' 0 5) (Space.ofBits (w.extractLsb' 6 1)) (w.extractLsb' 8 6) ext)⟩,
  ⟨0xFFC0A0#24, 0x0DC020#24, fun w ext => some (.bssetPp (w.extractLsb' 0 5) (Space.ofBits (w.extractLsb' 6 1)) (w.extractLsb' 8 6) ext)⟩,
  ⟨0xFFC0A0#24, 0x0480A0#24, fun w ext => some (.bssetQq (w.extractLsb' 0 5) (Space.ofBits (w.extractLsb' 6 1)) (w.extractLsb' 8 6) ext)⟩,
  ⟨0xFFC0E0#24, 0x0DC0A0#24, fun w ext => (Reg.ofBits (w.extractLsb' 8 6)).bind fun r => some (.bssetReg (w.extractLsb' 0 5) r ext)⟩,
  ⟨0xFFFFF0#24, 0x000210#24, fun w _ => some (.brkcc (Cond.ofBits (w.extractLsb' 0 4)))⟩,
  ⟨0xFFFFF0#24, 0x0D1000#24, fun w ext => some (.bsccLong (Cond.ofBits (w.extractLsb' 0 4)) ext)⟩,
  ⟨0xFF0C20#24, 0x050000#24, fun w _ => some (.bsccShort (Cond.ofBits (w.extractLsb' 12 4)) (w.extractLsb' 6 4 ++ w.extractLsb' 0 5))⟩,
  ⟨0xFFF8F0#24, 0x0D1800#24, fun w _ => some (.bsccReg (Cond.ofBits (w.extractLsb' 0 4)) (fin8OfBits (w.extractLsb' 8 3)))⟩,
  ⟨0xFFFFFF#24, 0x0D1080#24, fun _ ext => some (.bsrLong ext)⟩,
  ⟨0xFFFC20#24, 0x050800#24, fun w _ => some (.bsrShort (w.extractLsb' 6 4 ++ w.extractLsb' 0 5))⟩,
  ⟨0xFFF8FF#24, 0x0D1880#24, fun w _ => some (.bsrReg (fin8OfBits (w.extractLsb' 8 3)))⟩,
  ⟨0xFFFFFC#24, 0x0C1E00#24, fun w _ => some (.clb (Acc.ofBits (w.extractLsb' 1 1)) (Acc.ofBits (w.extractLsb' 0 1)))⟩,
  ⟨0xFFC0F7#24, 0x014085#24, fun w _ => some (.cmpShort (w.extractLsb' 8 6) (Acc.ofBits (w.extractLsb' 3 1)))⟩,
  ⟨0xFFFFF7#24, 0x0140C5#24, fun w ext => some (.cmpImm (Acc.ofBits (w.extractLsb' 3 1)) ext)⟩,
  ⟨0xFFFFF0#24, 0x0C1FF0#24, fun w _ => (AccOrReg.ofBits (w.extractLsb' 1 3)).bind fun g => some (.cmpu g (Acc.ofBits (w.extractLsb' 0 1)))⟩,
  ⟨0xFFFFFF#24, 0x000200#24, fun _ _ => some .debug⟩,
  ⟨0xFFFFF0#24, 0x000300#24, fun w _ => some (.debugcc (Cond.ofBits (w.extractLsb' 0 4)))⟩,
  ⟨0xFFFFFE#24, 0x00000A#24, fun w _ => some (.dec (Acc.ofBits (w.extractLsb' 0 1)))⟩,
  ⟨0xFFFFC7#24, 0x018040#24, fun w _ => some (.div (XYReg.ofJJ (w.extractLsb' 4 2)) (Acc.ofBits (w.extractLsb' 3 1)))⟩]

/-- Rows of the non-parallel format, part 3. -/
def rows3 : List (Row 24 Instr) := [
  ⟨0xFFFE80#24, 0x012480#24, fun w _ => (Sign2.ofBits (w.extractLsb' 8 1 ++ w.extractLsb' 6 1)).bind fun sg => some (.dmac sg (MulOps.ofBits (w.extractLsb' 0 4)) (Acc.ofBits (w.extractLsb' 5 1)) (boolOfBits (w.extractLsb' 4 1)))⟩,
  ⟨0xFFC0BF#24, 0x064000#24, fun w ext => (Ea.ofBits (w.extractLsb' 8 6) ext).bind fun ea => some (.doEa (Space.ofBits (w.extractLsb' 6 1)) ea ext)⟩,
  ⟨0xFFC0BF#24, 0x060000#24, fun w ext => some (.doAa (Space.ofBits (w.extractLsb' 6 1)) (w.extractLsb' 8 6) ext)⟩,
  ⟨0xFF00F0#24, 0x060080#24, fun w ext => some (.doNum (w.extractLsb' 0 4 ++ w.extractLsb' 8 8) ext)⟩,
  ⟨0xFFC0FF#24, 0x06C000#24, fun w ext => (Reg.ofBits (w.extractLsb' 8 6)).bind fun r => some (.doReg r ext)⟩,
  ⟨0xFFC0BF#24, 0x064010#24, fun w ext => (Ea.ofBits (w.extractLsb' 8 6) ext).bind fun ea => some (.dorEa (Space.ofBits (w.extractLsb' 6 1)) ea ext)⟩,
  ⟨0xFFC0BF#24, 0x060010#24, fun w ext => some (.dorAa (Space.ofBits (w.extractLsb' 6 1)) (w.extractLsb' 8 6) ext)⟩,
  ⟨0xFF00F0#24, 0x060090#24, fun w ext => some (.dorNum (w.extractLsb' 0 4 ++ w.extractLsb' 8 8) ext)⟩,
  ⟨0xFFC0FF#24, 0x06C010#24, fun w ext => (Reg.ofBits (w.extractLsb' 8 6)).bind fun r => some (.dorReg r ext)⟩,
  ⟨0xFFC0BF#24, 0x064020#24, fun w ext => (Ea.ofBits (w.extractLsb' 8 6) ext).bind fun ea => some (.repEa (Space.ofBits (w.extractLsb' 6 1)) ea)⟩,
  ⟨0xFFC0BF#24, 0x060020#24, fun w _ => some (.repAa (Space.ofBits (w.extractLsb' 6 1)) (w.extractLsb' 8 6))⟩,
  ⟨0xFF00F0#24, 0x0600A0#24, fun w _ => some (.repNum (w.extractLsb' 0 4 ++ w.extractLsb' 8 8))⟩,
  ⟨0xFFC0FF#24, 0x06C020#24, fun w _ => (Reg.ofBits (w.extractLsb' 8 6)).bind fun r => some (.repReg r)⟩,
  ⟨0xFFFFFF#24, 0x000203#24, fun _ ext => some (.doForever ext)⟩,
  ⟨0xFFFFFF#24, 0x000202#24, fun _ ext => some (.dorForever ext)⟩,
  ⟨0xFFFFFF#24, 0x00008C#24, fun _ _ => some .enddo⟩,
  ⟨0xFFC0F7#24, 0x014083#24, fun w _ => some (.eorShort (w.extractLsb' 8 6) (Acc.ofBits (w.extractLsb' 3 1)))⟩,
  ⟨0xFFFFF7#24, 0x0140C3#24, fun w ext => some (.eorImm (Acc.ofBits (w.extractLsb' 3 1)) ext)⟩,
  ⟨0xFFFFE0#24, 0x0C1A00#24, fun w _ => (ShiftSrc.ofBits (w.extractLsb' 1 3)).bind fun c => some (.extractBy c (Acc.ofBits (w.extractLsb' 4 1)) (Acc.ofBits (w.extractLsb' 0 1)))⟩,
  ⟨0xFFFFEE#24, 0x0C1800#24, fun w ext => some (.extractNum (Acc.ofBits (w.extractLsb' 4 1)) (Acc.ofBits (w.extractLsb' 0 1)) ext)⟩,
  ⟨0xFFFFE0#24, 0x0C1A80#24, fun w _ => (ShiftSrc.ofBits (w.extractLsb' 1 3)).bind fun c => some (.extractuBy c (Acc.ofBits (w.extractLsb' 4 1)) (Acc.ofBits (w.extractLsb' 0 1)))⟩,
  ⟨0xFFFFEE#24, 0x0C1880#24, fun w ext => some (.extractuNum (Acc.ofBits (w.extractLsb' 4 1)) (Acc.ofBits (w.extractLsb' 0 1)) ext)⟩,
  ⟨0xFFFFFF#24, 0x000005#24, fun _ _ => some .illegal⟩,
  ⟨0xFFFFFE#24, 0x000008#24, fun w _ => some (.inc (Acc.ofBits (w.extractLsb' 0 1)))⟩]

/-- Rows of the non-parallel format, part 4. -/
def rows4 : List (Row 24 Instr) := [
  ⟨0xFFFF80#24, 0x0C1B00#24, fun w _ => (ShiftSrc.ofBits (w.extractLsb' 1 3)).bind fun c => (InsSrc.ofBits (w.extractLsb' 4 3)).bind fun s => some (.insertBy c s (Acc.ofBits (w.extractLsb' 0 1)))⟩,
  ⟨0xFFFF8E#24, 0x0C1900#24, fun w ext => (InsSrc.ofBits (w.extractLsb' 4 3)).bind fun s => some (.insertNum s (Acc.ofBits (w.extractLsb' 0 1)) ext)⟩,
  ⟨0xFF0000#24, 0x0E0000#24, fun w _ => some (.jccShort (Cond.ofBits (w.extractLsb' 12 4)) (w.extractLsb' 0 12))⟩,
  ⟨0xFFC0F0#24, 0x0AC0A0#24, fun w ext => (Ea.ofBits (w.extractLsb' 8 6) ext).bind fun ea => some (.jccEa (Cond.ofBits (w.extractLsb' 0 4)) ea)⟩,
  ⟨0xFFC0A0#24, 0x0A4080#24, fun w ext => (Ea.ofBits (w.extractLsb' 8 6) ext).bind fun ea => some (.jclrEa (w.extractLsb' 0 5) (Space.ofBits (w.extractLsb' 6 1)) ea ext)⟩,
  ⟨0xFFC0A0#24, 0x0A0080#24, fun w ext => some (.jclrAa (w.extractLsb' 0 5) (Space.ofBits (w.extractLsb' 6 1)) (w.extractLsb' 8 6) ext)⟩,
  ⟨0xFFC0A0#24, 0x0A8080#24, fun w ext => some (.jclrPp (w.extractLsb' 0 5) (Space.ofBits (w.extractLsb' 6 1)) (w.extractLsb' 8 6) ext)⟩,
  ⟨0xFFC0A0#24, 0x018080#24, fun w ext => some (.jclrQq (w.extractLsb' 0 5) (Space.ofBits (w.extractLsb' 6 1)) (w.extractLsb' 8 6) ext)⟩,
  ⟨0xFFC0E0#24, 0x0AC000#24, fun w ext => (Reg.ofBits (w.extractLsb' 8 6)).bind fun r => some (.jclrReg (w.extractLsb' 0 5) r ext)⟩,
  ⟨0xFFC0A0#24, 0x0A40A0#24, fun w ext => (Ea.ofBits (w.extractLsb' 8 6) ext).bind fun ea => some (.jsetEa (w.extractLsb' 0 5) (Space.ofBits (w.extractLsb' 6 1)) ea ext)⟩,
  ⟨0xFFC0A0#24, 0x0A00A0#24, fun w ext => some (.jsetAa (w.extractLsb' 0 5) (Space.ofBits (w.extractLsb' 6 1)) (w.extractLsb' 8 6) ext)⟩,
  ⟨0xFFC0A0#24, 0x0A80A0#24, fun w ext => some (.jsetPp (w.extractLsb' 0 5) (Space.ofBits (w.extractLsb' 6 1)) (w.extractLsb' 8 6) ext)⟩,
  ⟨0xFFC0A0#24, 0x0180A0#24, fun w ext => some (.jsetQq (w.extractLsb' 0 5) (Space.ofBits (w.extractLsb' 6 1)) (w.extractLsb' 8 6) ext)⟩,
  ⟨0xFFC0E0#24, 0x0AC020#24, fun w ext => (Reg.ofBits (w.extractLsb' 8 6)).bind fun r => some (.jsetReg (w.extractLsb' 0 5) r ext)⟩,
  ⟨0xFFC0A0#24, 0x0B4080#24, fun w ext => (Ea.ofBits (w.extractLsb' 8 6) ext).bind fun ea => some (.jsclrEa (w.extractLsb' 0 5) (Space.ofBits (w.extractLsb' 6 1)) ea ext)⟩,
  ⟨0xFFC0A0#24, 0x0B0080#24, fun w ext => some (.jsclrAa (w.extractLsb' 0 5) (Space.ofBits (w.extractLsb' 6 1)) (w.extractLsb' 8 6) ext)⟩,
  ⟨0xFFC0A0#24, 0x0B8080#24, fun w ext => some (.jsclrPp (w.extractLsb' 0 5) (Space.ofBits (w.extractLsb' 6 1)) (w.extractLsb' 8 6) ext)⟩,
  ⟨0xFFC0A0#24, 0x01C080#24, fun w ext => some (.jsclrQq (w.extractLsb' 0 5) (Space.ofBits (w.extractLsb' 6 1)) (w.extractLsb' 8 6) ext)⟩,
  ⟨0xFFC0E0#24, 0x0BC000#24, fun w ext => (Reg.ofBits (w.extractLsb' 8 6)).bind fun r => some (.jsclrReg (w.extractLsb' 0 5) r ext)⟩,
  ⟨0xFFC0A0#24, 0x0B40A0#24, fun w ext => (Ea.ofBits (w.extractLsb' 8 6) ext).bind fun ea => some (.jssetEa (w.extractLsb' 0 5) (Space.ofBits (w.extractLsb' 6 1)) ea ext)⟩,
  ⟨0xFFC0A0#24, 0x0B00A0#24, fun w ext => some (.jssetAa (w.extractLsb' 0 5) (Space.ofBits (w.extractLsb' 6 1)) (w.extractLsb' 8 6) ext)⟩,
  ⟨0xFFC0A0#24, 0x0B80A0#24, fun w ext => some (.jssetPp (w.extractLsb' 0 5) (Space.ofBits (w.extractLsb' 6 1)) (w.extractLsb' 8 6) ext)⟩,
  ⟨0xFFC0A0#24, 0x01C0A0#24, fun w ext => some (.jssetQq (w.extractLsb' 0 5) (Space.ofBits (w.extractLsb' 6 1)) (w.extractLsb' 8 6) ext)⟩,
  ⟨0xFFC0E0#24, 0x0BC020#24, fun w ext => (Reg.ofBits (w.extractLsb' 8 6)).bind fun r => some (.jssetReg (w.extractLsb' 0 5) r ext)⟩]

/-- Rows of the non-parallel format, part 5. -/
def rows5 : List (Row 24 Instr) := [
  ⟨0xFFF000#24, 0x0C0000#24, fun w _ => some (.jmpShort (w.extractLsb' 0 12))⟩,
  ⟨0xFFC0FF#24, 0x0AC080#24, fun w ext => (Ea.ofBits (w.extractLsb' 8 6) ext).bind fun ea => some (.jmpEa ea)⟩,
  ⟨0xFF0000#24, 0x0F0000#24, fun w _ => some (.jsccShort (Cond.ofBits (w.extractLsb' 12 4)) (w.extractLsb' 0 12))⟩,
  ⟨0xFFC0F0#24, 0x0BC0A0#24, fun w ext => (Ea.ofBits (w.extractLsb' 8 6) ext).bind fun ea => some (.jsccEa (Cond.ofBits (w.extractLsb' 0 4)) ea)⟩,
  ⟨0xFFF000#24, 0x0D0000#24, fun w _ => some (.jsrShort (w.extractLsb' 0 12))⟩,
  ⟨0xFFC0FF#24, 0x0BC080#24, fun w ext => (Ea.ofBits (w.extractLsb' 8 6) ext).bind fun ea => some (.jsrEa ea)⟩,
  ⟨0xFFF8E0#24, 0x04C000#24, fun w _ => (DReg.ofBits (w.extractLsb' 0 5)).bind fun d => some (.lraReg (fin8OfBits (w.extractLsb' 8 3)) d)⟩,
  ⟨0xFFFFE0#24, 0x044040#24, fun w ext => (DReg.ofBits (w.extractLsb' 0 5)).bind fun d => some (.lraLong d ext)⟩,
  ⟨0xFFFFC0#24, 0x0C1E80#24, fun w _ => some (.lslNum (w.extractLsb' 1 5) (Acc.ofBits (w.extractLsb' 0 1)))⟩,
  ⟨0xFFFFF0#24, 0x0C1E10#24, fun w _ => (ShiftSrc.ofBits (w.extractLsb' 1 3)).bind fun c => some (.lslBy c (Acc.ofBits (w.extractLsb' 0 1)))⟩,
  ⟨0xFFFFC0#24, 0x0C1EC0#24, fun w _ => some (.lsrNum (w.extractLsb' 1 5) (Acc.ofBits (w.extractLsb' 0 1)))⟩,
  ⟨0xFFFFF0#24, 0x0C1E30#24, fun w _ => (ShiftSrc.ofBits (w.extractLsb' 1 3)).bind fun c => some (.lsrBy c (Acc.ofBits (w.extractLsb' 0 1)))⟩,
  ⟨0xFFE0E0#24, 0x044000#24, fun w _ => (DReg.ofBits (w.extractLsb' 0 5)).bind fun d => some (.luaEa (UpdMode.ofBits (w.extractLsb' 11 2)) (fin8OfBits (w.extractLsb' 8 3)) d)⟩,
  ⟨0xFFC000#24, 0x040000#24, fun w _ => some (.luaDisp (w.extractLsb' 11 3 ++ w.extractLsb' 4 4) (fin8OfBits (w.extractLsb' 8 3)) (AguReg.ofBits (w.extractLsb' 0 4)))⟩,
  ⟨0xFFE0C3#24, 0x0100C2#24, fun w _ => some (.macNum (XYReg.ofQQ (w.extractLsb' 4 2)) (w.extractLsb' 8 5) (Acc.ofBits (w.extractLsb' 3 1)) (boolOfBits (w.extractLsb' 2 1)))⟩,
  ⟨0xFFFF80#24, 0x012680#24, fun w _ => some (.macSu (Sign1.ofBits (w.extractLsb' 6 1)) (MulOps.ofBits (w.extractLsb' 0 4)) (Acc.ofBits (w.extractLsb' 5 1)) (boolOfBits (w.extractLsb' 4 1)))⟩,
  ⟨0xFFFFC3#24, 0x0141C2#24, fun w ext => some (.maci (XYReg.ofJJ (w.extractLsb' 4 2)) (Acc.ofBits (w.extractLsb' 3 1)) (boolOfBits (w.extractLsb' 2 1)) ext)⟩,
  ⟨0xFFE0C3#24, 0x0100C3#24, fun w _ => some (.macrNum (XYReg.ofQQ (w.extractLsb' 4 2)) (w.extractLsb' 8 5) (Acc.ofBits (w.extractLsb' 3 1)) (boolOfBits (w.extractLsb' 2 1)))⟩,
  ⟨0xFFFFC3#24, 0x0141C3#24, fun w ext => some (.macri (XYReg.ofJJ (w.extractLsb' 4 2)) (Acc.ofBits (w.extractLsb' 3 1)) (boolOfBits (w.extractLsb' 2 1)) ext)⟩,
  ⟨0xFFFFF0#24, 0x0C1B80#24, fun w _ => (ShiftSrc.ofBits (w.extractLsb' 1 3)).bind fun s => some (.merge s (Acc.ofBits (w.extractLsb' 0 1)))⟩,
  ⟨0xFE00A0#24, 0x020080#24, fun w _ => (AluReg.ofBits (w.extractLsb' 0 4)).bind fun r => some (.moveXShort (w.extractLsb' 11 6 ++ w.extractLsb' 6 1) (fin8OfBits (w.extractLsb' 8 3)) (Dir.ofBits (w.extractLsb' 4 1)) r)⟩,
  ⟨0xFE00A0#24, 0x0200A0#24, fun w _ => (AluReg.ofBits (w.extractLsb' 0 4)).bind fun r => some (.moveYShort (w.extractLsb' 11 6 ++ w.extractLsb' 6 1) (fin8OfBits (w.extractLsb' 8 3)) (Dir.ofBits (w.extractLsb' 4 1)) r)⟩,
  ⟨0xFF40A0#24, 0x054020#24, fun w ext => (Ea.ofBits (w.extractLsb' 8 6) ext).bind fun ea => (CReg.ofBits (w.extractLsb' 0 5)).bind fun r => some (.movecEa (Dir.ofBits (w.extractLsb' 15 1)) (Space.ofBits (w.extractLsb' 6 1)) ea r)⟩,
  ⟨0xFF40A0#24, 0x050020#24, fun w _ => (CReg.ofBits (w.extractLsb' 0 5)).bind fun r => some (.movecAa (Dir.ofBits (w.extractLsb' 15 1)) (Space.ofBits (w.extractLsb' 6 1)) (w.extractLsb' 8 6) r)⟩]

/-- Rows of the non-parallel format, part 6. -/
def rows6 : List (Row 24 Instr) := [
  ⟨0xFF40E0#24, 0x0440A0#24, fun w _ => (Reg.ofBits (w.extractLsb' 8 6)).bind fun r2 => (CReg.ofBits (w.extractLsb' 0 5)).bind fun r => some (.movecReg (Dir.ofBits (w.extractLsb' 15 1)) r2 r)⟩,
  ⟨0xFF00E0#24, 0x0500A0#24, fun w _ => (CReg.ofBits (w.extractLsb' 0 5)).bind fun r => some (.movecImm (w.extractLsb' 8 8) r)⟩,
  ⟨0xFF40C0#24, 0x074080#24, fun w ext => (Ea.ofBits (w.extractLsb' 8 6) ext).bind fun ea => (Reg.ofBits (w.extractLsb' 0 6)).bind fun r => some (.movemEa (Dir.ofBits (w.extractLsb' 15 1)) ea r)⟩,
  ⟨0xFF40C0#24, 0x070000#24, fun w _ => (Reg.ofBits (w.extractLsb' 0 6)).bind fun r => some (.movemAa (Dir.ofBits (w.extractLsb' 15 1)) (w.extractLsb' 8 6) r)⟩,
  ⟨0xFE4080#24, 0x084080#24, fun w ext => (Ea.ofBits (w.extractLsb' 8 6) ext).bind fun ea => some (.movepPpEa (Space.ofBits (w.extractLsb' 16 1)) (Dir.ofBits (w.extractLsb' 15 1)) (Space.ofBits (w.extractLsb' 6 1)) ea (w.extractLsb' 0 6))⟩,
  ⟨0xFF4080#24, 0x074000#24, fun w ext => (Ea.ofBits (w.extractLsb' 8 6) ext).bind fun ea => some (.movepXqqEa (Dir.ofBits (w.extractLsb' 15 1)) (Space.ofBits (w.extractLsb' 6 1)) ea (w.extractLsb' 0 6))⟩,
  ⟨0xFF4080#24, 0x070080#24, fun w ext => (Ea.ofBits (w.extractLsb' 8 6) ext).bind fun ea => some (.movepYqqEa (Dir.ofBits (w.extractLsb' 15 1)) (Space.ofBits (w.extractLsb' 6 1)) ea (w.extractLsb' 0 6))⟩,
  ⟨0xFE40C0#24, 0x084040#24, fun w ext => (Ea.ofBits (w.extractLsb' 8 6) ext).bind fun ea => some (.movepPpP (Space.ofBits (w.extractLsb' 16 1)) (Dir.ofBits (w.extractLsb' 15 1)) ea (w.extractLsb' 0 6))⟩,
  ⟨0xFF8080#24, 0x008000#24, fun w ext => (Ea.ofBits (w.extractLsb' 8 6) ext).bind fun ea => some (.movepQqP (Dir.ofBits (w.extractLsb' 14 1)) ea (Space.ofBits (w.extractLsb' 6 1)) (w.extractLsb' 0 6))⟩,
  ⟨0xFE40C0#24, 0x084000#24, fun w _ => (Reg.ofBits (w.extractLsb' 8 6)).bind fun r => some (.movepPpReg (Space.ofBits (w.extractLsb' 16 1)) (Dir.ofBits (w.extractLsb' 15 1)) r (w.extractLsb' 0 6))⟩,
  ⟨0xFF40A0#24, 0x044080#24, fun w _ => (Reg.ofBits (w.extractLsb' 8 6)).bind fun r => some (.movepXqqReg (Dir.ofBits (w.extractLsb' 15 1)) r (w.extractLsb' 6 1 ++ w.extractLsb' 0 5))⟩,
  ⟨0xFF40A0#24, 0x044020#24, fun w _ => (Reg.ofBits (w.extractLsb' 8 6)).bind fun r => some (.movepYqqReg (Dir.ofBits (w.extractLsb' 15 1)) r (w.extractLsb' 6 1 ++ w.extractLsb' 0 5))⟩,
  ⟨0xFFE0C3#24, 0x0100C0#24, fun w _ => some (.mpyNum (XYReg.ofQQ (w.extractLsb' 4 2)) (w.extractLsb' 8 5) (Acc.ofBits (w.extractLsb' 3 1)) (boolOfBits (w.extractLsb' 2 1)))⟩,
  ⟨0xFFFF80#24, 0x012780#24, fun w _ => some (.mpySu (Sign1.ofBits (w.extractLsb' 6 1)) (MulOps.ofBits (w.extractLsb' 0 4)) (Acc.ofBits (w.extractLsb' 5 1)) (boolOfBits (w.extractLsb' 4 1)))⟩,
  ⟨0xFFFFC3#24, 0x0141C0#24, fun w ext => some (.mpyi (XYReg.ofJJ (w.extractLsb' 4 2)) (Acc.ofBits (w.extractLsb' 3 1)) (boolOfBits (w.extractLsb' 2 1)) ext)⟩,
  ⟨0xFFE0C3#24, 0x0100C1#24, fun w _ => some (.mpyrNum (XYReg.ofQQ (w.extractLsb' 4 2)) (w.extractLsb' 8 5) (Acc.ofBits (w.extractLsb' 3 1)) (boolOfBits (w.extractLsb' 2 1)))⟩,
  ⟨0xFFFFC3#24, 0x0141C1#24, fun w ext => some (.mpyri (XYReg.ofJJ (w.extractLsb' 4 2)) (Acc.ofBits (w.extractLsb' 3 1)) (boolOfBits (w.extractLsb' 2 1)) ext)⟩,
  ⟨0xFFFFFF#24, 0x000000#24, fun _ _ => some .nop⟩,
  ⟨0xFFF8F7#24, 0x01D815#24, fun w _ => some (.norm (fin8OfBits (w.extractLsb' 8 3)) (Acc.ofBits (w.extractLsb' 3 1)))⟩,
  ⟨0xFFFFF0#24, 0x0C1E20#24, fun w _ => (ShiftSrc.ofBits (w.extractLsb' 1 3)).bind fun s => some (.normf s (Acc.ofBits (w.extractLsb' 0 1)))⟩,
  ⟨0xFFC0F7#24, 0x014082#24, fun w _ => some (.orShort (w.extractLsb' 8 6) (Acc.ofBits (w.extractLsb' 3 1)))⟩,
  ⟨0xFFFFF7#24, 0x0140C2#24, fun w ext => some (.orImm (Acc.ofBits (w.extractLsb' 3 1)) ext)⟩,
  ⟨0xFF00FC#24, 0x0000F8#24, fun w _ => some (.ori (w.extractLsb' 8 8) (PcuByte.ofBits (w.extractLsb' 0 2)))⟩,
  ⟨0xFFFFFF#24, 0x000003#24, fun _ _ => some .pflush⟩]

/-- Rows of the non-parallel format, part 7. -/
def rows7 : List (Row 24 Instr) := [
  ⟨0xFFFFFF#24, 0x000001#24, fun _ _ => some .pflushun⟩,
  ⟨0xFFFFFF#24, 0x000002#24, fun _ _ => some .pfree⟩,
  ⟨0xFFC0FF#24, 0x0BC081#24, fun w ext => (Ea.ofBits (w.extractLsb' 8 6) ext).bind fun ea => some (.plock ea)⟩,
  ⟨0xFFFFFF#24, 0x00000F#24, fun _ ext => some (.plockr ext)⟩,
  ⟨0xFFC0FF#24, 0x0AC081#24, fun w ext => (Ea.ofBits (w.extractLsb' 8 6) ext).bind fun ea => some (.punlock ea)⟩,
  ⟨0xFFFFFF#24, 0x00000E#24, fun _ ext => some (.punlockr ext)⟩,
  ⟨0xFFFFFF#24, 0x000084#24, fun _ _ => some .reset⟩,
  ⟨0xFFFFFF#24, 0x000004#24, fun _ _ => some .rti⟩,
  ⟨0xFFFFFF#24, 0x00000C#24, fun _ _ => some .rts⟩,
  ⟨0xFFFFFF#24, 0x000087#24, fun _ _ => some .stop⟩,
  ⟨0xFFC0F7#24, 0x014084#24, fun w _ => some (.subShort (w.extractLsb' 8 6) (Acc.ofBits (w.extractLsb' 3 1)))⟩,
  ⟨0xFFFFF7#24, 0x0140C4#24, fun w ext => some (.subImm (Acc.ofBits (w.extractLsb' 3 1)) ext)⟩,
  ⟨0xFF0F87#24, 0x020000#24, fun w _ => (AccOrReg.ofBits (w.extractLsb' 4 3)).bind fun s1 => some (.tccD (Cond.ofBits (w.extractLsb' 12 4)) s1 (Acc.ofBits (w.extractLsb' 3 1)))⟩,
  ⟨0xFF0880#24, 0x030000#24, fun w _ => (AccOrReg.ofBits (w.extractLsb' 4 3)).bind fun s1 => some (.tccDR (Cond.ofBits (w.extractLsb' 12 4)) s1 (Acc.ofBits (w.extractLsb' 3 1)) (fin8OfBits (w.extractLsb' 8 3)) (fin8OfBits (w.extractLsb' 0 3)))⟩,
  ⟨0xFF08F8#24, 0x020800#24, fun w _ => some (.tccR (Cond.ofBits (w.extractLsb' 12 4)) (fin8OfBits (w.extractLsb' 8 3)) (fin8OfBits (w.extractLsb' 0 3)))⟩,
  ⟨0xFFFFFF#24, 0x000006#24, fun _ _ => some .trap⟩,
  ⟨0xFFFFF0#24, 0x000010#24, fun w _ => some (.trapcc (Cond.ofBits (w.extractLsb' 0 4)))⟩,
  ⟨0xFEC0EF#24, 0x0AC0C0#24, fun w ext => (Ea.ofBits (w.extractLsb' 8 6) ext).bind fun ea => some (.vsl (Acc.ofBits (w.extractLsb' 16 1)) (boolOfBits (w.extractLsb' 4 1)) ea)⟩,
  ⟨0xFFFFFF#24, 0x000086#24, fun _ _ => some .wait⟩]

/-- The non-parallel rows. The two long-displacement MOVE rows stand first: their patterns are the `MMM = 110` patterns
that the bit-test jumps exclude (R154, R163). -/
def nonparallelRows : List (Row 24 Instr) :=
  rows0 ++ rows1 ++ rows2 ++ rows3 ++ rows4 ++ rows5 ++ rows6 ++ rows7

/-- Why a word is no instruction (30_encoding R170): it matches no row, or a field holds a reserved code or a form the
row does not allow (R171). -/
inductive DecodeError | undefinedPattern | reservedField
deriving DecidableEq, Repr

/-- Decode the operation word `w`, with `ext` the word after it (R163): the non-parallel rows first. -/
def decode (w ext : Word) : Except DecodeError Instr :=
  match nonparallelRows.find? (Row.hit w) with
  | some r =>
    match r.build w ext with
    | some i => if i.wf then .ok i else .error .reservedField
    | none => .error .reservedField
  | none =>
    match decodeParallel w ext with
    | some i => if i.wf then .ok i else .error .reservedField
    | none => .error .undefinedPattern

/-- The instruction of a word numbered as spec/opcode_table.json numbers its bits: bits 23:0 the operation word, 47:24
the extension word; every bit from `nbits` on is 0. -/
def decodeTableWord (nbits w : Nat) : Option Instr :=
  let v := w % 2 ^ nbits
  match decode (BitVec.ofNat 24 v) (BitVec.ofNat 24 (v / 2 ^ 24)) with
  | .ok i => some i
  | .error _ => none

/-! ## The encoder, from the same patterns -/

/-- The operation word. -/
def Instr.opWord : Instr → Word
  | .moveParallel m => m.bits ++ 0x00#8
  | .tfrAcc d m => m.bits ++ AluOp.byte (.tfrAcc d)
  | .tfrReg s d m => m.bits ++ AluOp.byte (.tfrReg s d)
  | .addr d m => m.bits ++ AluOp.byte (.addr d)
  | .tst d m => m.bits ++ AluOp.byte (.tst d)
  | .cmpAcc d m => m.bits ++ AluOp.byte (.cmpAcc d)
  | .cmpReg s d m => m.bits ++ AluOp.byte (.cmpReg s d)
  | .subr d m => m.bits ++ AluOp.byte (.subr d)
  | .cmpmAcc d m => m.bits ++ AluOp.byte (.cmpmAcc d)
  | .cmpmReg s d m => m.bits ++ AluOp.byte (.cmpmReg s d)
  | .addAcc d m => m.bits ++ AluOp.byte (.addAcc d)
  | .addXY s d m => m.bits ++ AluOp.byte (.addXY s d)
  | .addReg s d m => m.bits ++ AluOp.byte (.addReg s d)
  | .rnd d m => m.bits ++ AluOp.byte (.rnd d)
  | .addl d m => m.bits ++ AluOp.byte (.addl d)
  | .clr d m => m.bits ++ AluOp.byte (.clr d)
  | .subAcc d m => m.bits ++ AluOp.byte (.subAcc d)
  | .subXY s d m => m.bits ++ AluOp.byte (.subXY s d)
  | .subReg s d m => m.bits ++ AluOp.byte (.subReg s d)
  | .maxm m => m.bits ++ AluOp.byte (.maxm)
  | .max m => m.bits ++ AluOp.byte (.max)
  | .subl d m => m.bits ++ AluOp.byte (.subl d)
  | .not d m => m.bits ++ AluOp.byte (.not d)
  | .adc s d m => m.bits ++ AluOp.byte (.adc s d)
  | .asr d m => m.bits ++ AluOp.byte (.asr d)
  | .lsr d m => m.bits ++ AluOp.byte (.lsr d)
  | .sbc s d m => m.bits ++ AluOp.byte (.sbc s d)
  | .abs d m => m.bits ++ AluOp.byte (.abs d)
  | .ror d m => m.bits ++ AluOp.byte (.ror d)
  | .asl d m => m.bits ++ AluOp.byte (.asl d)
  | .lsl d m => m.bits ++ AluOp.byte (.lsl d)
  | .neg d m => m.bits ++ AluOp.byte (.neg d)
  | .rol d m => m.bits ++ AluOp.byte (.rol d)
  | .or s d m => m.bits ++ AluOp.byte (.or s d)
  | .eor s d m => m.bits ++ AluOp.byte (.eor s d)
  | .and s d m => m.bits ++ AluOp.byte (.and s d)
  | .mpy q d minus m => m.bits ++ AluOp.byte (.mpy q d minus)
  | .mpyr q d minus m => m.bits ++ AluOp.byte (.mpyr q d minus)
  | .mac q d minus m => m.bits ++ AluOp.byte (.mac q d minus)
  | .macr q d minus m => m.bits ++ AluOp.byte (.macr q d minus)
  | .reservedA d m => m.bits ++ 0b0000#4 ++ d.bits ++ 0b100#3
  | .reservedB m => m.bits ++ 0x08#8
  | .moveImm i d => PMove.bits (.imm i d) ++ 0x00#8
  | .moveReg s d => PMove.bits (.reg s d) ++ 0x00#8
  | .moveUpd u rn => PMove.bits (.upd u rn) ++ 0x00#8
  | .ifcc c op => 0b001000000010#12 ++ c.bits ++ op.byte
  | .ifccU c op => 0b001000000011#12 ++ c.bits ++ op.byte
  | .moveXEa d w ea => PMove.bits (.xEa d w ea) ++ 0x00#8
  | .moveXAa d w aa => PMove.bits (.xAa d w aa) ++ 0x00#8
  | .moveYEa d w ea => PMove.bits (.yEa d w ea) ++ 0x00#8
  | .moveYAa d w aa => PMove.bits (.yAa d w aa) ++ 0x00#8
  | .moveXR1 xs s2 d2 w ea => PMove.bits (.xr1 xs s2 d2 w ea) ++ 0x00#8
  | .moveXR2 d ea => PMove.bits (.xr2 d ea) ++ 0x00#8
  | .moveRY1 s1 d1 ys w ea => PMove.bits (.ry1 s1 d1 ys w ea) ++ 0x00#8
  | .moveRY2 d ea => PMove.bits (.ry2 d ea) ++ 0x00#8
  | .moveLEa l w ea => PMove.bits (.lEa l w ea) ++ 0x00#8
  | .moveLAa l w aa => PMove.bits (.lAa l w aa) ++ 0x00#8
  | .moveXY yw ym xs ys xw yn xm xn => PMove.bits (.xy yw ym xs ys xw yn xm xn) ++ 0x00#8
  | .addShort i d => 0b0000000101#10 ++ i ++ 0b1000#4 ++ Acc.bits d ++ 0b000#3
  | .addImm d _ => 0b00000001010000001100#20 ++ Acc.bits d ++ 0b000#3
  | .andShort i d => 0b0000000101#10 ++ i ++ 0b1000#4 ++ Acc.bits d ++ 0b110#3
  | .andImm d _ => 0b00000001010000001100#20 ++ Acc.bits d ++ 0b110#3
  | .andi i e => 0b00000000#8 ++ i ++ 0b101110#6 ++ PcuByte.bits e
  | .aslNum i s d => 0b0000110000011101#16 ++ Acc.bits s ++ i ++ Acc.bits d
  | .aslBy c s d => 0b0000110000011110010#19 ++ Acc.bits s ++ ShiftSrc.bits c ++ Acc.bits d
  | .asrNum i s d => 0b0000110000011100#16 ++ Acc.bits s ++ i ++ Acc.bits d
  | .asrBy c s d => 0b0000110000011110011#19 ++ Acc.bits s ++ ShiftSrc.bits c ++ Acc.bits d
  | .bccLong c _ => 0b00001101000100000100#20 ++ Cond.bits c
  | .bccShort c disp => 0b00000101#8 ++ Cond.bits c ++ 0b01#2 ++ disp.extractLsb' 5 4 ++ 0b0#1 ++ disp.extractLsb' 0 5
  | .bccReg c rn => 0b0000110100011#13 ++ fin8Bits rn ++ 0b0100#4 ++ Cond.bits c
  | .bchgEa n sp ea => 0b0000101101#10 ++ Ea.bits ea ++ 0b0#1 ++ Space.bits sp ++ 0b0#1 ++ n
  | .bchgAa n sp aa => 0b0000101100#10 ++ aa ++ 0b0#1 ++ Space.bits sp ++ 0b0#1 ++ n
  | .bchgPp n sp pp => 0b0000101110#10 ++ pp ++ 0b0#1 ++ Space.bits sp ++ 0b0#1 ++ n
  | .bchgQq n sp qq => 0b0000000101#10 ++ qq ++ 0b0#1 ++ Space.bits sp ++ 0b0#1 ++ n
  | .bchgReg n r => 0b0000101111#10 ++ Reg.bits r ++ 0b010#3 ++ n
  | .bclrEa n sp ea => 0b0000101001#10 ++ Ea.bits ea ++ 0b0#1 ++ Space.bits sp ++ 0b0#1 ++ n
  | .bclrAa n sp aa => 0b0000101000#10 ++ aa ++ 0b0#1 ++ Space.bits sp ++ 0b0#1 ++ n
  | .bclrPp n sp pp => 0b0000101010#10 ++ pp ++ 0b0#1 ++ Space.bits sp ++ 0b0#1 ++ n
  | .bclrQq n sp qq => 0b0000000100#10 ++ qq ++ 0b0#1 ++ Space.bits sp ++ 0b0#1 ++ n
  | .bclrReg n r => 0b0000101011#10 ++ Reg.bits r ++ 0b010#3 ++ n
  | .bsetEa n sp ea => 0b0000101001#10 ++ Ea.bits ea ++ 0b0#1 ++ Space.bits sp ++ 0b1#1 ++ n
  | .bsetAa n sp aa => 0b0000101000#10 ++ aa ++ 0b0#1 ++ Space.bits sp ++ 0b1#1 ++ n
  | .bsetPp n sp pp => 0b0000101010#10 ++ pp ++ 0b0#1 ++ Space.bits sp ++ 0b1#1 ++ n
  | .bsetQq n sp qq => 0b0000000100#10 ++ qq ++ 0b0#1 ++ Space.bits sp ++ 0b1#1 ++ n
  | .bsetReg n r => 0b0000101011#10 ++ Reg.bits r ++ 0b011#3 ++ n
  | .btstEa n sp ea => 0b0000101101#10 ++ Ea.bits ea ++ 0b0#1 ++ Space.bits sp ++ 0b1#1 ++ n
  | .btstAa n sp aa => 0b0000101100#10 ++ aa ++ 0b0#1 ++ Space.bits sp ++ 0b1#1 ++ n
  | .btstPp n sp pp => 0b0000101110#10 ++ pp ++ 0b0#1 ++ Space.bits sp ++ 0b1#1 ++ n
  | .btstQq n sp qq => 0b0000000101#10 ++ qq ++ 0b0#1 ++ Space.bits sp ++ 0b1#1 ++ n
  | .btstReg n r => 0b0000101111#10 ++ Reg.bits r ++ 0b011#3 ++ n
  | .braLong _ => 0b000011010001000011000000#24
  | .braShort disp => 0b00000101000011#14 ++ disp.extractLsb' 5 4 ++ 0b0#1 ++ disp.extractLsb' 0 5
  | .braReg rn => 0b0000110100011#13 ++ fin8Bits rn ++ 0b11000000#8
  | .brclrEa n sp ea _ => 0b0000110010#10 ++ Ea.bits ea ++ 0b0#1 ++ Space.bits sp ++ 0b0#1 ++ n
  | .brclrAa n sp aa _ => 0b0000110010#10 ++ aa ++ 0b1#1 ++ Space.bits sp ++ 0b0#1 ++ n
  | .brclrPp n sp pp _ => 0b0000110011#10 ++ pp ++ 0b0#1 ++ Space.bits sp ++ 0b0#1 ++ n
  | .brclrQq n sp qq _ => 0b0000010010#10 ++ qq ++ 0b0#1 ++ Space.bits sp ++ 0b0#1 ++ n
  | .brclrReg n r _ => 0b0000110011#10 ++ Reg.bits r ++ 0b100#3 ++ n
  | .brsetEa n sp ea _ => 0b0000110010#10 ++ Ea.bits ea ++ 0b0#1 ++ Space.bits sp ++ 0b1#1 ++ n
  | .brsetAa n sp aa _ => 0b0000110010#10 ++ aa ++ 0b1#1 ++ Space.bits sp ++ 0b1#1 ++ n
  | .brsetPp n sp pp _ => 0b0000110011#10 ++ pp ++ 0b0#1 ++ Space.bits sp ++ 0b1#1 ++ n
  | .brsetQq n sp qq _ => 0b0000010010#10 ++ qq ++ 0b0#1 ++ Space.bits sp ++ 0b1#1 ++ n
  | .brsetReg n r _ => 0b0000110011#10 ++ Reg.bits r ++ 0b101#3 ++ n
  | .bsclrEa n sp ea _ => 0b0000110110#10 ++ Ea.bits ea ++ 0b0#1 ++ Space.bits sp ++ 0b0#1 ++ n
  | .bsclrAa n sp aa _ => 0b0000110110#10 ++ aa ++ 0b1#1 ++ Space.bits sp ++ 0b0#1 ++ n
  | .bsclrPp n sp pp _ => 0b0000110111#10 ++ pp ++ 0b0#1 ++ Space.bits sp ++ 0b0#1 ++ n
  | .bsclrQq n sp qq _ => 0b0000010010#10 ++ qq ++ 0b1#1 ++ Space.bits sp ++ 0b0#1 ++ n
  | .bsclrReg n r _ => 0b0000110111#10 ++ Reg.bits r ++ 0b100#3 ++ n
  | .bssetEa n sp ea _ => 0b0000110110#10 ++ Ea.bits ea ++ 0b0#1 ++ Space.bits sp ++ 0b1#1 ++ n
  | .bssetAa n sp aa _ => 0b0000110110#10 ++ aa ++ 0b1#1 ++ Space.bits sp ++ 0b1#1 ++ n
  | .bssetPp n sp pp _ => 0b0000110111#10 ++ pp ++ 0b0#1 ++ Space.bits sp ++ 0b1#1 ++ n
  | .bssetQq n sp qq _ => 0b0000010010#10 ++ qq ++ 0b1#1 ++ Space.bits sp ++ 0b1#1 ++ n
  | .bssetReg n r _ => 0b0000110111#10 ++ Reg.bits r ++ 0b101#3 ++ n
  | .brkcc c => 0b00000000000000100001#20 ++ Cond.bits c
  | .bsccLong c _ => 0b00001101000100000000#20 ++ Cond.bits c
  | .bsccShort c disp => 0b00000101#8 ++ Cond.bits c ++ 0b00#2 ++ disp.extractLsb' 5 4 ++ 0b0#1 ++ disp.extractLsb' 0 5
  | .bsccReg c rn => 0b0000110100011#13 ++ fin8Bits rn ++ 0b0000#4 ++ Cond.bits c
  | .bsrLong _ => 0b000011010001000010000000#24
  | .bsrShort disp => 0b00000101000010#14 ++ disp.extractLsb' 5 4 ++ 0b0#1 ++ disp.extractLsb' 0 5
  | .bsrReg rn => 0b0000110100011#13 ++ fin8Bits rn ++ 0b10000000#8
  | .clb s d => 0b0000110000011110000000#22 ++ Acc.bits s ++ Acc.bits d
  | .cmpShort i d => 0b0000000101#10 ++ i ++ 0b1000#4 ++ Acc.bits d ++ 0b101#3
  | .cmpImm d _ => 0b00000001010000001100#20 ++ Acc.bits d ++ 0b101#3
  | .cmpu g d => 0b00001100000111111111#20 ++ AccOrReg.bits g ++ Acc.bits d
  | .debugcc c => 0b00000000000000110000#20 ++ Cond.bits c
  | .dec d => 0b00000000000000000000101#23 ++ Acc.bits d
  | .div s d => 0b000000011000000001#18 ++ XYReg.jj s ++ Acc.bits d ++ 0b000#3
  | .dmac sg q d minus => 0b000000010010010#15 ++ (Sign2.bits sg).extractLsb' 1 1 ++ 0b1#1 ++ (Sign2.bits sg).extractLsb' 0 1 ++ Acc.bits d ++ boolBits minus ++ MulOps.bits q
  | .doEa sp ea _ => 0b0000011001#10 ++ Ea.bits ea ++ 0b0#1 ++ Space.bits sp ++ 0b000000#6
  | .doAa sp aa _ => 0b0000011000#10 ++ aa ++ 0b0#1 ++ Space.bits sp ++ 0b000000#6
  | .doNum cnt _ => 0b00000110#8 ++ cnt.extractLsb' 0 8 ++ 0b1000#4 ++ cnt.extractLsb' 8 4
  | .doReg r _ => 0b0000011011#10 ++ Reg.bits r ++ 0b00000000#8
  | .dorEa sp ea _ => 0b0000011001#10 ++ Ea.bits ea ++ 0b0#1 ++ Space.bits sp ++ 0b010000#6
  | .dorAa sp aa _ => 0b0000011000#10 ++ aa ++ 0b0#1 ++ Space.bits sp ++ 0b010000#6
  | .dorNum cnt _ => 0b00000110#8 ++ cnt.extractLsb' 0 8 ++ 0b1001#4 ++ cnt.extractLsb' 8 4
  | .dorReg r _ => 0b0000011011#10 ++ Reg.bits r ++ 0b00010000#8
  | .repEa sp ea => 0b0000011001#10 ++ Ea.bits ea ++ 0b0#1 ++ Space.bits sp ++ 0b100000#6
  | .repAa sp aa => 0b0000011000#10 ++ aa ++ 0b0#1 ++ Space.bits sp ++ 0b100000#6
  | .repNum cnt => 0b00000110#8 ++ cnt.extractLsb' 0 8 ++ 0b1010#4 ++ cnt.extractLsb' 8 4
  | .repReg r => 0b0000011011#10 ++ Reg.bits r ++ 0b00100000#8
  | .doForever _ => 0b000000000000001000000011#24
  | .dorForever _ => 0b000000000000001000000010#24
  | .eorShort i d => 0b0000000101#10 ++ i ++ 0b1000#4 ++ Acc.bits d ++ 0b011#3
  | .eorImm d _ => 0b00000001010000001100#20 ++ Acc.bits d ++ 0b011#3
  | .extractBy c s d => 0b0000110000011010000#19 ++ Acc.bits s ++ ShiftSrc.bits c ++ Acc.bits d
  | .extractNum s d _ => 0b0000110000011000000#19 ++ Acc.bits s ++ 0b000#3 ++ Acc.bits d
  | .extractuBy c s d => 0b0000110000011010100#19 ++ Acc.bits s ++ ShiftSrc.bits c ++ Acc.bits d
  | .extractuNum s d _ => 0b0000110000011000100#19 ++ Acc.bits s ++ 0b000#3 ++ Acc.bits d
  | .inc d => 0b00000000000000000000100#23 ++ Acc.bits d
  | .insertBy c s d => 0b00001100000110110#17 ++ InsSrc.bits s ++ ShiftSrc.bits c ++ Acc.bits d
  | .insertNum s d _ => 0b00001100000110010#17 ++ InsSrc.bits s ++ 0b000#3 ++ Acc.bits d
  | .jccShort c a => 0b00001110#8 ++ Cond.bits c ++ a
  | .jccEa c ea => 0b0000101011#10 ++ Ea.bits ea ++ 0b1010#4 ++ Cond.bits c
  | .jclrEa n sp ea _ => 0b0000101001#10 ++ Ea.bits ea ++ 0b1#1 ++ Space.bits sp ++ 0b0#1 ++ n
  | .jclrAa n sp aa _ => 0b0000101000#10 ++ aa ++ 0b1#1 ++ Space.bits sp ++ 0b0#1 ++ n
  | .jclrPp n sp pp _ => 0b0000101010#10 ++ pp ++ 0b1#1 ++ Space.bits sp ++ 0b0#1 ++ n
  | .jclrQq n sp qq _ => 0b0000000110#10 ++ qq ++ 0b1#1 ++ Space.bits sp ++ 0b0#1 ++ n
  | .jclrReg n r _ => 0b0000101011#10 ++ Reg.bits r ++ 0b000#3 ++ n
  | .jsetEa n sp ea _ => 0b0000101001#10 ++ Ea.bits ea ++ 0b1#1 ++ Space.bits sp ++ 0b1#1 ++ n
  | .jsetAa n sp aa _ => 0b0000101000#10 ++ aa ++ 0b1#1 ++ Space.bits sp ++ 0b1#1 ++ n
  | .jsetPp n sp pp _ => 0b0000101010#10 ++ pp ++ 0b1#1 ++ Space.bits sp ++ 0b1#1 ++ n
  | .jsetQq n sp qq _ => 0b0000000110#10 ++ qq ++ 0b1#1 ++ Space.bits sp ++ 0b1#1 ++ n
  | .jsetReg n r _ => 0b0000101011#10 ++ Reg.bits r ++ 0b001#3 ++ n
  | .jsclrEa n sp ea _ => 0b0000101101#10 ++ Ea.bits ea ++ 0b1#1 ++ Space.bits sp ++ 0b0#1 ++ n
  | .jsclrAa n sp aa _ => 0b0000101100#10 ++ aa ++ 0b1#1 ++ Space.bits sp ++ 0b0#1 ++ n
  | .jsclrPp n sp pp _ => 0b0000101110#10 ++ pp ++ 0b1#1 ++ Space.bits sp ++ 0b0#1 ++ n
  | .jsclrQq n sp qq _ => 0b0000000111#10 ++ qq ++ 0b1#1 ++ Space.bits sp ++ 0b0#1 ++ n
  | .jsclrReg n r _ => 0b0000101111#10 ++ Reg.bits r ++ 0b000#3 ++ n
  | .jssetEa n sp ea _ => 0b0000101101#10 ++ Ea.bits ea ++ 0b1#1 ++ Space.bits sp ++ 0b1#1 ++ n
  | .jssetAa n sp aa _ => 0b0000101100#10 ++ aa ++ 0b1#1 ++ Space.bits sp ++ 0b1#1 ++ n
  | .jssetPp n sp pp _ => 0b0000101110#10 ++ pp ++ 0b1#1 ++ Space.bits sp ++ 0b1#1 ++ n
  | .jssetQq n sp qq _ => 0b0000000111#10 ++ qq ++ 0b1#1 ++ Space.bits sp ++ 0b1#1 ++ n
  | .jssetReg n r _ => 0b0000101111#10 ++ Reg.bits r ++ 0b001#3 ++ n
  | .jmpShort a => 0b000011000000#12 ++ a
  | .jmpEa ea => 0b0000101011#10 ++ Ea.bits ea ++ 0b10000000#8
  | .jsccShort c a => 0b00001111#8 ++ Cond.bits c ++ a
  | .jsccEa c ea => 0b0000101111#10 ++ Ea.bits ea ++ 0b1010#4 ++ Cond.bits c
  | .jsrShort a => 0b000011010000#12 ++ a
  | .jsrEa ea => 0b0000101111#10 ++ Ea.bits ea ++ 0b10000000#8
  | .lraReg rn d => 0b0000010011000#13 ++ fin8Bits rn ++ 0b000#3 ++ DReg.bits d
  | .lraLong d _ => 0b0000010001000000010#19 ++ DReg.bits d
  | .lslNum i d => 0b000011000001111010#18 ++ i ++ Acc.bits d
  | .lslBy c d => 0b00001100000111100001#20 ++ ShiftSrc.bits c ++ Acc.bits d
  | .lsrNum i d => 0b000011000001111011#18 ++ i ++ Acc.bits d
  | .lsrBy c d => 0b00001100000111100011#20 ++ ShiftSrc.bits c ++ Acc.bits d
  | .luaEa u rn d => 0b00000100010#11 ++ UpdMode.bits u ++ fin8Bits rn ++ 0b000#3 ++ DReg.bits d
  | .luaDisp disp rn d => 0b0000010000#10 ++ disp.extractLsb' 4 3 ++ fin8Bits rn ++ disp.extractLsb' 0 4 ++ AguReg.bits d
  | .macNum s n d minus => 0b00000001000#11 ++ n ++ 0b11#2 ++ XYReg.qq s ++ Acc.bits d ++ boolBits minus ++ 0b10#2
  | .macSu sg q d minus => 0b00000001001001101#17 ++ Sign1.bits sg ++ Acc.bits d ++ boolBits minus ++ MulOps.bits q
  | .maci s d minus _ => 0b000000010100000111#18 ++ XYReg.jj s ++ Acc.bits d ++ boolBits minus ++ 0b10#2
  | .macrNum s n d minus => 0b00000001000#11 ++ n ++ 0b11#2 ++ XYReg.qq s ++ Acc.bits d ++ boolBits minus ++ 0b11#2
  | .macri s d minus _ => 0b000000010100000111#18 ++ XYReg.jj s ++ Acc.bits d ++ boolBits minus ++ 0b11#2
  | .merge s d => 0b00001100000110111000#20 ++ ShiftSrc.bits s ++ Acc.bits d
  | .moveXLong rn w r _ => 0b0000101001110#13 ++ fin8Bits rn ++ 0b1#1 ++ Dir.bits w ++ Reg.bits r
  | .moveYLong rn w r _ => 0b0000101101110#13 ++ fin8Bits rn ++ 0b1#1 ++ Dir.bits w ++ Reg.bits r
  | .moveXShort disp rn w r => 0b0000001#7 ++ disp.extractLsb' 1 6 ++ fin8Bits rn ++ 0b1#1 ++ disp.extractLsb' 0 1 ++ 0b0#1 ++ Dir.bits w ++ AluReg.bits r
  | .moveYShort disp rn w r => 0b0000001#7 ++ disp.extractLsb' 1 6 ++ fin8Bits rn ++ 0b1#1 ++ disp.extractLsb' 0 1 ++ 0b1#1 ++ Dir.bits w ++ AluReg.bits r
  | .movecEa w sp ea r => 0b00000101#8 ++ Dir.bits w ++ 0b1#1 ++ Ea.bits ea ++ 0b0#1 ++ Space.bits sp ++ 0b1#1 ++ CReg.bits r
  | .movecAa w sp aa r => 0b00000101#8 ++ Dir.bits w ++ 0b0#1 ++ aa ++ 0b0#1 ++ Space.bits sp ++ 0b1#1 ++ CReg.bits r
  | .movecReg w r2 r => 0b00000100#8 ++ Dir.bits w ++ 0b1#1 ++ Reg.bits r2 ++ 0b101#3 ++ CReg.bits r
  | .movecImm i r => 0b00000101#8 ++ i ++ 0b101#3 ++ CReg.bits r
  | .movemEa w ea r => 0b00000111#8 ++ Dir.bits w ++ 0b1#1 ++ Ea.bits ea ++ 0b10#2 ++ Reg.bits r
  | .movemAa w aa r => 0b00000111#8 ++ Dir.bits w ++ 0b0#1 ++ aa ++ 0b00#2 ++ Reg.bits r
  | .movepPpEa ps w sp ea pp => 0b0000100#7 ++ Space.bits ps ++ Dir.bits w ++ 0b1#1 ++ Ea.bits ea ++ 0b1#1 ++ Space.bits sp ++ pp
  | .movepXqqEa w sp ea qq => 0b00000111#8 ++ Dir.bits w ++ 0b1#1 ++ Ea.bits ea ++ 0b0#1 ++ Space.bits sp ++ qq
  | .movepYqqEa w sp ea qq => 0b00000111#8 ++ Dir.bits w ++ 0b0#1 ++ Ea.bits ea ++ 0b1#1 ++ Space.bits sp ++ qq
  | .movepPpP ps w ea pp => 0b0000100#7 ++ Space.bits ps ++ Dir.bits w ++ 0b1#1 ++ Ea.bits ea ++ 0b01#2 ++ pp
  | .movepQqP w ea ps qq => 0b000000001#9 ++ Dir.bits w ++ Ea.bits ea ++ 0b0#1 ++ Space.bits ps ++ qq
  | .movepPpReg ps w r pp => 0b0000100#7 ++ Space.bits ps ++ Dir.bits w ++ 0b1#1 ++ Reg.bits r ++ 0b00#2 ++ pp
  | .movepXqqReg w r qq => 0b00000100#8 ++ Dir.bits w ++ 0b1#1 ++ Reg.bits r ++ 0b1#1 ++ qq.extractLsb' 5 1 ++ 0b0#1 ++ qq.extractLsb' 0 5
  | .movepYqqReg w r qq => 0b00000100#8 ++ Dir.bits w ++ 0b1#1 ++ Reg.bits r ++ 0b0#1 ++ qq.extractLsb' 5 1 ++ 0b1#1 ++ qq.extractLsb' 0 5
  | .mpyNum s n d minus => 0b00000001000#11 ++ n ++ 0b11#2 ++ XYReg.qq s ++ Acc.bits d ++ boolBits minus ++ 0b00#2
  | .mpySu sg q d minus => 0b00000001001001111#17 ++ Sign1.bits sg ++ Acc.bits d ++ boolBits minus ++ MulOps.bits q
  | .mpyi s d minus _ => 0b000000010100000111#18 ++ XYReg.jj s ++ Acc.bits d ++ boolBits minus ++ 0b00#2
  | .mpyrNum s n d minus => 0b00000001000#11 ++ n ++ 0b11#2 ++ XYReg.qq s ++ Acc.bits d ++ boolBits minus ++ 0b01#2
  | .mpyri s d minus _ => 0b000000010100000111#18 ++ XYReg.jj s ++ Acc.bits d ++ boolBits minus ++ 0b01#2
  | .norm rn d => 0b0000000111011#13 ++ fin8Bits rn ++ 0b0001#4 ++ Acc.bits d ++ 0b101#3
  | .normf s d => 0b00001100000111100010#20 ++ ShiftSrc.bits s ++ Acc.bits d
  | .orShort i d => 0b0000000101#10 ++ i ++ 0b1000#4 ++ Acc.bits d ++ 0b010#3
  | .orImm d _ => 0b00000001010000001100#20 ++ Acc.bits d ++ 0b010#3
  | .ori i e => 0b00000000#8 ++ i ++ 0b111110#6 ++ PcuByte.bits e
  | .plock ea => 0b0000101111#10 ++ Ea.bits ea ++ 0b10000001#8
  | .plockr _ => 0b000000000000000000001111#24
  | .punlock ea => 0b0000101011#10 ++ Ea.bits ea ++ 0b10000001#8
  | .punlockr _ => 0b000000000000000000001110#24
  | .subShort i d => 0b0000000101#10 ++ i ++ 0b1000#4 ++ Acc.bits d ++ 0b100#3
  | .subImm d _ => 0b00000001010000001100#20 ++ Acc.bits d ++ 0b100#3
  | .tccD c s1 d => 0b00000010#8 ++ Cond.bits c ++ 0b00000#5 ++ AccOrReg.bits s1 ++ Acc.bits d ++ 0b000#3
  | .tccDR c s1 d t u => 0b00000011#8 ++ Cond.bits c ++ 0b0#1 ++ fin8Bits t ++ 0b0#1 ++ AccOrReg.bits s1 ++ Acc.bits d ++ fin8Bits u
  | .tccR c t u => 0b00000010#8 ++ Cond.bits c ++ 0b1#1 ++ fin8Bits t ++ 0b00000#5 ++ fin8Bits u
  | .trapcc c => 0b00000000000000000001#20 ++ Cond.bits c
  | .vsl s i ea => 0b0000101#7 ++ Acc.bits s ++ 0b11#2 ++ Ea.bits ea ++ 0b110#3 ++ boolBits i ++ 0b0000#4
  | .moveNone => PMove.bits (.none) ++ 0x00#8
  | .debug => 0b000000000000001000000000#24
  | .enddo => 0b000000000000000010001100#24
  | .illegal => 0b000000000000000000000101#24
  | .nop => 0b000000000000000000000000#24
  | .pflush => 0b000000000000000000000011#24
  | .pflushun => 0b000000000000000000000001#24
  | .pfree => 0b000000000000000000000010#24
  | .reset => 0b000000000000000010000100#24
  | .rti => 0b000000000000000000000100#24
  | .rts => 0b000000000000000000001100#24
  | .stop => 0b000000000000000010000111#24
  | .trap => 0b000000000000000000000110#24
  | .wait => 0b000000000000000010000110#24

/-- The words of an instruction, the operation word first (R150). -/
def encode (i : Instr) : List Word := i.opWord :: i.extWords

end Sys2Proof
end

