-- ==== Sys2Proof/Config.lean ====
section
/-!
DEFINITION. What a chip of the family fixes (00_scope R9, 92_eei_decisions D20 to D30), and the free values: constants
without a body, of which nothing can be proved but that they are what they are.
-/
namespace Sys2Proof

/-- Where a free value is drawn (log 4): each constructor is one value the spec leaves open, with its item of
93_implementation_defined. -/
inductive FreeSite
  | scaleRead        -- U11: an accumulator read with S1:S0 = 11
  | scaleReadS       -- U11: the S bit of that read
  | scaleReadL       -- U11: the L bit of that read
  | roundScale       -- U11: a rounding with S1:S0 = 11
  | flagE            -- U11: E with S1:S0 = 11
  | flagU            -- U11: U with S1:S0 = 11
  | updX             -- U12, U13, 20_memory R124: an address update or address the spec leaves open (first address)
  | updY             -- the same, second address of an X:Y: move
  | saBus            -- U37: bus bits of a register read in Sixteen-bit Arithmetic mode that the spec leaves open
  | dupA             -- U5: A written twice in one instruction
  | dupB             -- U5: B written twice
  | shiftResult      -- U30, U31: the result of a shift by too much
  | shiftC           -- U30, U31: its C
  | shiftV           -- U30: its V
  | bitField         -- U32, U33: EXTRACT, EXTRACTU, INSERT out of range
  | normf            -- U34: NORMF out of range
  | normfV           -- U34: its V
  | saImmediate      -- U35: an immediate operand in Sixteen-bit Arithmetic mode
  | absentX          -- U40, U46, U52: a read of X memory that nothing answers
  | absentY          -- U40, U52: a read of Y memory that nothing answers
  | absentP          -- U40: a read of P memory that nothing answers
  | yHalfDiscarded   -- U42: the Y half of an X:Y: load from two internal I/O addresses
  | cacheRam         -- U21: program RAM that was cache
  | packedUpper      -- U51: upper bits of a byte-packed location
  | maskWindow       -- 60_exceptions R578: old or new interrupt mask
  | dmaTurn          -- 62_devices R709: a step of the DMA before the next one of the core?
  | lateAccess       -- 20_memory R140, U41: where the accesses of other masters fall between those of an instruction
  | repInterlock     -- U43: the last datum moved under a Data ALU interlock in a REP
  | lateStatus       -- U45: the old or the new value of a status bit, the written or the true one of a read-only register
  | doneFlag         -- 62_devices R711: is DTD set, and the interrupt latched, where DE stays set?
  | dmaChannel       -- 62_devices R710: channel 0 for the active one in DSTR?
  | debugLatch       -- 61_debug R641, R642: a debug register whose content the spec leaves open
deriving DecidableEq, Repr

/-- The free values: one unconstrained number for each place and each occurrence (`State.ctl.freeCtr`). -/
opaque Config.free : FreeSite → Nat → BitVec 64

namespace Config

/-! ## Parameters a run from reset needs: a value named in log 2 -/

/-- The levels of the pins MODD..MODA as the core leaves Reset (DESIGN CHOICE, log 2). -/
def modePins : BitVec 4 := 0b0000#4

/-- `RESET_VECTOR` (20_memory R105, D22): a typical value of Table 11-2 for each mode (DESIGN CHOICE, log 2). -/
def resetVector (mode : BitVec 4) : Word :=
  if mode = 0b0000#4 then 0x000000#24 else if mode = 0b1000#4 then 0x004000#24 else 0xFF0000#24

/-- `PCTL_RESET` (62_devices R672, D28): all dividers and the multiplier 1, PEN from PINIT = 0 (DESIGN CHOICE, log 2). -/
def pctlReset : Word := 0x000000#24

/-! ## Parameters left open -/

/-- `HAS_ATE` (D25). -/
opaque hasAte : Bool
/-- `HAS_PEN` (D25). -/
opaque hasPen : Bool
/-- `HAS_MSW` (D25). -/
opaque hasMsw : Bool
/-- `HAS_APD` (D25). -/
opaque hasApd : Bool
/-- `HAS_DRAM_CTRL` (D24). -/
opaque hasDramCtrl : Bool
/-- Does the device have BCR[BLH]? "Not all devices in the DSP56300 family support this bit" (62_devices R684). -/
opaque hasBlh : Bool

/-- `P_RAM_SIZE`, `X_RAM_SIZE`, `Y_RAM_SIZE` under `MEM_SWITCH` (D20, D26): words of internal RAM from address 0, as a
function of OMR[MS] and OMR[MSW]; internal RAM reaches to $00FFFF at most (20_memory R104). -/
opaque pRamSize : Bool → BitVec 2 → Fin 65537
@[inherit_doc pRamSize] opaque xRamSize : Bool → BitVec 2 → Fin 65537
@[inherit_doc pRamSize] opaque yRamSize : Bool → BitVec 2 → Fin 65537

/-- `ICACHE_LOCATION` (D27): the first address of the 1024 words of program RAM, all below $010000, that the cache takes.
With the cache off they are internal program RAM whatever `pRamSize` says (20_memory R104, 48_cache R540). -/
opaque icacheStart : Fin 64513

/-- `EXT_ADDR_LINES` (D23): has the device 24 external address lines? Otherwise 18: external addresses that agree in
their 18 low bits name one external word. -/
opaque extAddrLines24 : Bool

/-- Does the bootstrap ROM reach from P:$FF0000 to P:$FF0C00 (20_memory R104)? Otherwise to P:$FF00BF. -/
opaque bigBootRom : Bool
/-- `P_ROM`: is P:`a`, from the end of the bootstrap ROM to $FFFFFF, in a program ROM module (D20)? -/
opaque pRomAt : Word → Bool
/-- `X_ROM`: is X:`a`, $FF0000 to $FFEFFF, in a data ROM module (D20; 20_memory R104)? -/
opaque xRomAt : Word → Bool
/-- Is X:`a`, $FF0000 to $FFEFFF and not in a ROM module, in a data RAM module (20_memory R104)? -/
opaque xRamAt : Word → Bool
/-- `Y_ROM`: is Y:`a`, $FF0000 to $FFEFFF, in a data ROM module (D20)? -/
opaque yRomAt : Word → Bool
/-- Is Y:`a`, $FF0000 to $FFEFFF and not in a ROM module, in a data RAM module (20_memory R104)? -/
opaque yRamAt : Word → Bool

/-- The contents of `BOOT_ROM` and of the program ROM modules (D20, D21). -/
opaque pRom : Word → Word
/-- The contents of the X data ROM modules (D20). -/
opaque xRom : Word → Word
/-- The contents of the Y data ROM modules (D20). -/
opaque yRom : Word → Word

/-- Is X:$FFF000 to X:$FFFF7F external memory on this device (20_memory R104)? Otherwise it is internal I/O space. -/
opaque xTopExternal : Bool
/-- Is Y:$FFF000 to Y:$FFFF7F external memory on this device (20_memory R104)? -/
opaque yTopExternal : Bool
/-- Is the sixteen-word part `i` of Y:$FFFF80 up external I/O (20_memory R104)? -/
opaque yIoExternal : Fin 8 → Bool

/-- The two-bit field of IPRP that holds the level of peripheral interrupt source `k` (`PERIPHERALS`, D30; 60_exceptions
R565). -/
opaque iprpField : Nat → Fin 12

/-- `IDR_VALUE` (62_devices R720). -/
opaque idr : Word
/-- `JTAG_VERSION` (61_debug R623). -/
opaque jtagVersion : BitVec 4
/-- `JTAG_DERIVATIVE` (61_debug R623). -/
opaque jtagDerivative : BitVec 5
/-- `BSR_LAYOUT` (61_debug R624): the bit the boundary scan register shifts out. -/
opaque boundaryScanBit : Nat → Bool

end Config

end Sys2Proof
end

