-- ==== Sys2Proof/Machine/State.lean ====
section
/-!
DEFINITION. The state of the machine as plain data (10_state; 48_cache R541; 60_exceptions R562, R570, R578; 61_debug
R631 to R643; 62_devices R670), why it can stop, and the state after hardware reset (10_state R90).
-/
namespace Sys2Proof.Machine

/-- Data ALU registers (10_state R20). -/
structure AluRegs where
  x1 : Word
  x0 : Word
  y1 : Word
  y0 : Word
  a : AccWord
  b : AccWord
deriving DecidableEq, Repr

/-- Address generation unit registers (10_state R23, R25). -/
structure AguRegs where
  r : Vector Word 8
  n : Vector Word 8
  m : Vector Word 8
  ep : Word
deriving DecidableEq, Repr

/-- Program control unit registers (10_state R27 to R37, R56 to R59). `ssh`, `ssl` are the halves of SS[0..15]. -/
structure PcuRegs where
  pc : Word
  sr : Word
  omr : Word
  vba : Word
  la : Word
  lc : Word
  sp : Word
  sc : BitVec 5
  sz : Word
  ssh : Vector Word 16
  ssl : Vector Word 16
deriving DecidableEq, Repr

/-- One memory space as a sparse list of (address, word): addresses strictly rising, no word equal to what an unlisted
address reads as (20_memory R100; log 3). -/
abbrev Mem := List (Nat × Word)

/-- The memory spaces (20_memory R100). `pExt` is the external program memory that internal program memory of the same
address hides: behind the cache's address range, reached while SR[CE] = 1 (48_cache R540), and behind internal RAM,
reached through an alias on a device with 18 address lines (D23). -/
structure Memories where
  p : Mem
  x : Mem
  y : Mem
  pExt : Mem
deriving DecidableEq, Repr

/-- Port A and PLL registers (62_devices R672, R682, R684, R685). -/
structure PortRegs where
  pctl : Word
  bcr : Word
  dcr : Word
  aar : Vector Word 4
deriving DecidableEq, Repr

/-- One DMA channel (62_devices R700, R701, R703, R707). `preload` is DCOn_preload, `trig` the latched trigger, `busy`
a unit of transfer in progress, `stopping` that software cleared DE with a word in flight, which still completes, `upset`
that software wrote an address or counter register while the channel was busy, or changed DCR bits other than DE while DE was
set, after which its operation is not guaranteed (U48). -/
structure DmaChannel where
  dsr : Word
  ddr : Word
  dco : Word
  dcr : Word
  preload : Word
  trig : Bool
  busy : Bool
  stopping : Bool
  upset : Bool
deriving DecidableEq, Repr

/-- The DMA controller (62_devices R700, R710). `last` is the channel served last (R708, round robin); `held` the word a
channel has read and not yet written (R706, R709). -/
structure Dma where
  ch : Vector DmaChannel 6
  dor : Vector Word 4
  dtd : BitVec 6
  last : Fin 6
  held : Option (Fin 6 × Word)
deriving DecidableEq, Repr

/-- The instruction cache (48_cache R541). `lru` lists the sectors from most to least recently used; `data` holds
DATA[s][v] at key 128 s + v. -/
structure ICache where
  tag : Vector (BitVec 17) 8
  valid : Vector (BitVec 128) 8
  lock : BitVec 8
  lru : List (Fin 8)
  data : Mem
deriving DecidableEq, Repr

/-- The interrupt controller (60_exceptions R562 to R565, R578). `pins` holds the levels of IRQA (bit 0) to IRQD
(bit 3), `nmi`, `de` and `rst` those of NMI, DE and RESET. `oldMask` and `window` are the mask before a change of I and
how many more instructions arbitration may still use it. -/
structure Irq where
  iprc : Word
  iprp : Word
  pend : BitVec 128
  pins : BitVec 4
  nmi : Bool
  de : Bool
  rst : Bool
  oldMask : BitVec 2
  window : BitVec 3
deriving DecidableEq, Repr

/-- Interrupt-instruction context (60_exceptions R570, R571): the source served, its level, the address of its vector, and
the vector words not yet executed. -/
structure IntCtx where
  src : BitVec 7
  level : BitVec 2
  base : Word
  words : List Word
deriving DecidableEq, Repr

/-- REP in progress (45_loop R408): TEMP, and the target word once it has been fetched. -/
structure Rep where
  temp : Word
  latch : Option Word
deriving DecidableEq, Repr

/-- The processing states (60_exceptions R560). Exception is Normal with an `IntCtx`. -/
inductive Phase | normal | reset | wait | stop | debug
deriving DecidableEq, Repr

/-- An access of an instruction, still to be made: the store of a word in data memory at a key (Map.lean), with the external bus
`locked` for it or not (R112), or in program memory at an address; the second load of a move, of the register `d`; the load of the high or low half of a stack location
that the stack extension fills; the fetch of the second vector word of an interrupt (10_state R64; 20_memory R111, R112, R140;
60_exceptions R570). -/
inductive Late
  | store (sp : Space) (k : Nat) (w : Word) (locked : Bool)
  | storeP (a w : Word)
  | load (sp : Space) (k : Nat) (d : DReg)
  | refill (sp : Space) (k : Nat) (high : Bool) (i : Fin 16)
  | vector (a : Word)
deriving DecidableEq, Repr

/-- What the sequence restrictions look back to (70_reset R749, R764, R768): the last instructions executed, the newest
first, every repetition under REP by itself (`past`); the last instructions whose words were fetched, a target under REP once
(`near`); whether the newest made an X:Y: move with an internal X I/O address; and the places of program memory written
lately, each with the number of instruction words fetched since. -/
structure History where
  past : List Instr
  near : List Instr
  xIo : Bool
  pWrites : List (Bool × Nat × Nat)
deriving DecidableEq, Repr

/-- A read of core register `reg` may still answer `value` in the bits of `mask`, until `left` more instructions have ended
(20_memory R141, R142; U45). -/
structure Echo where
  reg : Nat
  mask : Word
  value : Word
  left : Nat
deriving DecidableEq, Repr

/-- Sequencing state: the processing state, the interrupt context, REP, the model's own counter of free values, and
which of X0, Y0, X1, Y1 (bits 0 to 3) the previous instruction (`fresh`) and this one (`written`) wrote in Sixteen-bit
Arithmetic mode (40_alu_common R231; U37). `late` holds the accesses not yet made, in order; `pdb` the words that are on the program data
bus already, each with its address: fetched ahead (20_memory R140), or left there by the debug host (61_debug R641).
`spilled`: the loop start at hand has moved its first stack entry to data memory (10_state R64). -/
structure Ctl where
  phase : Phase
  ctx : Option IntCtx
  rep : Option Rep
  freeCtr : Nat
  fresh : BitVec 4
  written : BitVec 4
  late : List Late
  spilled : Bool
  hist : History
  echo : List Echo
  pdb : List (Word × Word)
deriving DecidableEq, Repr

/-- OnCE registers (61_debug R631 to R643). `oscr` holds IME, TME and HIT. `trace` is the trace buffer, newest entry
first, at most twelve; `lastPc` the address of the last executed instruction. `seen0`, `seen1`: breakpoints 0 and 1 have
been seen, `omal` is the memory address latch (R635). `request` is a debug request not yet acknowledged, `asked` its
causes, `later` a breakpoint to be acknowledged an instruction later (R640), `cause` the bits SWO, MBO, TO. `armed`: the
instruction latch was written without GO (R641). `dePulses` counts the pulses on the DE output (R620, R645). -/
structure Once where
  ocr : BitVec 8
  oscr : Word
  obcr : Word
  omlr0 : Word
  omlr1 : Word
  omal : Word
  ombc : Word
  otc : Word
  opdbr : Word
  opilr : Word
  ogdbr : Word
  opabfr : Word
  opabdr : Word
  opabex : Word
  goTo : Word
  trace : List (BitVec 25)
  tracePtr : BitVec 4
  tagPtr : BitVec 4
  seen0 : Bool
  seen1 : Bool
  request : Bool
  asked : BitVec 3
  later : Bool
  cause : BitVec 3
  lastPc : Word
  armed : Bool
  dePulses : Nat
deriving DecidableEq, Repr

/-- The sixteen states of the TAP controller (61_debug R621). -/
inductive Tap
  | testLogicReset | runTestIdle
  | selectDr | captureDr | shiftDr | exit1Dr | pauseDr | exit2Dr | updateDr
  | selectIr | captureIr | shiftIr | exit1Ir | pauseIr | exit2Ir | updateIr
deriving DecidableEq, Repr

/-- The JTAG port (61_debug R621 to R623, R630): TAP state, instruction register and its shift stage, data shift
register, whether the next OnCE data scan carries data (`dataScan`), and TDO. -/
structure Jtag where
  tap : Tap
  ir : BitVec 4
  irShift : BitVec 4
  dr : BitVec 32
  dataScan : Bool
  tdo : Bool
deriving DecidableEq, Repr

/-- The pins an event can move (60_exceptions R563; 61_debug R620). -/
inductive Pin | irqa | irqb | irqc | irqd | nmi | de
deriving DecidableEq, Repr

/-- What the outside world can do between two instructions (00_scope R6; log 19). -/
inductive Event
  | pin (p : Pin) (high : Bool)               -- a level change of an interrupt pin or of DE
  | resetLow                                  -- RESET asserted
  | resetHigh (mode : BitVec 4)               -- RESET deasserted, the mode pins sampled
  | peripheral (k : BitVec 7) (on : Bool)     -- a peripheral interrupt request appears or goes
  | dmaRequest (src : BitVec 5)               -- a DMA request line fires
  | busWrite (space : Fin 3) (addr : Word) (data : Word)   -- another bus master writes P, X or Y external memory
  | tck (tms tdi : Bool)                      -- one rising edge of TCK
  | trst                                      -- TRST asserted
  | quiet                                     -- nothing happens: the machine takes this step
deriving DecidableEq, Repr

/-- The machine's state. -/
structure State where
  alu : AluRegs
  agu : AguRegs
  pcu : PcuRegs
  mem : Memories
  port : PortRegs
  dma : Dma
  cache : ICache
  irq : Irq
  ctl : Ctl
  once : Once
  jtag : Jtag
  env : List Event
deriving DecidableEq, Repr

/-- Why the machine stops with a fault. -/
inductive Fault
  /-- Raised by `step`: an instruction fetch from external memory while OMR[EBD] = 1, where no fetch can be made (U14,
  treatment `stuck`). Safe. -/
  | fetchWithBusDisabled
  /-- Raised by `step`: an instruction that accesses external memory while OMR[EBD] = 1, where no access can be made (U14,
  treatment `stuck`). Safe. -/
  | externalAccessWithBusDisabled
deriving DecidableEq, Repr

/-- Why the machine has no meaning for what it is asked to do. -/
inductive Refusal
  /-- An instruction with no meaning yet. Raised by `exec` alone. Safe. -/
  | notModelled (mnemonic : String)
  /-- A bit number of 24 to 31 names no bit (U3). Raised by the bit instructions on such an operand. Safe. -/
  | noSuchBit
  /-- A bit number above 15 in Sixteen-bit Arithmetic mode (U36). Raised by the bit instructions. Safe. -/
  | noSuchBitInSixteenBitMode
  /-- DO or DOR with SSH as the loop count (U6). Raised by them. Safe. -/
  | loopCountFromSsh
  /-- A forbidden or two-word target of REP (U7). Raised by `step`. Safe. -/
  | forbiddenRepTarget
  /-- An instruction that may not stand in a vector word of a fast interrupt (U8). Raised by `step`. Safe. -/
  | forbiddenVectorWord
  /-- A two-word instruction beginning in the second vector word (U8). Raised by `step`. Safe. -/
  | truncatedVectorWord
  /-- A reserved code in a DMA control register in use (U49). Raised by `step` when the channel moves. Safe. -/
  | reservedDmaCode
  /-- A DMA channel whose registers were written while it was busy (U48). Raised by `step` when it moves. Safe. -/
  | upsetDmaChannel
  /-- A reserved OnCE register select (U57). Raised by `step` on such a command. Safe. -/
  | reservedOnceCode
  /-- An instruction that may not start so near the end of a DO loop (45_loop R409; U17). Raised by `step`. Safe. -/
  | nearLoopEnd
  /-- An instruction that may not stand so near before a DO, DOR or DO FOREVER (45_loop R410; U17). Raised by `step`. Safe. -/
  | beforeLoopStart
  /-- An instruction that may not stand so near before an ENDDO or BRKcc (45_loop R411; U17). Raised by `step`. Safe. -/
  | beforeLoopExit
  /-- An instruction that may not stand before an RTI or RTS (47_program_control R494; U17). Raised by `step`. Safe. -/
  | beforeReturn
  /-- With OMR[SEN] = 1, a MOVE to EP or a bit instruction on it, a MOVE of more than 15 to SC, or a subroutine call in the
  Stack Error vector (70_reset R760; U17). Raised by `step`. Safe. -/
  | stackExtensionMisuse
  /-- A MOVE to or from SSH or SSL, or a bit instruction on them, within four instructions after a MOVE to SP or SC or a bit
  instruction that changes them (70_reset R761; U17). Raised by `step`. Safe. -/
  | stackPointerUse
  /-- Two adjacent moves that an internal X I/O address makes UNDEFINED (70_reset R764; U17). Raised by `step`. Safe. -/
  | peripheralPair
  /-- A program word executed fewer than seven words after it was written (70_reset R749; U44). Raised by `step`. Safe. -/
  | executedTooSoon
  /-- A loop started in the body of another that ends before it or with it (45_loop R400; U18). Raised by `step`. Safe. -/
  | crossingLoops
  /-- SR[CE] cleared while OMR[BE] = 1 (48_cache R540; U20). Raised by `step`. Safe. -/
  | burstCacheDisabled
  /-- OMR[MS] changed while SR[CE] = 1 (70_reset R750; U17). Raised by `step`. Safe. -/
  | memorySwitchInCacheMode
  /-- STOP executed while a DMA channel is active, DSTR[DACT] = 1 (62_devices R712; 70_reset R768; U17). Raised by `step`.
  Safe. -/
  | stopWithDmaActive
deriving DecidableEq, Repr

/-- What one step or one instruction answers. -/
abbrev Res := Host.Outcome State Fault Refusal

/-- The machine right after hardware reset (10_state R90; 62_devices R721; 48_cache R542; 61_debug R631 to R636). Values
the spec does not give: logs 1, 2, 3, 4. -/
def State.reset : State where
  alu := { x1 := 0, x0 := 0, y1 := 0, y0 := 0, a := 0, b := 0 }
  agu := { r := Vector.replicate 8 0, n := Vector.replicate 8 0, m := Vector.replicate 8 0xFFFFFF#24, ep := 0 }
  pcu := { pc := Config.resetVector Config.modePins, sr := 0xC00300#24,
           omr := 0x000300#24 ||| Config.modePins.setWidth 24, vba := 0, la := 0, lc := 0, sp := 0, sc := 0, sz := 0,
           ssh := Vector.replicate 16 0, ssl := Vector.replicate 16 0 }
  mem := { p := [], x := [], y := [], pExt := [] }
  port := { pctl := Config.pctlReset, bcr := 0x1FFFFF#24, dcr := 0, aar := Vector.replicate 4 0 }
  dma := { ch := Vector.replicate 6 { dsr := 0, ddr := 0, dco := 0, dcr := 0, preload := 0, trig := false, busy := false,
                                       stopping := false, upset := false },
           dor := Vector.replicate 4 0, dtd := 0b111111#6, last := 5, held := none }
  cache := { tag := Vector.replicate 8 0x1FFFF#17, valid := Vector.replicate 8 0, lock := 0,
             lru := [0, 1, 2, 3, 4, 5, 6, 7], data := [] }
  irq := { iprc := 0, iprp := 0, pend := 0, pins := 0b1111#4, nmi := true, de := true, rst := true, oldMask := 0, window := 0 }
  ctl := { phase := .normal, ctx := none, rep := none, freeCtr := 0, fresh := 0, written := 0, late := [], spilled := false
           hist := { past := [], near := [], xIo := false, pWrites := [] }, echo := [], pdb := [] }
  once := { ocr := 0, oscr := 0, obcr := 0, omlr0 := 0, omlr1 := 0, omal := 0, ombc := 0, otc := 0, opdbr := 0, opilr := 0,
            ogdbr := 0, opabfr := 0, opabdr := 0, opabex := 0, goTo := 0, trace := [], tracePtr := 0, tagPtr := 0,
            seen0 := false, seen1 := false, request := false, asked := 0, later := false, cause := 0, lastPc := 0
            armed := false, dePulses := 0 }
  jtag := { tap := .testLogicReset, ir := 0b0010#4, irShift := 0, dr := 0, dataScan := false, tdo := false }
  env := []

end Sys2Proof.Machine
end

