-- ==== Sys2Proof/Machine/Memory.lean ====
section
/-!
DEFINITION. Memory spaces as canonical sparse lists (20_memory R100; log 3), and the drawing of free values (log 4).
-/
namespace Sys2Proof.Machine

/-- What an address that no entry lists reads as (DESIGN CHOICE, unsafe: log 3). -/
def unlisted : Word := 0

/-- The word at `a` (20_memory R100). -/
def Mem.read : Mem → Nat → Word
  | [], _ => unlisted
  | (k, w) :: m, a => if a = k then w else Mem.read m a

/-- Every entry for `a` taken out. -/
def Mem.erase (m : Mem) (a : Nat) : Mem := m.filter fun p => p.1 != a

/-- An entry put where its address belongs. -/
def Mem.insert (a : Nat) (w : Word) : Mem → Mem
  | [] => [(a, w)]
  | (k, x) :: m =>
    if a < k then (a, w) :: (k, x) :: m
    else if a = k then (a, w) :: m
    else (k, x) :: Mem.insert a w m

/-- Store `w` at `a` (20_memory R101). The word an unlisted address reads as is not listed. -/
def Mem.write (m : Mem) (a : Nat) (w : Word) : Mem :=
  if w = unlisted then Mem.erase m a else Mem.insert a w m

/-- Is the address above the one before it, if there is one? -/
def Mem.above : Option Nat → Nat → Bool
  | none, _ => true
  | some l, a => decide (l < a)

/-- Addresses strictly rise from above `lo` and no entry holds what an unlisted address reads as. -/
def Mem.wfFrom : Option Nat → Mem → Bool
  | _, [] => true
  | lo, (k, w) :: m =>
    Mem.above lo k && w != unlisted && Mem.wfFrom (some k) m

/-- The canonical form of a memory (log 3). -/
def Mem.wf (m : Mem) : Bool := Mem.wfFrom none m

/-- The canonical form of every memory the state holds. -/
def Memory.wf (s : State) : Bool :=
  Mem.wf s.mem.p && Mem.wf s.mem.x && Mem.wf s.mem.y && Mem.wf s.mem.pExt && Mem.wf s.cache.data

/-- A free value of this step: `sub` tells draws of one site in one step apart (log 4). -/
def State.free (s : State) (site : FreeSite) (sub : Nat) : BitVec 64 := Config.free site (8 * s.ctl.freeCtr + sub)

/-- A free word. -/
def State.freeWord (s : State) (site : FreeSite) (sub : Nat) : Word := (s.free site sub).setWidth 24

/-- A free bit. -/
def State.freeBit (s : State) (site : FreeSite) (sub : Nat) : Bool := (s.free site sub).getLsbD 0

end Sys2Proof.Machine
end

