-- ==== Sys2Proof/Machine/Flags.lean ====
section
/-!
DEFINITION. The fields of SR and OMR (10_state R28, R30), and the condition code computations every Data ALU
instruction shares (40_alu_common R201 to R211).
-/
namespace Sys2Proof.Machine

/-! ## Mode bits -/

/-- One bit of SR (10_state R30). -/
def State.srBit (s : State) (i : Nat) : Bool := s.pcu.sr.getLsbD i
/-- One bit of OMR (10_state R28). -/
def State.omrBit (s : State) (i : Nat) : Bool := s.pcu.omr.getLsbD i

/-- RM, rounding mode (10_state R30). -/
def State.rm (s : State) : Bool := s.srBit 21
/-- SM, arithmetic saturation mode. -/
def State.sm (s : State) : Bool := s.srBit 20
/-- CE, cache enable. -/
def State.ce (s : State) : Bool := s.srBit 19
/-- SA, Sixteen-bit Arithmetic mode. -/
def State.sa (s : State) : Bool := s.srBit 17
/-- FV, DO FOREVER flag. -/
def State.fv (s : State) : Bool := s.srBit 16
/-- LF, loop flag. -/
def State.lf (s : State) : Bool := s.srBit 15
/-- DM, Double-Precision Multiply mode. -/
def State.dm (s : State) : Bool := s.srBit 14
/-- SC, Sixteen-bit Compatibility mode. -/
def State.sc (s : State) : Bool := s.srBit 13
/-- I, the interrupt mask. -/
def State.ipl (s : State) : BitVec 2 := s.pcu.sr.extractLsb' 8 2
/-- CCR, the low byte of SR. -/
def State.ccr (s : State) : Byte := s.pcu.sr.extractLsb' 0 8

/-- SEN, stack extension enable (10_state R28). -/
def State.sen (s : State) : Bool := s.omrBit 20
/-- XYS, the stack extension's space. -/
def State.xys (s : State) : Space := if s.omrBit 16 then Space.y else Space.x
/-- EBD, external bus disable. -/
def State.ebd (s : State) : Bool := s.omrBit 4
/-- BE, cache burst enable. -/
def State.burst (s : State) : Bool := s.omrBit 10
/-- MS and MSW, the memory switch (92_eei_decisions D26). -/
def State.memSwitch (s : State) : Bool × BitVec 2 := (s.omrBit 7, s.pcu.omr.extractLsb' 21 2)

/-- The scaling modes S1:S0 (10_state R34). -/
inductive Scaling | none | down | up | reserved
deriving DecidableEq, Repr

/-- S1:S0. -/
def State.scaling (s : State) : Scaling :=
  match s.srBit 11, s.srBit 10 with
  | false, false => .none
  | false, true => .down
  | true, false => .up
  | true, true => .reserved

/-- SR replaced. -/
def State.withSr (s : State) (v : Word) : State := { s with pcu := { s.pcu with sr := v } }

/-- OMR replaced. -/
def State.withOmr (s : State) (v : Word) : State := { s with pcu := { s.pcu with omr := v } }

/-- The CCR replaced, the other bytes of SR kept. -/
def State.withCcr (s : State) (c : Byte) : State :=
  s.withSr ((s.pcu.sr &&& 0xFFFF00#24) ||| c.setWidth 24)

/-! ## Standard definitions -/

/-- Are the bits of `r` from `lo` up all equal? -/
def topSame (r : AccWord) (lo : Nat) : Bool :=
  r.toNat / 2 ^ lo == 0 || r.toNat / 2 ^ lo == 2 ^ (56 - lo) - 1

/-- The lowest bit of the signed integer portion (40_alu_common R201), under a scaling mode that is not reserved. -/
def Scaling.intPortion : Scaling → Nat
  | .none => 47
  | .down => 48
  | .up => 46
  | .reserved => 47

/-- E, extension (40_alu_common R201). -/
def State.flagE (s : State) (r : AccWord) : Bool :=
  if s.scaling = .reserved then s.freeBit .flagE 0 else !topSame r s.scaling.intPortion

/-- U, unnormalized (40_alu_common R202). -/
def State.flagU (s : State) (r : AccWord) : Bool :=
  if s.scaling = .reserved then s.freeBit .flagU 0
  else r.getLsbD s.scaling.intPortion == r.getLsbD (s.scaling.intPortion - 1)

/-- The S term of a read of the accumulator `acc` (40_alu_common R207). `sub` tells A's draw from B's. -/
def State.flagS (s : State) (sub : Nat) (acc : AccWord) : Bool :=
  if s.scaling = .reserved then s.freeBit .scaleReadS sub
  else acc.getLsbD (s.scaling.intPortion - 1) != acc.getLsbD (s.scaling.intPortion - 2)

/-- Masks of the CCR bits (10_state R30). -/
def ccrC : Byte := 0x01#8
@[inherit_doc ccrC] def ccrV : Byte := 0x02#8
@[inherit_doc ccrC] def ccrZ : Byte := 0x04#8
@[inherit_doc ccrC] def ccrN : Byte := 0x08#8
@[inherit_doc ccrC] def ccrU : Byte := 0x10#8
@[inherit_doc ccrC] def ccrE : Byte := 0x20#8
@[inherit_doc ccrC] def ccrL : Byte := 0x40#8
@[inherit_doc ccrC] def ccrS : Byte := 0x80#8

/-- What an operation does to the CCR: it writes the bits of `mask` with those of `val`. -/
structure CcrUpd where
  mask : Byte
  val : Byte
deriving DecidableEq, Repr

/-- No bit written. -/
def CcrUpd.keep : CcrUpd := ⟨0, 0⟩

/-- A byte with the bits C, V, Z, N, U, E. -/
def ccrByte (c v z n u e : Bool) : Byte :=
  bitAt 8 0 c ||| bitAt 8 1 v ||| bitAt 8 2 z ||| bitAt 8 3 n ||| bitAt 8 4 u ||| bitAt 8 5 e

/-- E, U, N, Z, V, C of an arithmetic result `r` (40_alu_common R211). -/
def State.ccrStd (s : State) (r : AccWord) (v c : Bool) : CcrUpd :=
  ⟨0x3F#8, ccrByte c v (r == 0) r.msb (s.flagU r) (s.flagE r)⟩

/-- E, U, N, Z, V of an arithmetic result; C is unchanged. -/
def State.ccrNoC (s : State) (r : AccWord) (v : Bool) : CcrUpd :=
  ⟨0x3E#8, ccrByte false v (r == 0) r.msb (s.flagU r) (s.flagE r)⟩

/-- The update applied: a set V also sets L, which is sticky (40_alu_common R208, R210). -/
def CcrUpd.apply (u : CcrUpd) (c : Byte) : Byte :=
  ((c &&& ~~~u.mask) ||| (u.val &&& u.mask)) ||| (if u.mask &&& u.val &&& ccrV = 0 then 0 else ccrL)

/-- S and L ORed into the CCR by a read of an accumulator (40_alu_common R207, R208). -/
def orSL (sBit lBit : Bool) (c : Byte) : Byte := c ||| bitAt 8 7 sBit ||| bitAt 8 6 lBit

end Sys2Proof.Machine
end

