-- ==== Sys2Proof/Machine/Alu.lean ====
section
/-!
DEFINITION. The Data ALU's numbers (40_alu_common R200, R209, R230, R232), saturation (R225), rounding (R222), and the
outcome of one operation. Operands are exact integers; a result is narrowed once, at the end.
-/
namespace Sys2Proof.Machine

/-- The other accumulator. -/
def otherAcc : Acc → Acc
  | .a => .b
  | .b => .a

/-- The 56 bits of an accumulator (10_state R20). -/
def State.acc (s : State) : Acc → AccWord
  | .a => s.alu.a
  | .b => s.alu.b

/-- An accumulator replaced. -/
def State.withAcc (s : State) (d : Acc) (v : AccWord) : State :=
  match d with
  | .a => { s with alu := { s.alu with a := v } }
  | .b => { s with alu := { s.alu with b := v } }

/-- A Data ALU input register (10_state R20). -/
def State.xy (s : State) : XYReg → Word
  | .x0 => s.alu.x0
  | .y0 => s.alu.y0
  | .x1 => s.alu.x1
  | .y1 => s.alu.y1

/-- A control register of the shifts and bit fields (30_encoding R159(a)). -/
def State.shiftSrc (s : State) : ShiftSrc → Word
  | .a1 => s.alu.a.extractLsb' 24 24
  | .b1 => s.alu.b.extractLsb' 24 24
  | .x0 => s.alu.x0
  | .y0 => s.alu.y0
  | .x1 => s.alu.x1
  | .y1 => s.alu.y1

/-! ## Numbers -/

/-- How many bits the arithmetic unit works on: 56, or 40 in Sixteen-bit Arithmetic mode (40_alu_common R230). -/
def accWidth (sa : Bool) : Nat := if sa then 40 else 56

/-- The virtual 40-bit number of an accumulator (40_alu_common R230). -/
def v40 (a : AccWord) : BitVec 40 := a.extractLsb' 48 8 ++ a.extractLsb' 32 16 ++ a.extractLsb' 8 16

/-- A virtual 40-bit number put back (40_alu_common R230). -/
def pack (v : BitVec 40) : AccWord := v.extractLsb' 16 24 ++ 0#8 ++ v.extractLsb' 0 16 ++ 0#8

/-- The value of an accumulator as an operand (40_alu_common R209, R232). -/
def accInt (sa : Bool) (a : AccWord) : Int := if sa then (v40 a).toInt else a.toInt

/-- The unsigned pattern of an accumulator as an operand. -/
def accNat (sa : Bool) (a : AccWord) : Nat := if sa then (v40 a).toNat else a.toNat

/-- The value of a word operand, aligned on the accumulator's MSP (40_alu_common R209, R232). -/
def wordInt (sa : Bool) (w : Word) : Int :=
  if sa then (w.extractLsb' 8 16).toInt * 2 ^ 16 else w.toInt * 2 ^ 24

/-- The value of a long operand (40_alu_common R209, R232). -/
def longInt (sa : Bool) (hi lo : Word) : Int :=
  if sa then (hi.extractLsb' 8 16 ++ lo.extractLsb' 8 16 : BitVec 32).toInt else (hi ++ lo : BitVec 48).toInt

/-- A result narrowed to the accumulator (40_alu_common R200, R232). -/
def accOfInt (sa : Bool) (x : Int) : AccWord := if sa then pack (BitVec.ofInt 40 x) else BitVec.ofInt 56 x

/-- The unsigned pattern of an operand. -/
def patOf (sa : Bool) (x : Int) : Nat := (x % 2 ^ accWidth sa).toNat

/-- Does the exact result fail to fit the accumulator (40_alu_common R205)? -/
def overflows (sa : Bool) (x : Int) : Bool :=
  decide (x < -(2 ^ (accWidth sa - 1))) || decide (2 ^ (accWidth sa - 1) ≤ x)

/-- The carry of an addition (40_alu_common R206). -/
def carryOf (sa : Bool) (a b : Int) (cin : Nat) : Bool := decide (2 ^ accWidth sa ≤ patOf sa a + patOf sa b + cin)

/-- The borrow of `a - b - cin` (40_alu_common R206). -/
def borrowOf (sa : Bool) (a b : Int) (cin : Nat) : Bool := decide (patOf sa a < patOf sa b + cin)

/-- The source pairs X and Y. -/
def State.longSrc (s : State) : XYLong → Int
  | .x => longInt s.sa s.alu.x1 s.alu.x0
  | .y => longInt s.sa s.alu.y1 s.alu.y0

/-- An accumulator as an operand. -/
def State.accSrc (s : State) (d : Acc) : Int := accInt s.sa (s.acc d)

/-- An input register as an operand. -/
def State.wordSrc (s : State) (r : XYReg) : Int := wordInt s.sa (s.xy r)

/-- An immediate operand word. In Sixteen-bit Arithmetic mode the spec states no value (U35): a free one. -/
def State.immWord (s : State) (w : Word) : Word := if s.sa then s.freeWord .saImmediate 0 else w

/-- An immediate operand (41_arithmetic_a R252). -/
def State.immSrc (s : State) (w : Word) : Int := wordInt s.sa (s.immWord w)

/-! ## Saturation and rounding -/

/-- Are r[55], r[48], r[47] not all equal (40_alu_common R225)? -/
def mustSaturate (r : AccWord) : Bool :=
  !(r.getLsbD 55 == r.getLsbD 48 && r.getLsbD 48 == r.getLsbD 47)

/-- The saturation constants (40_alu_common R225). -/
def saturated (sa rounded : Bool) (r : AccWord) : AccWord :=
  if r.msb then 0xFF800000000000#56
  else if sa then (if rounded then 0x007FFF00000000#56 else 0x007FFF00FFFF00#56)
  else (if rounded then 0x007FFFFF000000#56 else 0x007FFFFFFFFFFF#56)

/-- The stored result and V, where `v` is the overflow without saturation (40_alu_common R205, R225). -/
def State.satFinish (s : State) (sm rounded : Bool) (r : AccWord) (v : Bool) : AccWord × Bool :=
  if sm && s.sm then (if mustSaturate r then (saturated s.sa rounded r, true) else (r, false)) else (r, v)

/-- The result of an exact value `x`, and V. `sm`: does Arithmetic Saturation mode apply (40_alu_common R226)? -/
def State.finish (s : State) (sm : Bool) (x : Int) : AccWord × Bool :=
  s.satFinish sm false (accOfInt s.sa x) (overflows s.sa x)

/-- The rounding position on the operand's own number (40_alu_common R222). -/
def State.roundPos (s : State) : Nat :=
  match s.scaling with
  | .none => if s.sa then 15 else 23
  | .down => if s.sa then 16 else 24
  | .up => if s.sa then 14 else 22
  | .reserved => if s.sa then 15 else 23

/-- The rounded pattern (40_alu_common R222): `r` an unsigned pattern of `w` bits, `p` the rounding position. -/
def roundPat (w p : Nat) (rm : Bool) (r : Nat) : Nat :=
  let t := (r + 2 ^ p) % 2 ^ w
  let u := if !rm && t % 2 ^ (p + 1) == 0 && (t / 2 ^ (p + 1)) % 2 == 1 then t - 2 ^ (p + 1) else t
  u - u % 2 ^ (p + 1)

/-- The rounded result of an exact value `x`, and V: the exact sum of `x` and the rounding constant does not fit
(40_alu_common R205, R222; 42_arithmetic_b R300). With S1:S0 = 11 the value rounded to is a
free one (U11). -/
def State.finishRound (s : State) (sm : Bool) (x : Int) : AccWord × Bool :=
  if s.scaling = .reserved then
    let y : Int := ((s.free .roundScale 0).setWidth (accWidth s.sa + 1)).toInt
    s.satFinish sm true (accOfInt s.sa y) (overflows s.sa y)
  else
    s.satFinish sm true
      (accOfInt s.sa (roundPat (accWidth s.sa) s.roundPos s.rm (patOf s.sa x)))
      (overflows s.sa (x + 2 ^ s.roundPos))

/-! ## Outcomes -/

/-- What a Data ALU operation does: it writes the bits `mask` of `dst` with those of `val`, and the CCR. -/
structure AluOut where
  dst : Acc
  mask : AccWord
  val : AccWord
  ccr : CcrUpd
deriving DecidableEq, Repr

/-- All 56 bits. -/
def accAll : AccWord := 0xFFFFFFFFFFFFFF#56
/-- A1 or B1, bits 47:24; in Sixteen-bit Arithmetic mode bits 47:32 (43_logical, preamble). -/
def mspMask (sa : Bool) : AccWord := if sa then 0x00FFFF00000000#56 else 0x00FFFFFF000000#56

/-- No operation, as in a move. -/
def AluOut.nothing : AluOut := ⟨.a, 0, 0, .keep⟩

/-- A result that changes E, U, N, Z, V and C. -/
def State.outStd (s : State) (d : Acc) (r : AccWord × Bool) (c : Bool) : AluOut :=
  ⟨d, accAll, r.1, s.ccrStd r.1 r.2 c⟩

/-- A result that changes E, U, N, Z and V. -/
def State.outNoC (s : State) (d : Acc) (r : AccWord × Bool) : AluOut := ⟨d, accAll, r.1, s.ccrNoC r.1 r.2⟩

/-- The flags alone of a comparison whose exact difference is `x`: E, U, N, Z of the difference itself, V as
40_alu_common R205 (41_arithmetic_a R258). -/
def State.outCmp (s : State) (x : Int) (c : Bool) : AluOut :=
  ⟨.a, 0, 0, s.ccrStd (accOfInt s.sa x) (s.finish true x).2 c⟩

/-- `a + b + cin`, with every flag (41_arithmetic_a R252). -/
def State.outAdd (s : State) (d : Acc) (a b : Int) (cin : Nat) : AluOut :=
  s.outStd d (s.finish true (a + b + cin)) (carryOf s.sa a b cin)

/-- `a - b - cin`, with every flag (41_arithmetic_a R272). -/
def State.outSub (s : State) (d : Acc) (a b : Int) (cin : Nat) : AluOut :=
  s.outStd d (s.finish true (a - b - cin)) (borrowOf s.sa a b cin)

/-- The carry flag as a number. -/
def State.cin (s : State) : Nat := if s.srBit 0 then 1 else 0

/-- The word a logical operation works on, as a number (43_logical, preamble): 24 bits, or 16. -/
def logicWidth (sa : Bool) : Nat := if sa then 16 else 24
@[inherit_doc logicWidth] def State.logicAcc (s : State) (d : Acc) : Nat :=
  if s.sa then ((s.acc d).extractLsb' 32 16).toNat else ((s.acc d).extractLsb' 24 24).toNat
@[inherit_doc logicWidth] def logicWord (sa : Bool) (w : Word) : Nat :=
  if sa then (w.extractLsb' 8 16).toNat else w.toNat

/-- A logical result of `logicWidth` bits, placed in A1 or B1. -/
def logicPlace (sa : Bool) (n : Nat) : AccWord := if sa then BitVec.ofNat 56 (n * 2 ^ 32) else BitVec.ofNat 56 (n * 2 ^ 24)

/-- N and Z of a logical result, V cleared (43_logical, preamble). -/
def logicCcr (sa : Bool) (n : Nat) : CcrUpd :=
  ⟨0x0E#8, ccrByte false false (n == 0) (decide (2 ^ (logicWidth sa - 1) ≤ n)) false false⟩

/-- A logical result `n` with N, Z and V. -/
def State.outLogic (s : State) (d : Acc) (n : Nat) : AluOut :=
  ⟨d, mspMask s.sa, logicPlace s.sa n, logicCcr s.sa n⟩

/-- A logical shift or rotate: C too. -/
def State.outLogicC (s : State) (d : Acc) (n : Nat) (c : Bool) : AluOut :=
  ⟨d, mspMask s.sa, logicPlace s.sa n, ⟨0x0F#8, (logicCcr s.sa n).val ||| bitAt 8 0 c⟩⟩

/-- The accumulator written and the CCR updated. -/
def State.commitAlu (s : State) (o : AluOut) : State :=
  ((s.withAcc o.dst ((s.acc o.dst &&& ~~~o.mask) ||| (o.val &&& o.mask))).withCcr (o.ccr.apply s.ccr))

end Sys2Proof.Machine
end

