-- ==== Sys2Proof/Machine/AluOps.lean ====
section
/-!
DEFINITION. What each Data ALU operation computes, as an `AluOut` read from the state before it (41_arithmetic_a,
42_arithmetic_b, 43_logical). The meanings of the parallel and the non-parallel instructions, IFcc and IFcc.U use them.
-/
namespace Sys2Proof.Machine

/-! ## Transfers, additions, comparisons (41_arithmetic_a) -/

/-- TFR of the other accumulator (R276). -/
def opTfrAcc (d : Acc) (s : State) : AluOut := ⟨d, accAll, accOfInt s.sa (s.accSrc (otherAcc d)), .keep⟩
/-- TFR of a register (R276). -/
def opTfrReg (r : XYReg) (d : Acc) (s : State) : AluOut := ⟨d, accAll, accOfInt s.sa (s.wordSrc r), .keep⟩
/-- ADD of the other accumulator (R252). -/
def opAddAcc (d : Acc) (s : State) : AluOut := s.outAdd d (s.accSrc d) (s.accSrc (otherAcc d)) 0
/-- ADD of X or Y (R252). -/
def opAddXY (r : XYLong) (d : Acc) (s : State) : AluOut := s.outAdd d (s.accSrc d) (s.longSrc r) 0
/-- ADD of a register (R252). -/
def opAddReg (r : XYReg) (d : Acc) (s : State) : AluOut := s.outAdd d (s.accSrc d) (s.wordSrc r) 0
/-- ADD of an immediate word (R252). -/
def opAddImm (w : Word) (d : Acc) (s : State) : AluOut := s.outAdd d (s.accSrc d) (s.immSrc w) 0
/-- ADC (R251). -/
def opAdc (r : XYLong) (d : Acc) (s : State) : AluOut := s.outAdd d (s.accSrc d) (s.longSrc r) s.cin
/-- SUB of the other accumulator (R272). -/
def opSubAcc (d : Acc) (s : State) : AluOut := s.outSub d (s.accSrc d) (s.accSrc (otherAcc d)) 0
/-- SUB of X or Y (R272). -/
def opSubXY (r : XYLong) (d : Acc) (s : State) : AluOut := s.outSub d (s.accSrc d) (s.longSrc r) 0
/-- SUB of a register (R272). -/
def opSubReg (r : XYReg) (d : Acc) (s : State) : AluOut := s.outSub d (s.accSrc d) (s.wordSrc r) 0
/-- SUB of an immediate word (R272). -/
def opSubImm (w : Word) (d : Acc) (s : State) : AluOut := s.outSub d (s.accSrc d) (s.immSrc w) 0
/-- SBC (R271). -/
def opSbc (r : XYLong) (d : Acc) (s : State) : AluOut := s.outSub d (s.accSrc d) (s.longSrc r) s.cin
/-- DEC (R261). -/
def opDec (d : Acc) (s : State) : AluOut := s.outSub d (s.accSrc d) 1 0
/-- INC (R264). -/
def opInc (d : Acc) (s : State) : AluOut := s.outAdd d (s.accSrc d) 1 0

/-- The operand shifted left by one, back in range, and whether that changed its top bit (R253, R273). -/
def State.shl1 (s : State) (d : Acc) : Int × Bool :=
  (accInt s.sa (accOfInt s.sa (2 * s.accSrc d)), (s.acc d).getLsbD 55 != (s.acc d).getLsbD 54)

/-- ADDL (R253). -/
def opAddl (d : Acc) (s : State) : AluOut :=
  let r := s.finish true ((s.shl1 d).1 + s.accSrc (otherAcc d))
  s.outStd d (r.1, r.2 || (s.shl1 d).2) (carryOf s.sa (s.shl1 d).1 (s.accSrc (otherAcc d)) 0)
/-- SUBL (R273). -/
def opSubl (d : Acc) (s : State) : AluOut :=
  let r := s.finish true ((s.shl1 d).1 - s.accSrc (otherAcc d))
  s.outStd d (r.1, r.2 || (s.shl1 d).2) (borrowOf s.sa (s.shl1 d).1 (s.accSrc (otherAcc d)) 0)
/-- ADDR (R254). -/
def opAddr (d : Acc) (s : State) : AluOut := s.outAdd d (s.accSrc d / 2) (s.accSrc (otherAcc d)) 0
/-- SUBR (R274). -/
def opSubr (d : Acc) (s : State) : AluOut := s.outSub d (s.accSrc d / 2) (s.accSrc (otherAcc d)) 0

/-- ABS (R250). -/
def opAbs (d : Acc) (s : State) : AluOut := s.outNoC d (s.finish true (s.accSrc d).natAbs)
/-- NEG (R267). -/
def opNeg (d : Acc) (s : State) : AluOut := s.outNoC d (s.finish true (-(s.accSrc d)))
/-- RND (R270). -/
def opRnd (d : Acc) (s : State) : AluOut := s.outNoC d (s.finishRound true (s.accSrc d))
/-- CLR (R257): E, N, V cleared, U and Z set. -/
def opClr (d : Acc) (_ : State) : AluOut := ⟨d, accAll, 0, ⟨0x3E#8, ccrByte false false true false true false⟩⟩
/-- TST (R277). -/
def opTst (d : Acc) (s : State) : AluOut := ⟨.a, 0, 0, s.ccrNoC (accOfInt s.sa (s.accSrc d)) false⟩

/-- CMP with the other accumulator (R258). -/
def opCmpAcc (d : Acc) (s : State) : AluOut :=
  s.outCmp (s.accSrc d - s.accSrc (otherAcc d)) (borrowOf s.sa (s.accSrc d) (s.accSrc (otherAcc d)) 0)
/-- CMP with a register (R258). -/
def opCmpReg (r : XYReg) (d : Acc) (s : State) : AluOut :=
  s.outCmp (s.accSrc d - s.wordSrc r) (borrowOf s.sa (s.accSrc d) (s.wordSrc r) 0)
/-- CMP with an immediate word (R258). -/
def opCmpImm (w : Word) (d : Acc) (s : State) : AluOut :=
  s.outCmp (s.accSrc d - s.immSrc w) (borrowOf s.sa (s.accSrc d) (s.immSrc w) 0)

/-- CMPM of `b` against `a`: the flags of |a| - |b| (R259). -/
def State.outCmpm (s : State) (a b : Int) : AluOut :=
  s.outCmp (a.natAbs - b.natAbs) (decide (a.natAbs < b.natAbs))
/-- CMPM with the other accumulator (R259). -/
def opCmpmAcc (d : Acc) (s : State) : AluOut := s.outCmpm (s.accSrc d) (s.accSrc (otherAcc d))
/-- CMPM with a register (R259). -/
def opCmpmReg (r : XYReg) (d : Acc) (s : State) : AluOut := s.outCmpm (s.accSrc d) (s.wordSrc r)

/-- CMPU (R260): on the accumulator without its extension; E and U unchanged, V cleared. -/
def opCmpu (g : AccOrReg) (d : Acc) (s : State) : AluOut :=
  let lw := accWidth s.sa - 8
  let a := accNat s.sa (s.acc d) % 2 ^ lw
  let b := match g with
    | .other => accNat s.sa (s.acc (otherAcc d)) % 2 ^ lw
    | .reg r => patOf s.sa (s.wordSrc r) % 2 ^ lw
  ⟨.a, 0, 0, ⟨0x0F#8, ccrByte (decide (a < b)) false (a == b) (decide (a < b)) false false⟩⟩

/-- MAX and MAXM (R265, R266): A to B when `t`. C is cleared by a transfer. -/
def State.outMax (s : State) (t : Bool) : AluOut :=
  let r := s.satFinish true false (accOfInt s.sa (s.accSrc .a)) false
  if t then ⟨.b, accAll, r.1, if r.2 then ⟨ccrC ||| ccrL, ccrL⟩ else ⟨ccrC, 0⟩⟩
  else ⟨.b, accAll, s.acc .b, ⟨ccrC, ccrC⟩⟩
/-- MAX (R265). -/
def opMax (s : State) : AluOut := s.outMax (decide (s.accSrc .b ≤ s.accSrc .a))
/-- MAXM (R266). -/
def opMaxm (s : State) : AluOut := s.outMax (decide ((s.accSrc .b).natAbs ≤ (s.accSrc .a).natAbs))

/-! ## Arithmetic shifts, division, normalization (41_arithmetic_a) -/

/-- ASL by one (R255). -/
def opAsl (d : Acc) (s : State) : AluOut :=
  s.outStd d (accOfInt s.sa (2 * s.accSrc d), (s.acc d).getLsbD 55 != (s.acc d).getLsbD 54) (s.acc d).msb
/-- ASR by one (R256). -/
def opAsr (d : Acc) (s : State) : AluOut :=
  s.outStd d (accOfInt s.sa (s.accSrc d / 2), false) ((accNat s.sa (s.acc d)).testBit 0)

/-- The greatest defined count of ASL and ASR (R255, R256; U30). -/
def maxShift (sa : Bool) : Nat := if sa then 40 else 55

/-- A free accumulator value, as the arithmetic unit leaves it. -/
def State.freeAcc (s : State) (site : FreeSite) : AccWord :=
  if s.sa then pack ((s.free site 0).setWidth 40) else (s.free site 0).setWidth 56

/-- A shift by too much: value, V and C are free (U30). -/
def State.outFreeShift (s : State) (d : Acc) : AluOut :=
  s.outStd d (s.freeAcc .shiftResult, s.freeBit .shiftV 0) (s.freeBit .shiftC 0)

/-- ASL by `n` of `src` into `d` (R255). -/
def opAslN (n : Nat) (src d : Acc) (s : State) : AluOut :=
  if maxShift s.sa < n then s.outFreeShift d
  else s.outStd d (accOfInt s.sa (s.accSrc src * 2 ^ n), overflows s.sa (s.accSrc src * 2 ^ n))
    (n != 0 && (accNat s.sa (s.acc src)).testBit (accWidth s.sa - n))

/-- ASR by `n` of `src` into `d` (R256). V is always cleared. -/
def opAsrN (n : Nat) (src d : Acc) (s : State) : AluOut :=
  if maxShift s.sa < n then s.outFreeShift d
  else s.outStd d (accOfInt s.sa (s.accSrc src / 2 ^ n), false)
    (n != 0 && (accNat s.sa (s.acc src)).testBit (n - 1))

/-- DIV (R262). -/
def opDiv (r : XYReg) (d : Acc) (s : State) : AluOut :=
  let t := accInt s.sa (accOfInt s.sa (2 * s.accSrc d + s.cin))
  let x := if (s.acc d).msb != (s.xy r).msb then t + s.wordSrc r else t - s.wordSrc r
  let f := s.satFinish true false (accOfInt s.sa x) false
  let v := ((s.acc d).getLsbD 55 != (s.acc d).getLsbD 54) || f.2
  ⟨d, accAll, f.1, ⟨ccrV ||| ccrC, ccrByte (!(accOfInt s.sa x).msb) v false false false false⟩⟩

/-- NORM's accumulator part (R268): E, U and Z as they stand decide. -/
def opNorm (d : Acc) (s : State) : AluOut :=
  if !s.srBit 5 && s.srBit 4 && !s.srBit 2 then
    let f := s.satFinish true false (accOfInt s.sa (2 * s.accSrc d)) false
    s.outNoC d (f.1, ((s.acc d).getLsbD 55 != (s.acc d).getLsbD 54) || f.2)
  else if s.srBit 5 then s.outNoC d (s.satFinish true false (accOfInt s.sa (s.accSrc d / 2)) false)
  else ⟨.a, 0, 0, s.ccrNoC (accOfInt s.sa (s.accSrc d)) false⟩

/-- What NORM adds to Rn (R268; D14). -/
def normStep (s : State) : Word :=
  if !s.srBit 5 && s.srBit 4 && !s.srBit 2 then 0xFFFFFF#24 else if s.srBit 5 then 1 else 0

/-- NORMF by the signed count `k` (R269). -/
def opNormf (k : Int) (d : Acc) (s : State) : AluOut :=
  if (accWidth s.sa : Int) < k ∨ k < 1 - (accWidth s.sa : Int) then
    s.outNoC d (s.freeAcc .normf, s.freeBit .normfV 0)
  else if 0 ≤ k then s.outNoC d (accOfInt s.sa (s.accSrc d / 2 ^ k.toNat), false)
  else s.outNoC d (accOfInt s.sa (s.accSrc d * 2 ^ (-k).toNat), overflows s.sa (s.accSrc d * 2 ^ (-k).toNat))

/-! ## Multiplications (42_arithmetic_b) -/

/-- The value of a multiplier operand (R300). -/
def mulVal (sa signed : Bool) (w : Word) : Int :=
  if sa then (if signed then (w.extractLsb' 8 16).toInt else (w.extractLsb' 8 16).toNat)
  else (if signed then w.toInt else w.toNat)

/-- The doubled product, negated by the "-" option (R300). -/
def product (sa : Bool) (a b : Word) (sgA sgB minus : Bool) : Int :=
  let p := 2 * mulVal sa sgA a * mulVal sa sgB b
  if minus then -p else p

/-- The registers of an operand pair (R312). -/
def pairRegs : MulPair → XYReg × XYReg
  | .x0x0 => (.x0, .x0)
  | .y0y0 => (.y0, .y0)
  | .x1x0 => (.x1, .x0)
  | .y1y0 => (.y1, .y0)
  | .x0y1 => (.x0, .y1)
  | .y0x0 => (.y0, .x0)
  | .x1y0 => (.x1, .y0)
  | .y1x1 => (.y1, .x1)

/-- The signed product of a pair. -/
def State.pairProduct (s : State) (q : MulPair) (minus : Bool) : Int :=
  product s.sa (s.xy (pairRegs q).1) (s.xy (pairRegs q).2) true true minus

/-- Double-Precision Multiply mode modifies nothing in Sixteen-bit Arithmetic mode (40_alu_common R232, R240). -/
def State.dmActive (s : State) : Bool := s.dm && !s.sa

/-- MPY (R306; 40_alu_common R240). -/
def opMpy (q : MulPair) (d : Acc) (minus : Bool) (s : State) : AluOut :=
  if s.dmActive && q == .y0x0 then
    s.outNoC d (s.finish true (product s.sa s.alu.y0 s.alu.x0 false false minus))
  else s.outNoC d (s.finish true (s.pairProduct q minus))

/-- MPYR (R309). -/
def opMpyr (q : MulPair) (d : Acc) (minus : Bool) (s : State) : AluOut :=
  s.outNoC d (s.finishRound true (s.pairProduct q minus))

/-- What MAC adds, and to what (R301; 40_alu_common R240). -/
def State.macTerms (s : State) (q : MulPair) (d : Acc) (minus : Bool) : Int × Int :=
  if s.dmActive then
    match q with
    | .x1y0 => (s.accSrc d / 2 ^ 24, product s.sa s.alu.x1 s.alu.y0 true false minus)
    | .x0y1 => (s.accSrc d, product s.sa s.alu.x0 s.alu.y1 false true minus)
    | .y1x1 => (s.accSrc d / 2 ^ 24, product s.sa s.alu.y1 s.alu.x1 true true minus)
    | _ => (s.accSrc d, s.pairProduct q minus)
  else (s.accSrc d, s.pairProduct q minus)

/-- MAC (R301). -/
def opMac (q : MulPair) (d : Acc) (minus : Bool) (s : State) : AluOut :=
  s.outNoC d (s.finish true ((s.macTerms q d minus).1 + (s.macTerms q d minus).2))

/-- MACR (R304). -/
def opMacr (q : MulPair) (d : Acc) (minus : Bool) (s : State) : AluOut :=
  s.outNoC d (s.finishRound true (s.accSrc d + s.pairProduct q minus))

/-- The constant 2^(23-n) of the `S,#n` forms (R312). -/
def mulConst (n : BitVec 5) : Word := BitVec.ofNat 24 (2 ^ (23 - n.toNat))

/-- The product of a register and an immediate word, both signed (R301, R303). -/
def State.immProduct (s : State) (w : Word) (r : XYReg) (minus : Bool) : Int :=
  product s.sa (s.immWord w) (s.xy r) true true minus

/-- MPY and MPYI by an immediate word (R306, R308). -/
def opMpyImm (w : Word) (r : XYReg) (d : Acc) (minus : Bool) (s : State) : AluOut :=
  s.outNoC d (s.finish true (s.immProduct w r minus))
/-- MPYR and MPYRI by an immediate word (R309, R310). -/
def opMpyrImm (w : Word) (r : XYReg) (d : Acc) (minus : Bool) (s : State) : AluOut :=
  s.outNoC d (s.finishRound true (s.immProduct w r minus))
/-- MAC and MACI by an immediate word (R301, R303). -/
def opMacImm (w : Word) (r : XYReg) (d : Acc) (minus : Bool) (s : State) : AluOut :=
  s.outNoC d (s.finish true (s.accSrc d + s.immProduct w r minus))
/-- MACR and MACRI by an immediate word (R304, R305). -/
def opMacrImm (w : Word) (r : XYReg) (d : Acc) (minus : Bool) (s : State) : AluOut :=
  s.outNoC d (s.finishRound true (s.accSrc d + s.immProduct w r minus))

/-- Is the first operand of a (su, uu) form signed (R312)? -/
def su1 : Sign1 → Bool
  | .su => true
  | .uu => false

/-- MPY(su,uu) (R307): Arithmetic Saturation mode never applies. -/
def opMpySu (sg : Sign1) (q : MulOps) (d : Acc) (minus : Bool) (s : State) : AluOut :=
  s.outNoC d (s.finish false (product s.sa (s.xy q.s1) (s.xy q.s2) (su1 sg) false minus))
/-- MAC(su,uu) (R302). -/
def opMacSu (sg : Sign1) (q : MulOps) (d : Acc) (minus : Bool) (s : State) : AluOut :=
  s.outNoC d (s.finish false (s.accSrc d + product s.sa (s.xy q.s1) (s.xy q.s2) (su1 sg) false minus))

/-- The signedness of DMAC's operands (R311). -/
def signs2 : Sign2 → Bool × Bool
  | .ss => (true, true)
  | .su => (true, false)
  | .uu => (false, false)

/-- DMAC (R311): the accumulator shifted right by 24 bits (16 in Sixteen-bit Arithmetic mode) first. -/
def opDmac (sg : Sign2) (q : MulOps) (d : Acc) (minus : Bool) (s : State) : AluOut :=
  s.outNoC d (s.finish (sg == .ss) (s.accSrc d / 2 ^ (if s.sa then 16 else 24) +
    product s.sa (s.xy q.s1) (s.xy q.s2) (signs2 sg).1 (signs2 sg).2 minus))

/-! ## Logical operations, shifts, rotates, bit fields (43_logical) -/

/-- AND of a word (R350). -/
def opAndWord (w : Word) (d : Acc) (s : State) : AluOut := s.outLogic d (s.logicAcc d &&& logicWord s.sa w)
/-- OR of a word (R361). -/
def opOrWord (w : Word) (d : Acc) (s : State) : AluOut := s.outLogic d (s.logicAcc d ||| logicWord s.sa w)
/-- EOR of a word (R353). -/
def opEorWord (w : Word) (d : Acc) (s : State) : AluOut := s.outLogic d (s.logicAcc d ^^^ logicWord s.sa w)
/-- AND of a register (R350). -/
def opAnd (r : XYReg) (d : Acc) (s : State) : AluOut := opAndWord (s.xy r) d s
/-- OR of a register (R361). -/
def opOr (r : XYReg) (d : Acc) (s : State) : AluOut := opOrWord (s.xy r) d s
/-- EOR of a register (R353). -/
def opEor (r : XYReg) (d : Acc) (s : State) : AluOut := opEorWord (s.xy r) d s
/-- NOT (R360). -/
def opNot (d : Acc) (s : State) : AluOut := s.outLogic d (2 ^ logicWidth s.sa - 1 - s.logicAcc d)

/-- LSL by `n` (R357; U31). -/
def opLslN (n : Nat) (d : Acc) (s : State) : AluOut :=
  let lw := logicWidth s.sa
  if lw < n then s.outLogicC d ((s.free .shiftResult 0).toNat % 2 ^ lw) (s.freeBit .shiftC 0)
  else s.outLogicC d (s.logicAcc d * 2 ^ n % 2 ^ lw) (n != 0 && (s.logicAcc d).testBit (lw - n))
/-- LSR by `n` (R358; U31). -/
def opLsrN (n : Nat) (d : Acc) (s : State) : AluOut :=
  let lw := logicWidth s.sa
  if lw < n then s.outLogicC d ((s.free .shiftResult 0).toNat % 2 ^ lw) (s.freeBit .shiftC 0)
  else s.outLogicC d (s.logicAcc d / 2 ^ n) (n != 0 && (s.logicAcc d).testBit (n - 1))
/-- LSL by one (R357). -/
def opLsl (d : Acc) (s : State) : AluOut := opLslN 1 d s
/-- LSR by one (R358). -/
def opLsr (d : Acc) (s : State) : AluOut := opLsrN 1 d s
/-- ROL (R363). -/
def opRol (d : Acc) (s : State) : AluOut :=
  let lw := logicWidth s.sa
  s.outLogicC d (s.logicAcc d * 2 % 2 ^ lw + s.cin) ((s.logicAcc d).testBit (lw - 1))
/-- ROR (R364). -/
def opRor (d : Acc) (s : State) : AluOut :=
  let lw := logicWidth s.sa
  s.outLogicC d (s.logicAcc d / 2 + s.cin * 2 ^ (lw - 1)) ((s.logicAcc d).testBit 0)

/-- How many of the top bits of the `w`-bit pattern `n` equal `b`, from bit `w - 1` down. -/
def leadSame (n : Nat) (b : Bool) : Nat → Nat
  | 0 => 0
  | w + 1 => if n.testBit w == b then 1 + leadSame n b w else 0

/-- CLB (R352; D15). -/
def opClb (src d : Acc) (s : State) : AluOut :=
  let n := accNat s.sa (s.acc src)
  let res : Int := if n = 0 then 0 else 9 - leadSame n (s.acc src).msb (accWidth s.sa)
  ⟨d, accAll, BitVec.ofInt 56 (res * 2 ^ 24), ⟨0x0E#8, ccrByte false false (res == 0) (decide (res < 0)) false false⟩⟩

/-- Offset and width of a control word (R354). -/
def ctlOffset (sa : Bool) (c : Word) : Nat := if sa then (c.extractLsb' 8 6).toNat else (c.extractLsb' 0 6).toNat
@[inherit_doc ctlOffset]
def ctlWidth (sa : Bool) (c : Word) : Nat := if sa then (c.extractLsb' 16 6).toNat else (c.extractLsb' 12 6).toNat

/-- The bit field of a pattern. -/
def fieldOf (n off w : Nat) : Nat := n / 2 ^ off % 2 ^ w

/-- EXTRACT (R354; U32). -/
def opExtract (c : Word) (src d : Acc) (s : State) : AluOut :=
  let off := ctlOffset s.sa c
  let w := ctlWidth s.sa c
  let f := fieldOf (accNat s.sa (s.acc src)) off w
  if accWidth s.sa < off + w ∨ w = 0 then s.outStd d (s.freeAcc .bitField, false) false
  else s.outStd d (accOfInt s.sa (if f.testBit (w - 1) then (f : Int) - 2 ^ w else f), false) false

/-- EXTRACTU (R355; U32). -/
def opExtractu (c : Word) (src d : Acc) (s : State) : AluOut :=
  let off := ctlOffset s.sa c
  let w := ctlWidth s.sa c
  if accWidth s.sa < off + w then s.outStd d (s.freeAcc .bitField, false) false
  else s.outStd d (accOfInt s.sa (fieldOf (accNat s.sa (s.acc src)) off w), false) false

/-- The source register of INSERT (R356). -/
def State.insSrc (s : State) : InsSrc → Word
  | .a0 => s.alu.a.extractLsb' 0 24
  | .b0 => s.alu.b.extractLsb' 0 24
  | .x0 => s.alu.x0
  | .y0 => s.alu.y0
  | .x1 => s.alu.x1
  | .y1 => s.alu.y1

/-- INSERT of the low bits of `src` (R356; U33; D16). -/
def opInsert (c src : Word) (d : Acc) (s : State) : AluOut :=
  let off := ctlOffset s.sa c
  let w := ctlWidth s.sa c
  let bias := if s.sa then 16 else 0
  let n := accNat s.sa (s.acc d)
  if logicWidth s.sa < w ∨ off < bias ∨ accWidth s.sa < off - bias + w then
    s.outStd d (s.freeAcc .bitField, false) false
  else
    let p := off - bias
    s.outStd d (accOfInt s.sa ((n - fieldOf n p w * 2 ^ p + logicWord s.sa src % 2 ^ w * 2 ^ p : Nat) : Int), false) false

/-- MERGE (R359). -/
def opMerge (src : Word) (d : Acc) (s : State) : AluOut :=
  if s.sa then s.outLogic d ((src.extractLsb' 8 8).toNat * 2 ^ 8 + ((s.acc d).extractLsb' 32 8).toNat)
  else s.outLogic d ((src.extractLsb' 0 12).toNat * 2 ^ 12 + ((s.acc d).extractLsb' 24 12).toNat)

/-- The operation of an opcode byte, as IFcc runs it (30_encoding R161). -/
def aluOut (op : AluOp) (s : State) : AluOut :=
  match op with
  | .move => .nothing
  | .tfrAcc d => opTfrAcc d s
  | .tfrReg r d => opTfrReg r d s
  | .addr d => opAddr d s
  | .tst d => opTst d s
  | .cmpAcc d => opCmpAcc d s
  | .cmpReg r d => opCmpReg r d s
  | .subr d => opSubr d s
  | .cmpmAcc d => opCmpmAcc d s
  | .cmpmReg r d => opCmpmReg r d s
  | .addAcc d => opAddAcc d s
  | .addXY r d => opAddXY r d s
  | .addReg r d => opAddReg r d s
  | .rnd d => opRnd d s
  | .addl d => opAddl d s
  | .clr d => opClr d s
  | .subAcc d => opSubAcc d s
  | .subXY r d => opSubXY r d s
  | .subReg r d => opSubReg r d s
  | .maxm => opMaxm s
  | .max => opMax s
  | .subl d => opSubl d s
  | .not d => opNot d s
  | .adc r d => opAdc r d s
  | .asr d => opAsr d s
  | .lsr d => opLsr d s
  | .sbc r d => opSbc r d s
  | .abs d => opAbs d s
  | .ror d => opRor d s
  | .asl d => opAsl d s
  | .lsl d => opLsl d s
  | .neg d => opNeg d s
  | .rol d => opRol d s
  | .or r d => opOr r d s
  | .eor r d => opEor r d s
  | .and r d => opAnd r d s
  | .mpy q d n => opMpy q d n s
  | .mpyr q d n => opMpyr q d n s
  | .mac q d n => opMac q d n s
  | .macr q d n => opMacr q d n s

end Sys2Proof.Machine
end

