-- ==== Sys2Proof/Machine/Map.lean ====
section
/-!
DEFINITION. The address map (20_memory R102 to R108; 48_cache R540; 92_eei_decisions D8, D20 to D27): what answers at an
address of each space, and under which key its word is listed.
-/
namespace Sys2Proof.Machine

/-! ## X and Y data memory -/

/-- The address the region decode looks at: in Sixteen-bit Compatibility mode the eight MSBs are ignored (20_memory
R108; D8). -/
def State.mapAddr (s : State) (a : Word) : Nat := if s.sc then a.toNat % 2 ^ 16 else a.toNat

/-- The first address of a window at the top of the space: $FFtttt, or $tttt in Sixteen-bit Compatibility mode. -/
def State.topOf (s : State) (t : Nat) : Nat := if s.sc then t else 0xFF0000 + t

/-- The I/O window, the top 128 locations (20_memory R104). -/
def State.inIo (s : State) (a : Word) : Bool := decide (s.topOf 0xFF80 ≤ s.mapAddr a)
/-- $FFF000 to $FFFF7F, external memory or internal I/O by device (20_memory R104). -/
def State.inTop (s : State) (a : Word) : Bool :=
  decide (s.topOf 0xF000 ≤ s.mapAddr a) && decide (s.mapAddr a < s.topOf 0xFF80)
/-- $FF0000 to $FFEFFF, reserved for data ROM or RAM modules (20_memory R104). -/
def State.inModules (s : State) (a : Word) : Bool :=
  !s.sc && decide (0xFF0000 ≤ a.toNat) && decide (a.toNat < 0xFFF000)

/-- Is the address in a data ROM module (20_memory R104; D20)? -/
def State.inRom (s : State) (sp : Space) (a : Word) : Bool :=
  s.inModules a && (match sp with | .x => Config.xRomAt a | .y => Config.yRomAt a)

/-- Is it reserved for a module that the device has not? Nothing answers there (U40). -/
def State.inVoid (s : State) (sp : Space) (a : Word) : Bool :=
  s.inModules a && !(match sp with | .x => Config.xRomAt a || Config.xRamAt a | .y => Config.yRomAt a || Config.yRamAt a)

/-- Is the address in the internal X or Y RAM that begins at 0 (20_memory R104; D20, D26)? -/
def State.inRam (s : State) (sp : Space) (a : Word) : Bool :=
  match sp with
  | .x => decide (s.mapAddr a < (Config.xRamSize s.memSwitch.1 s.memSwitch.2).val)
  | .y => decide (s.mapAddr a < (Config.yRamSize s.memSwitch.1 s.memSwitch.2).val)

/-- Internal I/O space (20_memory R104). -/
def State.internalIo (s : State) (sp : Space) (a : Word) : Bool :=
  match sp with
  | .x => s.inIo a || (s.inTop a && !Config.xTopExternal)
  | .y => (s.inIo a && !Config.yIoExternal (Fin.ofNat 8 (a.toNat / 16))) || (s.inTop a && !Config.yTopExternal)

/-- Is the access external (20_memory R106)? -/
def State.dataExternal (s : State) (sp : Space) (a : Word) : Bool :=
  !s.internalIo sp a && !s.inModules a && (s.inIo a || s.inTop a || !s.inRam sp a)

/-- Do all 24 bits of `a` reach the external bus, or those that do not make no difference (`EXT_ADDR_LINES`, D23)? -/
def fewLines (a : Word) : Bool := decide (a.toNat < 2 ^ 18) || Config.extAddrLines24

/-- The key of a memory word. Internal RAM in Sixteen-bit Compatibility mode ignores the eight MSBs. On a device with 18
address lines an external word has the key of its 18 low bits, 2^24 above it where internal RAM hides that address
(D23). An address that is internal RAM in one mode and external in another keeps one key (DESIGN CHOICE, log 3). -/
def State.dataKey (s : State) (sp : Space) (a : Word) : Nat :=
  if s.sc && s.inRam sp a then s.mapAddr a
  else if fewLines a || !s.dataExternal sp a then a.toNat
  else if s.inRam sp (a &&& 0x03FFFF#24) then 2 ^ 24 + a.toNat % 2 ^ 18
  else a.toNat % 2 ^ 18

/-! ## Program memory -/

/-- $FF0000 to $FFFFFF, the bootstrap ROM and what is reserved for program ROM modules (20_memory R104). -/
def State.pInModules (s : State) (a : Word) : Bool := !s.sc && decide (0xFF0000 ≤ a.toNat)
/-- The bootstrap ROM (20_memory R104). -/
def State.pInBoot (s : State) (a : Word) : Bool :=
  s.pInModules a && decide (a.toNat ≤ if Config.bigBootRom then 0xFF0C00 else 0xFF00BF)
/-- Program ROM: the bootstrap ROM or a module (20_memory R104; D20, D21). -/
def State.pInRom (s : State) (a : Word) : Bool := s.pInModules a && (s.pInBoot a || Config.pRomAt a)
/-- The 1024 words that the cache takes while CE = 1 (20_memory R104; 48_cache R540). -/
def State.inCacheWords (s : State) (a : Word) : Bool :=
  decide (Config.icacheStart.val ≤ s.mapAddr a) && decide (s.mapAddr a < Config.icacheStart.val + 1024)
/-- Those words while they are external memory (48_cache R540). -/
def State.pInCacheRange (s : State) (a : Word) : Bool := s.ce && s.inCacheWords a
/-- Internal program RAM, of which the cache's words are a part (20_memory R104; D20, D26). -/
def State.pInRam (s : State) (a : Word) : Bool :=
  !s.pInCacheRange a &&
    (decide (s.mapAddr a < (Config.pRamSize s.memSwitch.1 s.memSwitch.2).val) || s.inCacheWords a)
/-- External program memory (20_memory R106). -/
def State.pExternal (s : State) (a : Word) : Bool := !s.pInModules a && !s.pInRam a

/-- Where a program word is listed: in `pExt` (true) or `p`, and its key. External words that internal memory of the same
address hides are in `pExt` (48_cache R540; D23); an address that a change of mode makes internal or external keeps its
place (DESIGN CHOICE, log 3). -/
def State.pPlace (s : State) (a : Word) : Bool × Nat :=
  if s.pInCacheRange a then (true, if fewLines a then a.toNat else a.toNat % 2 ^ 18)
  else if s.sc && s.pInRam a then (false, s.mapAddr a)
  else if fewLines a || !s.pExternal a then (false, a.toNat)
  else (s.pInRam (a &&& 0x03FFFF#24) || s.pInCacheRange (a &&& 0x03FFFF#24), a.toNat % 2 ^ 18)

/-! ## The spaces of the DMA (62_devices R701) -/

/-- A space of a DMA transfer, DSS and DDS (62_devices R701). -/
inductive DmaSpace | data (sp : Space) | program
deriving DecidableEq, Repr

/-- The space of a code; 11 is reserved (U49). -/
def dmaSpace (c : BitVec 2) : Option DmaSpace :=
  match c.toNat with
  | 0 => some (.data .x)
  | 1 => some (.data .y)
  | 2 => some .program
  | _ => none

/-- Is the access external (20_memory R106)? -/
def State.dmaExternal (s : State) (sp : DmaSpace) (a : Word) : Bool :=
  match sp with
  | .data d => s.dataExternal d a
  | .program => s.pExternal a

end Sys2Proof.Machine
end

