-- ==== Sys2Proof/Machine/Io.lean ====
section
/-!
DEFINITION. The core's memory-mapped registers (10_state R65; 62_devices R670): what a read answers and what a write
does. DMA channel programming is here, the transfers are in Dma.lean.
-/
namespace Sys2Proof.Machine

/-! ## Interrupt flags (60_exceptions R562 to R565) -/

/-- Pending flag `k` set or cleared (60_exceptions R562). -/
def State.setPend (s : State) (k : Nat) (b : Bool) : State :=
  { s with irq := { s.irq with pend := setBit s.irq.pend k b } }

/-- The enable and level field IxL1:IxL0 of IRQ pin `i`, 0 to 3 (60_exceptions R564). -/
def irqField (iprc : Word) (i : Nat) : Nat := iprc.toNat / 2 ^ (3 * i) % 4
/-- IxL2: is IRQ pin `i` edge-triggered (60_exceptions R564)? -/
def irqEdge (iprc : Word) (i : Nat) : Bool := iprc.getLsbD (3 * i + 2)
/-- The level field DcL of DMA channel `c` (60_exceptions R564). -/
def dmaIprField (iprc : Word) (c : Nat) : Nat := iprc.toNat / 2 ^ (12 + 2 * c) % 4

/-- Does IRQ pin `i` keep an edge latch: enabled and edge-triggered (60_exceptions R563)? -/
def irqLatches (iprc : Word) (i : Nat) : Bool := irqField iprc i != 0 && irqEdge iprc i

/-- The edge latches of IRQA to IRQD (pending flags 8 to 11) that a new IPRC keeps (60_exceptions R563). -/
def irqKeep (iprc : Word) : BitVec 128 :=
  ~~~(bitAt 128 8 (!irqLatches iprc 0) ||| bitAt 128 9 (!irqLatches iprc 1) |||
      bitAt 128 10 (!irqLatches iprc 2) ||| bitAt 128 11 (!irqLatches iprc 3))

/-- IPRC written: a pin that is disabled, or level-sensitive, holds no latch (60_exceptions R563, R564). -/
def State.writeIprc (s : State) (v : Word) : State :=
  { s with irq := { s.irq with iprc := v, pend := s.irq.pend &&& irqKeep v } }

/-! ## DMA channels (62_devices R701 to R711) -/

/-- DE (62_devices R701). -/
def dcrDe (d : Word) : Bool := d.getLsbD 23
/-- DIE. -/
def dcrDie (d : Word) : Bool := d.getLsbD 22
/-- DTM. -/
def dcrDtm (d : Word) : BitVec 3 := d.extractLsb' 19 3
/-- DPR. -/
def dcrDpr (d : Word) : BitVec 2 := d.extractLsb' 17 2
/-- DCON. -/
def dcrDcon (d : Word) : Bool := d.getLsbD 16
/-- DRS. -/
def dcrDrs (d : Word) : BitVec 5 := d.extractLsb' 11 5

/-- One word per request: DTM = 001 or 101 (62_devices R702). -/
def wordMode (dcr : Word) : Bool := dcrDtm dcr == 1#3 || dcrDtm dcr == 5#3

/-- Has the channel a word to move: triggered while enabled, started by DE alone, or stopping (62_devices R707)? -/
def DmaChannel.ready (c : DmaChannel) : Bool :=
  (dcrDe c.dcr && (c.trig || dcrDtm c.dcr == 3#3)) || c.stopping

/-- Is the channel in the middle of a transfer: of a unit of which a word has been moved, of a block that DE alone has started, or
of the word that stopping it lets complete (62_devices R707, R710)? A trigger that is merely latched is no transfer yet (DEDUCED,
log 46). -/
def DmaChannel.inTransfer (c : DmaChannel) : Bool := c.ready && (c.busy || dcrDtm c.dcr == 3#3 || c.stopping)

/-- Channel `n` replaced. -/
def State.withChannel (s : State) (n : Fin 6) (c : DmaChannel) : State :=
  { s with dma := { s.dma with ch := s.dma.ch.set n c } }

/-- DTD bit `n` written (62_devices R710). -/
def State.setDtd (s : State) (n : Fin 6) (b : Bool) : State :=
  { s with dma := { s.dma with dtd := setBit s.dma.dtd n b } }

/-- The interrupt request of DMA channel `n`, if DIE (62_devices R711). -/
def State.dmaInterrupt (s : State) (n : Fin 6) (dcr : Word) : State :=
  if dcrDie dcr then s.setPend (12 + n) true else s

/-- Has channel `n` read a word that it has not yet written (62_devices R709)? -/
def State.dmaHolds (s : State) (n : Fin 6) : Bool :=
  match s.dma.held with
  | some h => h.1 == n
  | none => false

/-- DCRn written (62_devices R701, R707). Setting DE clears DTD and enables the channel; a word still in flight from before
completes first, and is no trigger's (DESIGN CHOICE, log 46). Clearing DE while the channel is active lets the word in flight
complete (a free choice in the block and line modes where none is read yet: log 18), then DTD and, with DIE, an interrupt.
With nothing to move DTD is set at once, and an interrupt is requested if that asserts it (60_exceptions R577). -/
def State.writeDcr (s : State) (n : Fin 6) (v : Word) : State :=
  let c := s.dma.ch[n]
  let off := dcrDe c.dcr && !dcrDe v
  let changed := dcrDe c.dcr && (c.dcr ^^^ v) &&& 0x7FFFFF#24 != 0
  if !dcrDe c.dcr && dcrDe v then
    (s.withChannel n { c with dcr := v, trig := false, busy := false, upset := c.upset && c.stopping }).setDtd n false
  else if off && (s.dmaHolds n || c.ready && (wordMode c.dcr || s.freeBit .dmaTurn 1)) then
    s.withChannel n { c with dcr := v, stopping := true, upset := c.upset || changed }
  else if off then
    let t := (s.withChannel n { c with dcr := v, trig := false, busy := false }).setDtd n true
    if s.dma.dtd.getLsbD n.val && !c.ready then t else t.dmaInterrupt n v
  else s.withChannel n { c with dcr := v, upset := c.upset || changed }

/-- DSRn, DDRn or DCOn written (62_devices R700, R707): while the channel is busy its operation is no longer
guaranteed (U48). -/
def State.writeDmaAddr (s : State) (n : Fin 6) (f : Nat) (v : Word) : State :=
  let c := { s.dma.ch[n] with upset := s.dma.ch[n].upset || s.dma.ch[n].ready }
  match f with
  | 0 => s.withChannel n { c with dsr := v }
  | 1 => s.withChannel n { c with ddr := v }
  | _ => s.withChannel n { c with dco := v, preload := v }

/-- The channels from the one after `last` round to `last` itself (62_devices R708). -/
def channelsAfter (last : Fin 6) : List (Fin 6) := [last + 1, last + 2, last + 3, last + 4, last + 5, last]

/-- The channel that moves next (62_devices R708): the highest DPR; among equals a channel in a continuous transfer, else
round robin. -/
def State.pickOf (s : State) (ok : Fin 6 → Bool) : Option (Fin 6) :=
  let r := (channelsAfter s.dma.last).filter ok
  let top := r.foldl (fun m n => max m (dcrDpr s.dma.ch[n].dcr).toNat) 0
  let best := r.filter fun n => (dcrDpr s.dma.ch[n].dcr).toNat == top
  match best.find? fun n => s.dma.ch[n].busy && dcrDcon s.dma.ch[n].dcr with
  | some n => some n
  | none => best.head?

/-- The channel whose word is next: one that has read and not yet written ("it is not possible for Channel 1 to commence
its source read before Channel 0 completes its destination write", 62_devices R708), else the one that arbitration picks
among those that have a word to move. -/
def State.dmaActive (s : State) : Option (Fin 6) :=
  match s.dma.held with
  | some h => some h.1
  | none => s.pickOf fun n => s.dma.ch[n].ready

/-- Is the source or the destination of channel `n` external memory (20_memory R106)? -/
def State.channelExternal (s : State) (n : Fin 6) : Bool :=
  let c := s.dma.ch[n]
  (match dmaSpace (c.dcr.extractLsb' 0 2) with | some sp => s.dmaExternal sp c.dsr | none => false) ||
    (match dmaSpace (c.dcr.extractLsb' 2 2) with | some sp => s.dmaExternal sp c.ddr | none => false)

/-- Is the DMA in the middle of a transfer: of a word it has read and not yet written, or of a channel's (62_devices R710)? -/
def State.dmaInTransfer (s : State) : Bool :=
  s.dma.held.isSome || [(0 : Fin 6), 1, 2, 3, 4, 5].any fun n => s.dma.ch[n].inTransfer

/-- DSTR (62_devices R710): the DTD bits, DACT, and DCH. DACT is 1 in the middle of a transfer, and 0 where no channel has a word
to move; where a channel has latched a trigger and not begun, of which R710 says neither, a free bit (DESIGN CHOICE, log 46). When
activity has passed to another channel and external memory is accessed, channel 0 may be shown for it (the sources' erratum): a
free bit. -/
def State.dstr (s : State) : Word :=
  match s.dmaActive with
  | none => s.dma.dtd.setWidth 24
  | some n =>
    let latched := !s.dmaInTransfer && s.freeBit .dmaChannel 1
    let wrong := n != s.dma.last && s.channelExternal n && s.freeBit .dmaChannel 0
    if latched then s.dma.dtd.setWidth 24
    else s.dma.dtd.setWidth 24 ||| 0x000100#24 ||| BitVec.ofNat 24 ((if wrong then 0 else n.val) * 2 ^ 9)

/-! ## The register file at the top of X memory -/

/-- The bits of the DRAM control register that read back (62_devices R685). BSTR, bit 14, waits for its refresh while
OMR[EBD] = 1 (R689) and is cleared by it else (log 21). -/
def dcrDramMask (ebd : Bool) : Word := if ebd then 0xFFFB0F#24 else 0xFFBB0F#24

/-- A read of core register `k` may answer the bits `m` of `w` until `n` instructions have ended, the one that writes
included (20_memory R141, R142; U45; log 60). What earlier writes left is still there. -/
def State.withEcho (s : State) (k : Nat) (m w : Word) (n : Nat) : State :=
  if m = 0 then s else { s with ctl := { s.ctl with echo := ⟨k, m, w, n⟩ :: s.ctl.echo } }

/-- The content of core register `k`, the low seven bits of its address, $58 to $7F (10_state R65; 62_devices R670). -/
def State.coreReg (s : State) (k : Nat) : Word :=
  if k = 0x7F then s.irq.iprc
  else if k = 0x7E then s.irq.iprp
  else if k = 0x7D then s.port.pctl
  else if k = 0x7C then s.freeWord .debugLatch 0          -- 61_debug R641; U46
  else if k = 0x7B then s.port.bcr ||| 0x200000#24        -- BBS reads 1: D51
  else if k = 0x7A then (if Config.hasDramCtrl then s.port.dcr else s.freeWord .absentX 0)
  else if 0x76 ≤ k then s.port.aar[Fin.ofNat 4 (0x79 - k)]
  else if k = 0x75 then Config.idr
  else if k = 0x74 then s.dstr
  else if 0x70 ≤ k then s.dma.dor[Fin.ofNat 4 (0x73 - k)]
  else
    let c := s.dma.ch[Fin.ofNat 6 ((0x6F - k) / 4)]
    match (0x6F - k) % 4 with
    | 0 => c.dsr
    | 1 => c.ddr
    | 2 => c.dco
    | _ => c.dcr

/-- A word with the bits `mask` of an echo in it. -/
def Echo.over (e : Echo) (v : Word) : Word := (v &&& ~~~e.mask) ||| (e.value &&& e.mask)

/-- A read of core register `k`: its content, and by a free bit for each the bits that an echo of it still answers (20_memory
R141, R142; U45). -/
def State.readCoreReg (s : State) (k : Nat) : Word :=
  s.ctl.echo.zipIdx.foldr
    (fun p v => if p.1.reg == k && (s.free .lateStatus 0).getLsbD p.2 then p.1.over v else v) (s.coreReg k)

/-- AAR `i` replaced. -/
def State.setAar (s : State) (i : Fin 4) (v : Word) : State := { s with port := { s.port with aar := s.port.aar.set i v } }
/-- DOR `i` replaced. -/
def State.setDor (s : State) (i : Fin 4) (v : Word) : State := { s with dma := { s.dma with dor := s.dma.dor.set i v } }

/-- A write of a register of DMA channel `n`: register `f` of its four. DTD follows DE being set "only after an additional
three instruction cycles" (62_devices R710); the other bits of DSTR that the write changes follow it by two (20_memory
R141). -/
def State.writeDmaReg (s : State) (n : Fin 6) (f : Nat) (v : Word) : State :=
  if f = 3 then
    let t := s.writeDcr n v
    let d := s.dstr ^^^ t.dstr
    (t.withEcho 0x74 (d &&& 0x00003F#24) s.dstr (if dcrDe v then 4 else 3)).withEcho 0x74 (d &&& 0x000F00#24) s.dstr 3
  else s.writeDmaAddr n f v

/-- The DRAM control register written (62_devices R685). BSTR alone may still read as it was written (20_memory R141). -/
def State.writeDramCtrl (s : State) (v : Word) : State :=
  let t := { s with port := { s.port with dcr := v &&& dcrDramMask s.ebd } }
  if v.getLsbD 14 && !s.ebd then t.withEcho 0x7A 0x004000#24 0x004000#24 3 else t

/-- A write of core register `k` (10_state R65; 62_devices R670). IDR and DSTR are read-only. -/
def State.writeCoreReg (s : State) (k : Nat) (v : Word) : State :=
  if k = 0x7F then s.writeIprc v
  else if k = 0x7E then { s with irq := { s.irq with iprp := v } }
  else if k = 0x7D then { s with port := { s.port with pctl := v } }
  else if k = 0x7C then { s with once := { s.once with ogdbr := v } }
  else if k = 0x7B then
    { s with port := { s.port with bcr := v &&& (if Config.hasBlh then 0xDFFFFF#24 else 0x9FFFFF#24) } }
  else if k = 0x7A then (if Config.hasDramCtrl then s.writeDramCtrl v else s)
  else if 0x76 ≤ k then s.setAar (Fin.ofNat 4 (0x79 - k)) v
  else if k = 0x75 then s.withEcho k 0xFFFFFF#24 v 3
  else if k = 0x74 then s.withEcho k 0xFFFFFF#24 v 3
  else if 0x70 ≤ k then s.setDor (Fin.ofNat 4 (0x73 - k)) v
  else s.writeDmaReg (Fin.ofNat 6 ((0x6F - k) / 4)) ((0x6F - k) % 4) v

end Sys2Proof.Machine
end

