-- ==== Sys2Proof/Machine/Bus.lean ====
section
/-!
DEFINITION. Memory accesses by the address map of Map.lean (20_memory R100 to R108; 48_cache R543, R556): X and Y data,
program memory, instruction fetch through the cache. A read of a place that nothing answers is a free value (U40).
-/
namespace Sys2Proof.Machine

/-! ## X and Y data memory -/

/-- The list that holds a data space. -/
def State.dataMem (s : State) : Space → Mem
  | .x => s.mem.x
  | .y => s.mem.y

/-- A data space replaced. -/
def State.withDataMem (s : State) (sp : Space) (m : Mem) : State :=
  match sp with
  | .x => { s with mem := { s.mem with x := m } }
  | .y => { s with mem := { s.mem with y := m } }

/-- The free value of a read of address `a` that nothing answers: one for each address and each step. -/
def State.absentAt (s : State) (site : FreeSite) (a : Word) : Word :=
  (Config.free site (2 ^ 24 * s.ctl.freeCtr + a.toNat)).setWidth 24

/-- That of a data space. -/
def State.absent (s : State) (sp : Space) (a : Word) : Word :=
  match sp with
  | .x => s.absentAt .absentX a
  | .y => s.absentAt .absentY a

/-- A data read by the core (20_memory R100). With OMR[EBD] = 1 an external word cannot be accessed: a free value, and
`step` stops at the instruction (U14, log 20). -/
def State.readData (s : State) (sp : Space) (a : Word) : Word :=
  if s.internalIo sp a then
    (if sp == .x && s.inIo a && decide (0x58 ≤ a.toNat % 128) then s.readCoreReg (a.toNat % 128) else s.absent sp a)
  else if s.inRom sp a then (match sp with | .x => Config.xRom a | .y => Config.yRom a)
  else if s.inVoid sp a || (s.ebd && s.dataExternal sp a) then s.absent sp a
  else (s.dataMem sp).read (s.dataKey sp a)

/-- A data write by the core (20_memory R101): dropped where nothing takes it. -/
def State.writeData (s : State) (sp : Space) (a w : Word) : State :=
  if s.internalIo sp a then
    (if sp == .x && s.inIo a && decide (0x58 ≤ a.toNat % 128) then s.writeCoreReg (a.toNat % 128) w else s)
  else if s.inRom sp a || s.inVoid sp a || (s.ebd && s.dataExternal sp a) then s
  else s.withDataMem sp ((s.dataMem sp).write (s.dataKey sp a) w)

/-! ## Program memory -/

/-- The program memory list: external words that internal memory of the same address hides, or all others. -/
def State.pMem (s : State) (ext : Bool) : Mem := if ext then s.mem.pExt else s.mem.p

/-- That list replaced. -/
def State.withPMem (s : State) (ext : Bool) (m : Mem) : State :=
  if ext then { s with mem := { s.mem with pExt := m } } else { s with mem := { s.mem with p := m } }

/-- The word that program memory itself holds, whatever the cache does. -/
def State.pRaw (s : State) (a : Word) : Word :=
  if s.pInModules a then (if s.pInRom a then Config.pRom a else s.absentAt .absentP a)
  else (s.pMem (s.pPlace a).1).read (s.pPlace a).2

/-- That word replaced; ROM keeps its own. -/
def State.pRawWrite (s : State) (a w : Word) : State :=
  if s.pInModules a then s
  else s.withPMem (s.pPlace a).1 ((s.pMem (s.pPlace a).1).write (s.pPlace a).2 w)

/-- Fewer than seven instruction words between the writing of P:`a` and this fetch, the `k`-th word of its instruction
(70_reset R749; D7; U44)? -/
def State.tooSoon (s : State) (a : Word) (k : Nat) : Bool :=
  s.ctl.hist.pWrites.any fun p => (p.1, p.2.1) == s.pPlace a && decide (p.2.2 + k < 7)

/-- A place of program memory written: it may not be executed within the next seven words (70_reset R749). -/
def State.notePWrite (s : State) (a : Word) : State :=
  let p := s.pPlace a
  let l := s.ctl.hist.pWrites.filter fun q => (q.1, q.2.1) != p
  if s.pInModules a then s
  else { s with ctl := { s.ctl with hist := { s.ctl.hist with pWrites := (p.1, p.2, 0) :: l } } }

/-! ## The instruction cache (48_cache R541, R543) -/

/-- The eight sectors. -/
def sectors : List (Fin 8) := [0, 1, 2, 3, 4, 5, 6, 7]

/-- TAG of an address (48_cache R541). -/
def cacheTag (a : Word) : BitVec 17 := a.extractLsb' 7 17
/-- VBIT of an address. -/
def cacheVbit (a : Word) : Nat := a.toNat % 128

/-- The lowest sector whose tag is that of `a` (48_cache R543; D40). -/
def ICache.find (c : ICache) (a : Word) : Option (Fin 8) := sectors.find? fun s => c.tag[s] == cacheTag a

/-- Is the word `v` of sector `s` valid? -/
def ICache.isValid (c : ICache) (s : Fin 8) (v : Nat) : Bool := c.valid[s].getLsbD v

/-- The least recently used unlocked sector (48_cache R543). -/
def ICache.victim (c : ICache) : Option (Fin 8) := (c.lru.filter fun (s : Fin 8) => !c.lock.getLsbD s.val).getLast?

/-- Sector `s` made most recently used. -/
def ICache.touch (c : ICache) (s : Fin 8) : ICache := { c with lru := s :: c.lru.filter fun t => t != s }

/-- Sector `s` given to the memory sector of `a`, empty. -/
def ICache.take (c : ICache) (s : Fin 8) (a : Word) : ICache :=
  { c with tag := c.tag.set s (cacheTag a), valid := c.valid.set s 0 }

/-- One word put into sector `s`, and marked valid. -/
def ICache.put (c : ICache) (s : Fin 8) (a w : Word) : ICache :=
  { c with data := c.data.write (128 * s.val + cacheVbit a) w
           valid := c.valid.set s (setBit c.valid[s] (cacheVbit a) true) }

/-- The word of sector `s` at `a`. -/
def ICache.get (c : ICache) (s : Fin 8) (a : Word) : Word := c.data.read (128 * s.val + cacheVbit a)

/-- The addresses a miss fetches (48_cache Table 8-1). -/
def fillAddrs (burst : Bool) (a : Word) : List Word :=
  if burst then (List.range (4 - a.toNat % 4)).map fun i => a + BitVec.ofNat 24 i else [a]

/-- `fill(s, a)` (48_cache R543). -/
def State.fill (s : State) (c : ICache) (sec : Fin 8) (a : Word) : ICache :=
  (fillAddrs s.burst a).foldl (fun c b => c.put sec b (s.pRaw b)) c

/-- The cache with its new content. -/
def State.withCache (s : State) (c : ICache) : State := { s with cache := c }

/-- An instruction fetch of an external address with CE = 1 (48_cache R543). `none`: it needs the bus and OMR[EBD] = 1. -/
def State.fetchCached (s : State) (a : Word) : Option (Word × State) :=
  match s.cache.find a with
  | some sec =>
    if s.cache.isValid sec (cacheVbit a) then some (s.cache.get sec a, s.withCache (s.cache.touch sec))
    else if s.ebd then none
    else
      let c := (s.fill s.cache sec a).touch sec
      some (c.get sec a, s.withCache c)
  | none =>
    if s.ebd then none
    else
      match s.cache.victim with
      | none => some (s.pRaw a, s)                                  -- all eight sectors locked: D39
      | some sec =>
        let c := (s.fill (s.cache.take sec a) sec a).touch sec
        some (c.get sec a, s.withCache c)

/-- An instruction fetch (20_memory R102; 48_cache R543). `none`: an external fetch with OMR[EBD] = 1 (U14). -/
def State.fetch (s : State) (a : Word) : Option (Word × State) :=
  if s.ce && s.pExternal a then s.fetchCached a
  else if s.ebd && s.pExternal a then none
  else some (s.pRaw a, s)

/-- Does a fetch or a read of `a` find a valid word in the cache (48_cache R543, R556)? -/
def State.cacheHit (s : State) (a : Word) : Bool :=
  match s.cache.find a with
  | some sec => s.cache.isValid sec (cacheVbit a)
  | none => false

/-- A read of program memory by a move (48_cache R556): a valid cached word is read from the cache, no cache state
changes. -/
def State.readP (s : State) (a : Word) : Word :=
  let raw := if s.ebd && s.pExternal a then s.absentAt .absentP a else s.pRaw a
  if s.ce && s.pExternal a then
    match s.cache.find a with
    | some sec => if s.cache.isValid sec (cacheVbit a) then s.cache.get sec a else raw
    | none => raw
  else raw

/-- A write of program memory by a move (48_cache R556): a sector hit updates the cached word too. With OMR[EBD] = 1 an
external word cannot be accessed: nothing changes, the cached word neither, and `step` stops at the instruction (U14,
log 20). -/
def State.writeP (s : State) (a w : Word) : State :=
  if s.ebd && s.pExternal a then s
  else if s.ce && s.pExternal a then
    match s.cache.find a with
    | some sec => (s.pRawWrite a w).withCache (s.cache.put sec a w)
    | none => s.pRawWrite a w
  else s.pRawWrite a w

/-! ## Leaving Cache mode (48_cache R545) -/

/-- PFLUSH's change of the cache (48_cache R542, R550). `data` is not touched. -/
def ICache.flush (c : ICache) : ICache :=
  { c with tag := Vector.replicate 8 0x1FFFF#17, valid := Vector.replicate 8 0, lock := 0, lru := sectors }

/-- The cache RAM as program RAM again: its content is free (48_cache R541; U21). -/
def State.scrambleCacheRam (s : State) : State :=
  let put (m : Mem) (i : Nat) : Mem :=
    m.write (Config.icacheStart.val + i) ((Config.free .cacheRam (1024 * s.ctl.freeCtr + i)).setWidth 24)
  { s with mem := { s.mem with p := (List.range 1024).foldl put s.mem.p } }

/-- What a change of SR does besides: CE going from 1 to 0 flushes the cache (48_cache R545). -/
def State.leaveCacheMode (s : State) : State := (s.withCache s.cache.flush).scrambleCacheRam

/-- SR written by any means, `v` without its reserved bits 18 and 12 (10_state R30). -/
def State.writeSr (s : State) (v : Word) : State :=
  let w := v &&& 0xFBEFFF#24
  if s.ce && !w.getLsbD 19 then (s.withSr w).leaveCacheMode else s.withSr w

/-- The OMR bits the device implements (10_state R28, R29; D25): bit 5 is reserved. -/
def omrMask : Word :=
  0x1F3FDF#24 ||| bitAt 24 23 Config.hasPen ||| (if Config.hasMsw then 0x600000#24 else 0) |||
  bitAt 24 15 Config.hasAte ||| bitAt 24 14 Config.hasApd

/-- The refresh that waits for the bus is made once OMR[EBD] is cleared: BSTR is cleared (62_devices R685, R689). -/
def State.refresh (s : State) : State := { s with port := { s.port with dcr := s.port.dcr &&& 0xFFBFFF#24 } }

/-- OMR written (10_state R28, R29). That it sets EOV or EUN raises no Stack Error: the flags are written, and 10_state R64
raises the interrupt at a push or a pull (DESIGN CHOICE, log 63). The memory switch acts at once; changed while SR[CE] = 1 it is
UNDEFINED, and `step` refuses the instruction (`State.badResult`; 70_reset R750; U17). -/
def State.writeOmr (s : State) (v : Word) : State :=
  if s.ebd && !v.getLsbD 4 then (s.withOmr (v &&& omrMask)).refresh else s.withOmr (v &&& omrMask)

end Sys2Proof.Machine
end

