-- ==== Sys2Proof/Machine/Stack.lean ====
section
/-!
DEFINITION. The system stack and its extension into data memory (10_state R56 to R64; 92_eei_decisions D3, D4, D5).
-/
namespace Sys2Proof.Machine

/-- The stack location the SP points to (10_state R56). -/
def State.slot (s : State) : Fin 16 := Fin.ofNat 16 s.pcu.sp.toNat

/-- SSH as it stands. -/
def State.ssh (s : State) : Word := s.pcu.ssh[s.slot]
/-- SSL as it stands. -/
def State.ssl (s : State) : Word := s.pcu.ssl[s.slot]

/-- SP replaced. -/
def State.withSp (s : State) (v : Word) : State := { s with pcu := { s.pcu with sp := v } }
/-- The stack counter SC replaced. -/
def State.withSc (s : State) (v : BitVec 5) : State := { s with pcu := { s.pcu with sc := v } }
/-- Location `i`'s high half replaced. -/
def State.setSsh (s : State) (i : Fin 16) (v : Word) : State := { s with pcu := { s.pcu with ssh := s.pcu.ssh.set i v } }
/-- Location `i`'s low half replaced. -/
def State.setSsl (s : State) (i : Fin 16) (v : Word) : State := { s with pcu := { s.pcu with ssl := s.pcu.ssl.set i v } }

/-- A Stack Error interrupt is requested (60_exceptions R568). -/
def State.stackError (s : State) : State := s.setPend 1 true

/-- The SP six bits at a time, without the extension: `d` is 1 or -1 as six bits (10_state R60, R61). While SE is set
only P[3:0] count. -/
def spCount (sp : Word) (d : BitVec 6) : Word :=
  let old := sp.extractLsb' 0 6
  let new := if sp.getLsbD 4 then old.extractLsb' 4 2 ++ (old + d).extractLsb' 0 4 else old + d
  sp.extractLsb' 6 18 ++ new

/-- One entry, the least recently used, moves to data memory at EP: high half first (10_state R64; D5). EP counts on all 24
bits in Sixteen-bit Compatibility mode too (DESIGN CHOICE, log 56). -/
def State.spill (s : State) : State :=
  let i := Fin.ofNat 16 (s.pcu.sp.toNat + 33 - s.pcu.sc.toNat)
  let s1 := s.withOmr (s.pcu.omr ||| 0x080000#24)
  let s2 := s1.writeData s.xys s.agu.ep s.pcu.ssh[i]
  let s3 := s2.writeData s.xys (s.agu.ep + 1) s.pcu.ssl[i]
  { s3 with agu := { s3.agu with ep := s3.agu.ep + 2 }, pcu := { s3.pcu with sc := s3.pcu.sc - 1 } }

/-- One entry comes back from data memory below EP (10_state R64; D5). EP counts on all 24 bits (DESIGN CHOICE, log 56). -/
def State.refill (s : State) : State :=
  let i := Fin.ofNat 16 (s.pcu.sp.toNat + 32 - s.pcu.sc.toNat)
  let h := s.readData s.xys (s.agu.ep - 2)
  let l := s.readData s.xys (s.agu.ep - 1)
  let s1 := (s.setSsh i h).setSsl i l
  { s1 with agu := { s1.agu with ep := s1.agu.ep - 2 }, pcu := { s1.pcu with sc := s1.pcu.sc + 1 } }

/-- The stack extension hardware, once (10_state R59, R64): a full stack spills, an empty one with entries in memory
refills. -/
def State.balance (s : State) : State :=
  if s.sen then
    if 14 < s.pcu.sc.toNat then s.spill
    else if s.pcu.sc.toNat < 2 ∧ s.pcu.sc.toNat < s.pcu.sp.toNat then s.refill
    else s
  else s

/-- SP stepped up for a push, with the error checks (10_state R60, R64). -/
def State.spUp (s : State) : State :=
  if s.sen then
    let s1 := if s.pcu.sp = s.pcu.sz then
        (if s.omrBit 18 then s else s.stackError).withOmr (s.pcu.omr ||| 0x040000#24)
      else s
    s1.withSp (s.pcu.sp + 1)
  else
    let sp := spCount s.pcu.sp 1
    (if !s.pcu.sp.getLsbD 4 && sp.getLsbD 4 then s.stackError else s).withSp sp

/-- SP stepped down for a pull, with the error checks (10_state R61, R64). -/
def State.spDown (s : State) : State :=
  if s.sen then
    let s1 := if s.pcu.sp = 0 then
        (if s.omrBit 17 then s else s.stackError).withOmr (s.pcu.omr ||| 0x020000#24)
      else s
    s1.withSp (s.pcu.sp - 1)
  else
    let sp := spCount s.pcu.sp 0x3F#6
    (if !s.pcu.sp.getLsbD 4 && sp.getLsbD 4 then s.stackError else s).withSp sp

/-- A push's spill: only a full stack (10_state R64). -/
def State.afterPush (s : State) : State := if s.sen && decide (14 < s.pcu.sc.toNat) then s.spill else s

/-- A pull's refill: only an empty stack with entries in memory (10_state R64). -/
def State.afterPull (s : State) : State :=
  if s.sen && decide (s.pcu.sc.toNat < 2) && decide (s.pcu.sc.toNat < s.pcu.sp.toNat) then s.refill else s

/-- `push(h, l)` (10_state R60, R64). -/
def State.push (s : State) (h l : Word) : State :=
  let s1 := s.spUp
  (((s1.setSsh s1.slot h).setSsl s1.slot l).withSc (s.pcu.sc + 1)).afterPush

/-- The state after `pull()`; what it returns is `s.ssh`, `s.ssl` (10_state R61, R64). -/
def State.pop (s : State) : State := ((s.spDown).withSc (s.pcu.sc - 1)).afterPull

/-- SSH as a destination: the SP goes up and the high half alone is written (10_state R62). -/
def State.pushHigh (s : State) (h : Word) : State :=
  let s1 := s.spUp
  ((s1.setSsh s1.slot h).withSc (s.pcu.sc + 1)).afterPush

end Sys2Proof.Machine
end

