-- ==== Sys2Proof/Machine/Operands.lean ====
section
/-!
DEFINITION. Operands: address arithmetic and effective addresses (20_memory R115 to R131), reads and writes of every
register by a move (40_alu_common R212 to R218, R231, R233; 46_move R440), conditions (30_encoding R160).
-/
namespace Sys2Proof.Machine

/-! ## Address arithmetic (20_memory R120 to R125, R131) -/

/-- `zext_24(w[15:0])` (20_memory R131). -/
def low16 (w : Word) : Word := w &&& 0x00FFFF#24

/-- `r` or, in Sixteen-bit Compatibility mode, its sixteen LSBs (20_memory R131). -/
def scMask (sc : Bool) (r : Word) : Word := if sc then low16 r else r

/-- The signed offset `d`: in Sixteen-bit Compatibility mode its sign is bit 15 (20_memory R131). -/
def offsetOf (sc : Bool) (d : Word) : Word := if sc then (d.extractLsb' 0 16).signExtend 24 else d

/-- Reverse-carry addition or subtraction (20_memory R121). -/
def revStep (r d : Word) (minus : Bool) : Word :=
  (if minus then r.reverse - d.reverse else r.reverse + d.reverse).reverse

/-- Modulo M, `mm` = M - 1, 1 to 32767 (20_memory R124). `none`: the spec defines no result. -/
def moduloStep (mm : Nat) (r : Word) (s : Int) : Option Word :=
  let blk := 2 ^ (Nat.log2 mm + 1)
  let off := r.toNat % blk
  if mm < off then none
  else if s.natAbs ≤ mm + 1 then
    let t := off + s
    let t := if (mm : Int) < t then t - (mm + 1) else t
    let t := if t < 0 then t + (mm + 1) else t
    some (BitVec.ofInt 24 ((r.toNat - off : Nat) + t))
  else if s % blk = 0 then some (r + BitVec.ofInt 24 s)
  else none

/-- Multiple wrap-around modulo `blk` = 2^k (20_memory R125). -/
def wrapStep (blk : Nat) (r : Word) (s : Int) : Word :=
  BitVec.ofInt 24 ((r.toNat - r.toNat % blk : Nat) + ((r.toNat % blk : Nat) + s) % blk)

/-- `upd(n, d)` for R[n] = `r`, M[n] = `m` and the offset `d`, subtracted if `minus` (20_memory R121, R131). `none`: a
reserved modifier, a pointer outside its buffer, an offset too large, or an address register with non-zero MSBs in
Sixteen-bit Compatibility mode (U12, U13, R124). -/
def aguStep (sc : Bool) (m r d : Word) (minus : Bool) : Option Word :=
  let mm := (m.extractLsb' 0 16).toNat
  let d' := offsetOf sc d
  let x := if minus then -d' else d'
  if sc && r.extractLsb' 16 8 != 0 then none
  else if mm = 0 then some (scMask sc (revStep r (scMask sc d) minus))
  else if mm = 0xFFFF then some (scMask sc (r + x))
  else if mm < 0x8000 then (moduloStep mm r x.toInt).map (scMask sc)
  else if 0x8001 ≤ mm && decide (mm < 0xC000) && (mm - 0x7FFF) &&& (mm - 0x8000) == 0 then
    some (scMask sc (wrapStep (mm - 0x7FFF) r x.toInt))
  else none

/-- `upd(n, ±d)` with a free value where the spec defines none. `sub` 0: an address; 1: the new Rn. -/
def State.upd (s : State) (site : FreeSite) (sub : Nat) (n : Fin 8) (d : Word) (minus : Bool) : Word :=
  match aguStep s.sc s.agu.m[n] s.agu.r[n] d minus with
  | some a => a
  | none => scMask s.sc (s.freeWord site sub)

/-- The address in Rn itself. With non-zero MSBs in Sixteen-bit Compatibility mode the access is not guaranteed
(20_memory R131; U12): a free address. -/
def State.rnAddr (s : State) (site : FreeSite) (n : Fin 8) : Word :=
  if s.sc && s.agu.r[n].extractLsb' 16 8 != 0 then s.freeWord site 0 else s.agu.r[n]

/-- The new Rn of a four-mode field (20_memory R116, "Encoding 4"). -/
def State.updMode (s : State) (site : FreeSite) (u : UpdMode) (n : Fin 8) : Word :=
  match u with
  | .postDecN => s.upd site 1 n s.agu.n[n] true
  | .postIncN => s.upd site 1 n s.agu.n[n] false
  | .postDec => s.upd site 1 n 1 true
  | .postInc => s.upd site 1 n 1 false

/-- What an effective address gives: the address, and the new content of its address register. -/
structure EaOut where
  addr : Word
  upd : Option (Fin 8 × Word)
deriving DecidableEq, Repr

/-- `ea(MMMRRR)` (20_memory R116). Immediate data has no address. -/
def State.ea (s : State) (e : Ea) : EaOut :=
  match e with
  | .postDecN n => ⟨s.rnAddr .updX n, some (n, s.updMode .updX .postDecN n)⟩
  | .postIncN n => ⟨s.rnAddr .updX n, some (n, s.updMode .updX .postIncN n)⟩
  | .postDec n => ⟨s.rnAddr .updX n, some (n, s.updMode .updX .postDec n)⟩
  | .postInc n => ⟨s.rnAddr .updX n, some (n, s.updMode .updX .postInc n)⟩
  | .noUpd n => ⟨s.rnAddr .updX n, none⟩
  | .indexN n => ⟨s.upd .updX 0 n s.agu.n[n] false, none⟩
  | .preDec n => ⟨s.upd .updX 0 n 1 true, some (n, s.upd .updX 0 n 1 true)⟩
  | .abs a => ⟨a, none⟩
  | .imm _ => ⟨0, none⟩

/-- One address of an X:Y: move (30_encoding R158; 46_move R430). -/
def State.eaXY (s : State) (site : FreeSite) (m : XYMode) (n : Fin 8) : EaOut :=
  match m with
  | .noUpd => ⟨s.rnAddr site n, none⟩
  | .postIncN => ⟨s.rnAddr site n, some (n, s.updMode site .postIncN n)⟩
  | .postDec => ⟨s.rnAddr site n, some (n, s.updMode site .postDec n)⟩
  | .postInc => ⟨s.rnAddr site n, some (n, s.updMode site .postInc n)⟩

/-- `upd_index(n, disp)` (20_memory R117). -/
def State.indexAddr (s : State) (n : Fin 8) (disp : Word) : Word := s.upd .updX 0 n disp false

/-- R[n] replaced. -/
def State.setR (s : State) (n : Fin 8) (v : Word) : State := { s with agu := { s.agu with r := s.agu.r.set n v } }

/-- An address register update made. -/
def State.applyUpd (s : State) : Option (Fin 8 × Word) → State
  | none => s
  | some (n, v) => s.setR n v

/-- An absolute short address (20_memory R119). -/
def aaAddr (aa : BitVec 6) : Word := aa.setWidth 24
/-- A high I/O short address (20_memory R107); of a bit instruction in Sixteen-bit Compatibility mode too
(44_bit_manipulation R390). -/
def ppAddr (pp : BitVec 6) : Word := 0xFFFFC0#24 + pp.setWidth 24
/-- A low I/O short address (20_memory R107; 44_bit_manipulation R390). -/
def qqAddr (qq : BitVec 6) : Word := 0xFFFF80#24 + qq.setWidth 24
/-- The I/O short address of a MOVEP: "in Sixteen-bit Compatibility mode the short I/O address is formed in 16 bits"
(46_move R436). -/
def State.movepAddr (s : State) (a : Word) : Word := scMask s.sc a

/-! ## Reads of a full accumulator (40_alu_common R215, R233) -/

/-- A word on a data bus, and the S and L terms of having read it. -/
structure Rd where
  w : Word
  sTerm : Bool
  lTerm : Bool
deriving DecidableEq, Repr

/-- A read that touches neither S nor L. -/
def Rd.plain (w : Word) : Rd := ⟨w, false, false⟩

/-- Which draw of a free value belongs to an accumulator. -/
def accSub : Acc → Nat
  | .a => 0
  | .b => 1

/-- How far the data shifter moves the number to the right, counted from one place to the left (40_alu_common R215). -/
def Scaling.shift : Scaling → Nat
  | .none => 1
  | .down => 2
  | .up => 0
  | .reserved => 1

/-- `rd_acc`, word read (40_alu_common R215; R233 with SA = 1). S1:S0 = 11: free (U11). -/
def State.rdAcc (s : State) (d : Acc) : Rd :=
  let acc := s.acc d
  let i := accSub d
  if s.scaling = .reserved then ⟨s.freeWord .scaleRead i, s.freeBit .scaleReadS i, s.freeBit .scaleReadL i⟩
  else
    let lim := s.flagE acc
    let w : Word :=
      if s.sa then
        let w16 : BitVec 16 := if lim then (if acc.msb then 0x8000#16 else 0x7FFF#16)
          else ((v40 acc).setWidth 41 <<< 1).extractLsb' (16 + s.scaling.shift) 16
        w16.signExtend 24
      else if lim then (if acc.msb then 0x800000#24 else 0x7FFFFF#24)
      else (acc.setWidth 57 <<< 1).extractLsb' (24 + s.scaling.shift) 24
    ⟨w, s.flagS i acc, lim⟩

/-- `rd_acc`, long read: the high and the low word (40_alu_common R215; R231, R233 with SA = 1). -/
def State.rdAccLong (s : State) (d : Acc) : Rd × Word :=
  let acc := s.acc d
  let i := accSub d
  if s.scaling = .reserved then
    (⟨s.freeWord .scaleRead i, s.freeBit .scaleReadS i, s.freeBit .scaleReadL i⟩, s.freeWord .scaleRead (2 + i))
  else
    let lim := s.flagE acc
    if s.sa then
      let d32 : BitVec 32 := if lim then (if acc.msb then 0x80000000#32 else 0x7FFFFFFF#32)
        else ((v40 acc).setWidth 41 <<< 1).extractLsb' s.scaling.shift 32
      (⟨(d32.extractLsb' 16 16).signExtend 24, s.flagS i acc, lim⟩, (d32.extractLsb' 0 16).setWidth 24)
    else
      let l : Long := if lim then (if acc.msb then 0x800000000000#48 else 0x7FFFFFFFFFFF#48)
        else (acc.setWidth 57 <<< 1).extractLsb' s.scaling.shift 48
      (⟨l.extractLsb' 24 24, s.flagS i acc, lim⟩, l.extractLsb' 0 24)

/-! ## Data ALU registers on a bus (40_alu_common R213, R214, R231) -/

/-- Which bit of `ctl.fresh` and `ctl.written` belongs to an input register. -/
def freshBit : XYReg → Nat
  | .x0 => 0
  | .y0 => 1
  | .x1 => 2
  | .y1 => 3

/-- A 24-bit part on the bus; `$00 : reg[23:8]` in Sixteen-bit Arithmetic mode (40_alu_common R231). -/
def partOnBus (sa : Bool) (w : Word) : Word := if sa then (w.extractLsb' 8 16).setWidth 24 else w

/-- An input register on the bus. In Sixteen-bit Arithmetic mode its eight MSBs there are free if the instruction before
wrote it (40_alu_common R231; U37). -/
def State.xyOnBus (s : State) (r : XYReg) : Word :=
  if s.sa && s.ctl.fresh.getLsbD (freshBit r) then
    (partOnBus true (s.xy r)) ||| (s.freeWord .saBus (freshBit r) &&& 0xFF0000#24)
  else partOnBus s.sa (s.xy r)

/-- A register written in Sixteen-bit Arithmetic mode takes `b[15:0]` in its sixteen MSBs (40_alu_common R231; D12). -/
def partFromBus (sa : Bool) (b : Word) : Word := if sa then b.extractLsb' 0 16 ++ 0#8 else b

/-- `rdreg` of a Data ALU register (46_move R440). -/
def State.rdAlu (s : State) (r : AluReg) : Rd :=
  match r with
  | .x0 => .plain (s.xyOnBus .x0)
  | .x1 => .plain (s.xyOnBus .x1)
  | .y0 => .plain (s.xyOnBus .y0)
  | .y1 => .plain (s.xyOnBus .y1)
  | .a0 => .plain (partOnBus s.sa (s.alu.a.extractLsb' 0 24))
  | .b0 => .plain (partOnBus s.sa (s.alu.b.extractLsb' 0 24))
  | .a1 => .plain (partOnBus s.sa (s.alu.a.extractLsb' 24 24))
  | .b1 => .plain (partOnBus s.sa (s.alu.b.extractLsb' 24 24))
  | .a2 => .plain ((s.alu.a.extractLsb' 48 8).signExtend 24)
  | .b2 => .plain ((s.alu.b.extractLsb' 48 8).signExtend 24)
  | .a => s.rdAcc .a
  | .b => s.rdAcc .b

/-- `wr_acc(w)` (40_alu_common R212; R231 with SA = 1). -/
def wrAcc (sa : Bool) (w : Word) : AccWord :=
  let p := partFromBus sa w
  (if p.msb then 0xFF#8 else 0x00#8) ++ p ++ 0#24

/-- An accumulator's MSP replaced. -/
def setMsp (a : AccWord) (w : Word) : AccWord := a.extractLsb' 48 8 ++ w ++ a.extractLsb' 0 24
/-- An accumulator's LSP replaced. -/
def setLsp (a : AccWord) (w : Word) : AccWord := a.extractLsb' 24 32 ++ w
/-- An accumulator's EXT replaced. -/
def setExt (a : AccWord) (w : Byte) : AccWord := w ++ a.extractLsb' 0 48

/-- An input register replaced. -/
def State.setXY (s : State) (r : XYReg) (w : Word) : State :=
  match r with
  | .x0 => { s with alu := { s.alu with x0 := w } }
  | .x1 => { s with alu := { s.alu with x1 := w } }
  | .y0 => { s with alu := { s.alu with y0 := w } }
  | .y1 => { s with alu := { s.alu with y1 := w } }

/-- A write of an input register by a move. -/
def State.wrXY (s : State) (r : XYReg) (w : Word) : State :=
  let s1 := s.setXY r (partFromBus s.sa w)
  if s.sa then { s1 with ctl := { s1.ctl with written := setBit s1.ctl.written (freshBit r) true } } else s1

/-- `wrreg` of a Data ALU register (40_alu_common R212, R213, R231; 46_move R440). -/
def State.wrAlu (s : State) (r : AluReg) (w : Word) : State :=
  match r with
  | .x0 => s.wrXY .x0 w
  | .x1 => s.wrXY .x1 w
  | .y0 => s.wrXY .y0 w
  | .y1 => s.wrXY .y1 w
  | .a0 => s.withAcc .a (setLsp s.alu.a (partFromBus s.sa w))
  | .b0 => s.withAcc .b (setLsp s.alu.b (partFromBus s.sa w))
  | .a1 => s.withAcc .a (setMsp s.alu.a (partFromBus s.sa w))
  | .b1 => s.withAcc .b (setMsp s.alu.b (partFromBus s.sa w))
  | .a2 => s.withAcc .a (setExt s.alu.a (w.extractLsb' 0 8))
  | .b2 => s.withAcc .b (setExt s.alu.b (w.extractLsb' 0 8))
  | .a => s.withAcc .a (wrAcc s.sa w)
  | .b => s.withAcc .b (wrAcc s.sa w)

/-- `rdreg` of a register of the five-bit code (46_move R440; 10_state R26). -/
def State.rdD (s : State) (d : DReg) : Rd :=
  match d with
  | .alu r => s.rdAlu r
  | .r n => .plain (scMask s.sc s.agu.r[n])
  | .n n => .plain (scMask s.sc s.agu.n[n])

/-- `wrreg` of a register of the five-bit code (46_move R440; 10_state R26). -/
def State.wrD (s : State) (d : DReg) (w : Word) : State :=
  match d with
  | .alu r => s.wrAlu r w
  | .r n => s.setR n (scMask s.sc w)
  | .n n => { s with agu := { s.agu with n := s.agu.n.set n (scMask s.sc w) } }

/-- The bus value of a short immediate move (40_alu_common R218, R231; 46_move R422). -/
def shortImm (sa : Bool) (i : BitVec 8) (d : DReg) : Word :=
  let fraction : Bool := match d with
    | .alu r => r == .x0 || r == .x1 || r == .y0 || r == .y1 || r == .a || r == .b
    | .r _ => false
    | .n _ => false
  if fraction then (if sa then (i ++ 0#8 : BitVec 16).setWidth 24 else i ++ 0#16) else i.setWidth 24

/-! ## Control registers (46_move R440) -/

/-- `rdreg` of a control register: the bus value, before SSH's pop. -/
def State.rdC (s : State) (c : CReg) : Word :=
  scMask s.sc (match c with
    | .m n => s.agu.m[n]
    | .ep => s.agu.ep
    | .vba => s.pcu.vba
    | .sc => s.pcu.sc.setWidth 24
    | .sz => s.pcu.sz
    | .sr => s.pcu.sr
    | .omr => s.pcu.omr
    | .sp => s.pcu.sp
    | .ssh => s.ssh
    | .ssl => s.ssl
    | .la => s.pcu.la
    | .lc => s.pcu.lc)

/-- In Sixteen-bit Compatibility mode a write of SR or OMR leaves bits 23:16 unchanged (46_move R440). -/
def State.keepHigh (s : State) (old w : Word) : Word := if s.sc then (old &&& 0xFF0000#24) ||| low16 w else w

/-- `wrreg` of a control register (46_move R440). -/
def State.wrC (s : State) (c : CReg) (w : Word) : State :=
  let v := scMask s.sc w
  match c with
  | .m n => { s with agu := { s.agu with m := s.agu.m.set n v } }
  | .ep => { s with agu := { s.agu with ep := v } }
  | .vba => { s with pcu := { s.pcu with vba := v &&& 0xFFFF00#24 } }
  | .sc => (s.withSc (w.extractLsb' 0 5)).balance
  | .sz => { s with pcu := { s.pcu with sz := v } }
  | .sr => s.writeSr (s.keepHigh s.pcu.sr w)
  | .omr => s.writeOmr (s.keepHigh s.pcu.omr w)
  | .sp => s.withSp v
  | .ssh => s.pushHigh v
  | .ssl => s.setSsl s.slot v
  | .la => { s with pcu := { s.pcu with la := v } }
  | .lc => { s with pcu := { s.pcu with lc := v } }

/-- S and L ORed into the CCR (40_alu_common R207, R208). -/
def State.mergeSL (s : State) (r : Rd) : State := s.withCcr (orSL r.sTerm r.lTerm s.ccr)

/-- `rdreg` of any register by an instruction without a parallel move, with its side effects: S and L, SSH's pop. -/
def State.rdReg (s : State) (r : Reg) : Word × State :=
  match r with
  | .d d => ((s.rdD d).w, s.mergeSL (s.rdD d))
  | .c c => (s.rdC c, if c == .ssh then s.pop else s)

/-- `wrreg` of any register. -/
def State.wrReg (s : State) (r : Reg) (w : Word) : State :=
  match r with
  | .d d => s.wrD d w
  | .c c => s.wrC c w

/-! ## Conditions (30_encoding R160) -/

/-- `cond(CCCC)` on the CCR. -/
def State.cond (s : State) (c : Cond) : Bool :=
  let C := s.srBit 0
  let V := s.srBit 1
  let Z := s.srBit 2
  let N := s.srBit 3
  let U := s.srBit 4
  let E := s.srBit 5
  let L := s.srBit 6
  match c with
  | .cc => !C
  | .ge => N == V
  | .ne => !Z
  | .pl => !N
  | .nn => !(Z || (!U && !E))
  | .ec => !E
  | .lc => !L
  | .gt => !(Z || (N != V))
  | .cs => C
  | .lt => N != V
  | .eq => Z
  | .mi => N
  | .nr => Z || (!U && !E)
  | .es => E
  | .ls => L
  | .le => Z || (N != V)

/-! ## Bit operands (44_bit_manipulation R390; 47_program_control R470(d)) -/

/-- Where the operand of a bit instruction lives. -/
inductive BitOpd
  | mem (sp : Space) (ea : Ea)
  | io (sp : Space) (addr : Word)
  | reg (r : Reg)
deriving DecidableEq, Repr

/-- A bit operand as found: the word, a way back, and the state after the read's side effects and the address update. -/
structure BitRd where
  w : Word
  addr : Word
  st : State
deriving DecidableEq, Repr

/-- The word of a bit operand (44_bit_manipulation R390). -/
def State.bitRead (s : State) (o : BitOpd) : BitRd :=
  match o with
  | .mem sp e => ⟨s.readData sp (s.ea e).addr, (s.ea e).addr, s.applyUpd (s.ea e).upd⟩
  | .io sp a => ⟨s.readData sp a, a, s⟩
  | .reg r => ⟨(s.rdReg r).1, 0, (s.rdReg r).2⟩

/-- The changed word written back (44_bit_manipulation R390). -/
def State.bitWrite (s : State) (o : BitOpd) (a w : Word) : State :=
  match o with
  | .mem sp _ => s.writeData sp a w
  | .io sp _ => s.writeData sp a w
  | .reg r => s.wrReg r w

/-- Why a bit number names no bit (44_bit_manipulation R390; U3, U36). -/
def State.badBit (s : State) (n : BitVec 5) : Option Refusal :=
  if 24 ≤ n.toNat then some .noSuchBit
  else if s.sa && decide (16 ≤ n.toNat) then some .noSuchBitInSixteenBitMode
  else none

end Sys2Proof.Machine
end

