-- ==== Sys2Proof/Machine/Ops.lean ====
section
/-!
DEFINITION. The operations instructions share: the end of an instruction, jumps, subroutine calls, the entry of a long
interrupt and the return from one (60_exceptions R571 to R573), requests of the software interrupts (R568, R569, R574),
parallel moves (46_move R420 to R432), bit operands, hardware loops (45_loop R400 to R408), cache commands.
-/
namespace Sys2Proof.Machine

/-! ## The program counter -/

/-- Is the PC frozen: in a vector word of an interrupt (60_exceptions R571), or for an instruction that the debug host
injects (61_debug R641)? -/
def State.frozen (s : State) : Bool := s.ctl.ctx.isSome || s.ctl.phase == .debug

/-- PC replaced. -/
def State.withPc (s : State) (v : Word) : State := { s with pcu := { s.pcu with pc := v } }

/-- The interrupt context replaced. -/
def State.withCtx (s : State) (c : Option IntCtx) : State := { s with ctl := { s.ctl with ctx := c } }

/-- The processing state replaced. -/
def State.withPhase (s : State) (p : Phase) : State := { s with ctl := { s.ctl with phase := p } }

/-- `next` (47_program_control, conventions): the address after an instruction of `len` words; the frozen PC in a vector
word. -/
def State.nextPc (s : State) (len : Nat) : Word :=
  if s.frozen then s.pcu.pc else s.pcu.pc + BitVec.ofNat 24 len

/-- An instruction of `len` words ends in sequence. -/
def State.advance (s : State) (len : Nat) : State := s.withPc (s.nextPc len)

/-- A taken change of flow (47_program_control R470). In a vector word it ends the interrupt context: D44. -/
def State.jump (s : State) (target : Word) : State := (s.withCtx none).withPc target

/-- A PC-relative target of a change of flow (20_memory R118). In a vector word it counts from the frozen PC (60_exceptions
R571; 92_eei_decisions D44). -/
def State.relative (s : State) (d : Word) : Word := s.pcu.pc + d

/-- The address of the next vector word of a context (60_exceptions R570). -/
def IntCtx.next (c : IntCtx) : Word := c.base + 2 - BitVec.ofNat 24 c.words.length

/-- The address of the operation word of an instruction of `len` words: the PC, or in a vector word, which is no longer among
those to be executed, its own address (20_memory R118; 60_exceptions R571). An instruction that the debug host injects has no
address: it "see[s] the PC of the halted program" (61_debug R641), which is taken to be the PC also where the core has halted
between two vector words (DESIGN CHOICE, log 57). -/
def State.opAddr (s : State) (len : Nat) : Word :=
  match s.ctl.ctx with
  | none => s.pcu.pc
  | some c => if s.ctl.phase = .debug then s.pcu.pc else c.next - BitVec.ofNat 24 len

/-- A PC-relative address that is no target of a change of flow: DOR, LRA, PLOCKR, PUNLOCKR (45_loop R403; 46_move R438;
48_cache R554, R557). -/
def State.opRelative (s : State) (len : Nat) (d : Word) : Word := s.opAddr len + d

/-! ## Interrupts -/

/-- `min(L + 1, 3)`, never below the mask in force (60_exceptions R572; D45). -/
def raisedMask (i level : BitVec 2) : BitVec 2 :=
  let m := BitVec.ofNat 2 (min (level.toNat + 1) 3)
  if i.toNat < m.toNat then m else i

/-- SR after a long-interrupt entry: LF, S1, S0 and SA cleared, I raised (60_exceptions R572). -/
def entrySr (sr : Word) (level : BitVec 2) : Word :=
  (sr &&& 0xFD70FF#24) ||| ((raisedMask (sr.extractLsb' 8 2) level).setWidth 24 <<< 8)

/-- TAKING AN INTERRUPT: the long entry made by a taken JSR-class instruction in a vector word (60_exceptions R572). The
frozen PC and SR are pushed, SR becomes `entrySr`, the PC the handler's address, and the rest of the vector is dropped. -/
def State.longEntry (s : State) (level : BitVec 2) (target : Word) : State :=
  let s1 := s.push s.pcu.pc s.pcu.sr
  (s1.withSr (entrySr s1.pcu.sr level)).jump target

/-- RETURNING FROM ONE: `(PC, SR) <- pull()` (60_exceptions R573; 47_program_control R494). -/
def State.returnFromInterrupt (s : State) : State := ((s.pop).writeSr s.ssl).jump s.ssh

/-- RTS: `PC <- pull()` (47_program_control R495). -/
def State.returnFromSubroutine (s : State) : State := (s.pop).jump s.ssh

/-- A subroutine call by an instruction of `len` words: an ordinary one, or the long entry in a vector word
(47_program_control R470(c); 60_exceptions R571, R572). -/
def State.call (s : State) (len : Nat) (target : Word) : State :=
  match s.ctl.ctx with
  | none => (s.push (s.nextPc len) s.pcu.sr).jump target
  | some c => s.longEntry c.level target

/-- The Illegal Instruction interrupt is requested by an instruction of `len` words, one for an undefined pattern; the PC
is the address after it (60_exceptions R569; D36). -/
def State.illegal (s : State) (len : Nat) : State := (s.setPend 2 true).advance len

/-- The Trap interrupt is requested (60_exceptions R574). -/
def State.trap (s : State) : State := (s.setPend 4 true).advance 1

/-- Both vector words of source `k` are fetched: its pending flag is cleared, unless it is a peripheral's (60_exceptions R562,
R570, R577). -/
def State.clearAccepted (s : State) (k : Nat) : State := if k < 18 then s.setPend k false else s

/-- The address of the first vector word of source `k` (60_exceptions R561). -/
def State.vector (s : State) (k : Nat) : Word := (s.pcu.vba &&& 0xFFFF00#24) ||| BitVec.ofNat 24 (2 * k)

/-- The word that is on the program data bus for the address `a`. -/
def State.onBus (s : State) (a : Word) : Option Word := (s.ctl.pdb.find? fun p => p.1 == a).map Prod.snd

/-- The program word that comes next at `a`: what is on the program data bus, or memory's (61_debug R641). -/
def State.upcoming (s : State) (a : Word) : Word := (s.onBus a).getD (s.readP a)

/-- The word in the instruction latch, the one on the PDB, and the addresses of those two and of the last word whose fetch
began, when the core stops (61_debug R641, R642; log 30): the words to execute next, which are vector words first, and a
REP's target. -/
def State.pipeline (s : State) : (Word × Word) × (Word × Word × Word) :=
  match s.ctl.ctx with
  | some ⟨_, _, b, w :: x :: _⟩ => ((w, x), (b, b + 1, s.pcu.pc))
  | some ⟨_, _, b, [w]⟩ => ((w, s.upcoming s.pcu.pc), (b + 1, s.pcu.pc, s.pcu.pc + 1))
  | _ =>
    let w := match s.ctl.rep with
      | some ⟨_, some w⟩ => w
      | _ => s.upcoming s.pcu.pc
    ((w, s.upcoming (s.pcu.pc + 1)), (s.pcu.pc, s.pcu.pc + 1, s.pcu.pc + 2))

/-- The OnCE latches show where the core stands (61_debug R641, R642). -/
def State.latchPipeline (s : State) : State :=
  let p := s.pipeline
  { s with once := { s.once with
      opilr := p.1.1, opdbr := p.1.2, opabex := p.2.1, opabdr := p.2.2.1, opabfr := p.2.2.2 } }

/-- Entry to Debug mode: the OnCE latches, the trace buffer's pointer, the pulse on DE (61_debug R640 to R642, R645). -/
def State.debugLatches (s : State) : State :=
  let t := s.latchPipeline
  { t with once := { t.once with tracePtr := 0, armed := false, dePulses := t.once.dePulses + 1 } }

/-- The pending flags of the level-3 sources, 0 to 7 (60_exceptions R561). -/
def level3Mask : BitVec 128 := 0xFF#128

/-- A debug request ends Wait and Stop (60_exceptions R581, R582); the exit from Stop clears the maskable pending flags. -/
def State.endHalt (s : State) : State :=
  match s.ctl.phase with
  | .stop => ({ s with irq := { s.irq with pend := s.irq.pend &&& level3Mask, window := 0 } } : State).withPhase .normal
  | .wait => ({ s with irq := { s.irq with window := 0 } } : State).withPhase .normal
  | .normal => s
  | .reset => s
  | .debug => s

/-- The cause TO, which is set whenever Debug mode is entered with the trace counter at zero and Trace mode enabled, whatever
has asked for it (61_debug R633). -/
def Once.traceCause (o : Once) : BitVec 3 := if o.oscr.getLsbD 0 && o.otc == 0 then 0b100#3 else 0

/-- Debug mode is entered with a cause (bit 0 SWO, 1 MBO, 2 TO), or, with OSCR[IME], the Debug Request interrupt is
requested (61_debug R633, R640; 60_exceptions R575); either ends Wait and Stop. In Debug mode already, nothing happens. -/
def State.enterDebug (s : State) (cause : BitVec 3) : State :=
  if s.ctl.phase = .debug then s
  else if s.once.oscr.getLsbD 1 then s.endHalt.setPend 3 true
  else
    let t := (s.endHalt.withPhase .debug).debugLatches
    { t with once := { t.once with cause := t.once.cause ||| cause ||| t.once.traceCause } }

/-- DEBUG, or DEBUGcc with a true condition (47_program_control R479). An instruction the debug host injects leaves the
core in Debug mode in any case. -/
def State.debugCall (s : State) : State := (s.advance 1).enterDebug 0b001#3

/-! ## Data ALU operations without a parallel move -/

/-- A Data ALU operation alone, of `len` words. -/
def runAlu (op : State → AluOut) (len : Nat) (s : State) : Res := .next ((s.commitAlu (op s)).advance len)

/-- The accumulator of an outcome written, the CCR left (47_program_control R481). -/
def State.commitAcc (s : State) (o : AluOut) : State :=
  s.withAcc o.dst ((s.acc o.dst &&& ~~~o.mask) ||| (o.val &&& o.mask))

/-- IFcc (47_program_control R481). -/
def runIf (c : Cond) (op : State → AluOut) (s : State) : Res :=
  .next ((if s.cond c then s.commitAcc (op s) else s).advance 1)

/-- IFcc.U (47_program_control R482). -/
def runIfU (c : Cond) (op : State → AluOut) (s : State) : Res :=
  .next ((if s.cond c then s.commitAlu (op s) else s).advance 1)

/-! ## Parallel moves (46_move R420) -/

/-- What a parallel move does, computed from the state before the instruction: the S and L terms, the address register
updates, the register writes and the memory writes, in order; `twice` is an accumulator written twice (U5). -/
structure Plan where
  sTerm : Bool
  lTerm : Bool
  upds : List (Fin 8 × Word)
  regs : List (DReg × Word)
  mems : List (Space × Word × Word)
  twice : Option Acc
deriving DecidableEq, Repr

/-- No move. -/
def Plan.nothing : Plan := ⟨false, false, [], [], [], none⟩

/-- The register `ff` of an X side. -/
def xSideReg : XSide → AluReg
  | .x0 => .x0
  | .x1 => .x1
  | .a => .a
  | .b => .b
/-- The register `ff` of a Y side. -/
def ySideReg : YSide → AluReg
  | .y0 => .y0
  | .y1 => .y1
  | .a => .a
  | .b => .b
/-- The register `e`. -/
def x01Reg : X01 → AluReg
  | .x0 => .x0
  | .x1 => .x1
/-- The register `F`. -/
def y01Reg : Y01 → AluReg
  | .y0 => .y0
  | .y1 => .y1
/-- An accumulator as a move operand. -/
def accReg : Acc → AluReg
  | .a => .a
  | .b => .b

/-- The word a load finds: memory, or immediate data (46_move R425). -/
def State.loadEa (s : State) (sp : Space) (e : Ea) : Word :=
  match e with
  | .imm d => d
  | .postDecN n => s.readData sp (s.ea (.postDecN n)).addr
  | .postIncN n => s.readData sp (s.ea (.postIncN n)).addr
  | .postDec n => s.readData sp (s.ea (.postDec n)).addr
  | .postInc n => s.readData sp (s.ea (.postInc n)).addr
  | .noUpd n => s.readData sp (s.ea (.noUpd n)).addr
  | .indexN n => s.readData sp (s.ea (.indexN n)).addr
  | .preDec n => s.readData sp (s.ea (.preDec n)).addr
  | .abs a => s.readData sp a

/-- The address register update of an effective address, as a list. -/
def State.eaUpds (s : State) (e : Ea) : List (Fin 8 × Word) := (s.ea e).upd.toList

/-- A one-word move between a register and memory (46_move R425, R427). -/
def State.planMem (s : State) (sp : Space) (d : DReg) (w : Dir) (addr load : Word) (upds : List (Fin 8 × Word)) : Plan :=
  match w with
  | .write => ⟨false, false, upds, [(d, load)], [], none⟩
  | .read => ⟨(s.rdD d).sTerm, (s.rdD d).lTerm, upds, [], [(sp, addr, (s.rdD d).w)], none⟩

/-- Class I of X:R and R:Y: the memory half `m`, and the accumulator `acc` to the input register `d2`
(46_move R426, R428). -/
def State.planClass1 (s : State) (m : Plan) (acc : Acc) (d2 : AluReg) : Plan :=
  { m with sTerm := m.sTerm || (s.rdAcc acc).sTerm, lTerm := m.lTerm || (s.rdAcc acc).lTerm
           regs := m.regs ++ [(.alu d2, (s.rdAcc acc).w)] }

/-- Class II of X:R and R:Y: the accumulator to memory, the input register to the accumulator (46_move R426, R428). -/
def State.planClass2 (s : State) (sp : Space) (acc : Acc) (r : XYReg) (e : Ea) : Plan :=
  ⟨(s.rdAcc acc).sTerm, (s.rdAcc acc).lTerm, s.eaUpds e, [(.alu (accReg acc), s.xyOnBus r)],
   [(sp, (s.ea e).addr, (s.rdAcc acc).w)], none⟩

/-- What a long operand puts on XDB and YDB (46_move R429). -/
def State.rdLong (s : State) (l : LongReg) : Rd × Word :=
  match l with
  | .a10 => (s.rdAlu .a1, (s.rdAlu .a0).w)
  | .b10 => (s.rdAlu .b1, (s.rdAlu .b0).w)
  | .x => (s.rdAlu .x1, (s.rdAlu .x0).w)
  | .y => (s.rdAlu .y1, (s.rdAlu .y0).w)
  | .a => s.rdAccLong .a
  | .b => s.rdAccLong .b
  | .ab =>
    (⟨(s.rdAcc .a).w, (s.rdAcc .a).sTerm || (s.rdAcc .b).sTerm, (s.rdAcc .a).lTerm || (s.rdAcc .b).lTerm⟩, (s.rdAcc .b).w)
  | .ba =>
    (⟨(s.rdAcc .b).w, (s.rdAcc .a).sTerm || (s.rdAcc .b).sTerm, (s.rdAcc .a).lTerm || (s.rdAcc .b).lTerm⟩, (s.rdAcc .a).w)

/-- The register writes of a long load (46_move R429): A and B take the high word with its extension, then the low. -/
def longWrites (l : LongReg) (bx byy : Word) : List (DReg × Word) :=
  match l with
  | .a10 => [(.alu .a1, bx), (.alu .a0, byy)]
  | .b10 => [(.alu .b1, bx), (.alu .b0, byy)]
  | .x => [(.alu .x1, bx), (.alu .x0, byy)]
  | .y => [(.alu .y1, bx), (.alu .y0, byy)]
  | .a => [(.alu .a, bx), (.alu .a0, byy)]
  | .b => [(.alu .b, bx), (.alu .b0, byy)]
  | .ab => [(.alu .a, bx), (.alu .b, byy)]
  | .ba => [(.alu .b, bx), (.alu .a, byy)]

/-- A long move at address `a` (46_move R429). -/
def State.planLong (s : State) (l : LongReg) (w : Dir) (a : Word) (upds : List (Fin 8 × Word)) : Plan :=
  match w with
  | .write => ⟨false, false, upds, longWrites l (s.readData .x a) (s.readData .y a), [], none⟩
  | .read =>
    ⟨(s.rdLong l).1.sTerm, (s.rdLong l).1.lTerm, upds, [], [(.x, a, (s.rdLong l).1.w), (.y, a, (s.rdLong l).2)], none⟩

/-- The Y address register of an X:Y: move, in the other bank (46_move R430). -/
def yRegOf (xn : Fin 8) (yn : Fin 4) : Fin 8 := Fin.ofNat 8 ((if xn.val < 4 then 4 else 0) + yn.val)

/-- The accumulator that both halves of an X:Y: move load (U5). -/
def bothLoad (xs : XSide) (ys : YSide) (xw yw : Dir) : Option Acc :=
  match xw, yw, xs, ys with
  | .write, .write, .a, .a => some .a
  | .write, .write, .b, .b => some .b
  | _, _, _, _ => none

/-- An X:Y: move (46_move R430, R432). -/
def State.planXY (s : State) (yw : Dir) (ym : XYMode) (xs : XSide) (ys : YSide) (xw : Dir) (yn : Fin 4) (xm : XYMode)
    (xn : Fin 8) : Plan :=
  let ex := s.eaXY .updX xm xn
  let ey := s.eaXY .updY ym (yRegOf xn yn)
  let both := s.inIo ex.addr && s.inIo ey.addr && s.internalIo .y ey.addr
  let px := s.planMem .x (.alu (xSideReg xs)) xw ex.addr (s.readData .x ex.addr) ex.upd.toList
  let yLoad := if both then s.freeWord .yHalfDiscarded 0 else s.readData .y ey.addr
  let py := s.planMem .y (.alu (ySideReg ys)) yw ey.addr yLoad ey.upd.toList
  ⟨px.sTerm || py.sTerm, px.lTerm || py.lTerm, px.upds ++ py.upds, px.regs ++ py.regs,
   px.mems ++ (if both then [] else py.mems), bothLoad xs ys xw yw⟩

/-- What a parallel move does (46_move R422 to R432). -/
def State.plan (s : State) (m : PMove) : Plan :=
  match m with
  | .none => .nothing
  | .imm i d => ⟨false, false, [], [(d, shortImm s.sa i d)], [], none⟩
  | .reg r d => ⟨(s.rdD r).sTerm, (s.rdD r).lTerm, [], [(d, (s.rdD r).w)], [], none⟩
  | .upd u n => ⟨false, false, [(n, s.updMode .updX u n)], [], [], none⟩
  | .xEa d w e => s.planMem .x d w (s.ea e).addr (s.loadEa .x e) (s.eaUpds e)
  | .xAa d w a => s.planMem .x d w (aaAddr a) (s.readData .x (aaAddr a)) []
  | .yEa d w e => s.planMem .y d w (s.ea e).addr (s.loadEa .y e) (s.eaUpds e)
  | .yAa d w a => s.planMem .y d w (aaAddr a) (s.readData .y (aaAddr a)) []
  | .xr1 xs s2 d2 w e =>
    s.planClass1 (s.planMem .x (.alu (xSideReg xs)) w (s.ea e).addr (s.loadEa .x e) (s.eaUpds e)) s2 (y01Reg d2)
  | .xr2 d e => s.planClass2 .x d .x0 e
  | .ry1 s1 d1 ys w e =>
    s.planClass1 (s.planMem .y (.alu (ySideReg ys)) w (s.ea e).addr (s.loadEa .y e) (s.eaUpds e)) s1 (x01Reg d1)
  | .ry2 d e => s.planClass2 .y d .y0 e
  | .lEa l w e => s.planLong l w (s.ea e).addr (s.eaUpds e)
  | .lAa l w a => s.planLong l w (aaAddr a) []
  | .xy yw ym xs ys xw yn xm xn => s.planXY yw ym xs ys xw yn xm xn

/-- Is the register the accumulator `d` or a part of it? -/
def partOf (d : Acc) : DReg → Bool
  | .alu r =>
    match d with
    | .a => r == .a || r == .a0 || r == .a1 || r == .a2
    | .b => r == .b || r == .b0 || r == .b1 || r == .b2
  | .r _ => false
  | .n _ => false

/-- The bits of an accumulator that a move into it or into a part of it writes (40_alu_common R212, R213). -/
def partMask : DReg → AccWord
  | .alu .a0 => 0x00000000FFFFFF#56
  | .alu .b0 => 0x00000000FFFFFF#56
  | .alu .a1 => 0x00FFFFFF000000#56
  | .alu .b1 => 0x00FFFFFF000000#56
  | .alu .a2 => 0xFF000000000000#56
  | .alu .b2 => 0xFF000000000000#56
  | _ => accAll

/-- The accumulator of which some bits are written twice, by the operation and the move or by both halves of the move
(46_move R420; U5). An operation on A1 alone leaves the move A0 and A2 (40_alu_common R245). -/
def twiceWritten (o : AluOut) (p : Plan) : Option Acc :=
  if p.regs.any (fun r => partOf o.dst r.1 && o.mask &&& partMask r.1 != 0) then some o.dst else p.twice

/-- A doubly written accumulator holds a free value. -/
def State.freeTwice (s : State) : Option Acc → State
  | none => s
  | some .a => s.withAcc .a ((s.free .dupA 0).setWidth 56)
  | some .b => s.withAcc .b ((s.free .dupB 0).setWidth 56)

/-- The address register updates made. -/
def State.applyUpds (s : State) (u : List (Fin 8 × Word)) : State := u.foldl (fun t p => t.setR p.1 p.2) s
/-- The register writes made. -/
def State.applyRegs (s : State) (u : List (DReg × Word)) : State := u.foldl (fun t p => t.wrD p.1 p.2) s
/-- The memory writes made, X before Y (D49). -/
def State.applyMems (s : State) (u : List (Space × Word × Word)) : State :=
  u.foldl (fun t p => t.writeData p.1 p.2.1 p.2.2) s

/-- All writes of one instruction with a parallel move (46_move R420 step 5; D33). -/
def State.commit (s : State) (o : AluOut) (p : Plan) : State :=
  let s1 := ((s.applyUpds p.upds).commitAcc o).applyRegs p.regs
  let s2 := (s1.freeTwice (twiceWritten o p)).withCcr (orSL p.sTerm p.lTerm (o.ccr.apply s.ccr))
  s2.applyMems p.mems

/-- The length of an instruction with a parallel move (30_encoding R154). -/
def moveLen (m : PMove) : Nat := 1 + m.extWords.length

/-- A Data ALU operation with its parallel move: every source is read from the state before it (D1). -/
def runParallel (op : State → AluOut) (m : PMove) (s : State) : Res :=
  .next ((s.commit (op s) (s.plan m)).advance (moveLen m))

/-- A parallel move alone (46_move R421). -/
def runMove (m : PMove) (s : State) : Res := runParallel (fun _ => .nothing) m s

/-! ## Moves without a Data ALU operation (46_move R433 to R439) -/

/-- Memory at `a` to a register, after the address update (D33). -/
def loadReg (w : Word) (u : Option (Fin 8 × Word)) (r : Reg) (len : Nat) (s : State) : Res :=
  .next (((s.applyUpd u).wrReg r w).advance len)

/-- A register to a place written by `put`: the register is read first, then the address update is made. -/
def storeReg (put : State → Word → State) (u : Option (Fin 8 × Word)) (r : Reg) (len : Nat) (s : State) : Res :=
  .next ((put ((s.rdReg r).2.applyUpd u) (s.rdReg r).1).advance len)

/-- A move between a register and data memory. -/
def moveData (sp : Space) (w : Dir) (e : Ea) (r : Reg) (s : State) : Res :=
  match w with
  | .write => loadReg (s.loadEa sp e) (s.ea e).upd r (1 + e.extWords.length) s
  | .read => storeReg (fun t v => t.writeData sp (s.ea e).addr v) (s.ea e).upd r (1 + e.extWords.length) s

/-- A move between a register and data memory at a given address. -/
def moveAt (sp : Space) (w : Dir) (a : Word) (r : Reg) (len : Nat) (s : State) : Res :=
  match w with
  | .write => loadReg (s.readData sp a) none r len s
  | .read => storeReg (fun t v => t.writeData sp a v) none r len s

/-- A move between a register and program memory at a given address (46_move R435). -/
def moveProgram (w : Dir) (a : Word) (u : Option (Fin 8 × Word)) (r : Reg) (len : Nat) (s : State) : Res :=
  match w with
  | .write => loadReg (s.readP a) u r len s
  | .read => storeReg (fun t v => t.writeP a v) u r len s

/-- Register to register (46_move R434). -/
def moveRegs (src dst : Reg) (s : State) : Res := .next (((s.rdReg src).2.wrReg dst (s.rdReg src).1).advance 1)

/-- MOVEP between an I/O address and data memory (46_move R436): `w = .write`, the peripheral is the destination. -/
def movePeripheral (ps : Space) (io : Word) (w : Dir) (sp : Space) (e : Ea) (s : State) : Res :=
  match w with
  | .write => .next (((s.applyUpd (s.ea e).upd).writeData ps io (s.loadEa sp e)).advance (1 + e.extWords.length))
  | .read =>
    .next (((s.applyUpd (s.ea e).upd).writeData sp (s.ea e).addr (s.readData ps io)).advance (1 + e.extWords.length))

/-- MOVEP between an I/O address and program memory (46_move R436). -/
def movePeripheralP (ps : Space) (io : Word) (w : Dir) (e : Ea) (s : State) : Res :=
  match w with
  | .write => .next (((s.applyUpd (s.ea e).upd).writeData ps io (s.readP (s.ea e).addr)).advance (1 + e.extWords.length))
  | .read => .next (((s.applyUpd (s.ea e).upd).writeP (s.ea e).addr (s.readData ps io)).advance (1 + e.extWords.length))

/-- MOVEP between an I/O address and a register (46_move R436): `w = .write`, the peripheral is the destination. -/
def movePeripheralReg (ps : Space) (io : Word) (w : Dir) (r : Reg) (s : State) : Res :=
  match w with
  | .write => storeReg (fun t v => t.writeData ps io v) none r 1 s
  | .read => loadReg (s.readData ps io) none r 1 s

/-- Tcc's two transfers (41_arithmetic_a R275). -/
def runTcc (c : Cond) (o : State → AluOut) (r : Option (Fin 8 × Fin 8)) (s : State) : Res :=
  let s1 := s.commitAcc (o s)
  let s2 := match r with
    | none => s1
    | some (t, u) => s1.setR u s.agu.r[t]
  .next ((if s.cond c then s2 else s).advance 1)

/-! ## Bit instructions (44_bit_manipulation R390 to R395) -/

/-- C loaded with the tested bit. -/
def State.setC (s : State) (t : Bool) : State := s.withCcr ((s.ccr &&& 0xFE#8) ||| bitAt 8 0 t)

/-- Is the operand the Status Register (44_bit_manipulation R395)? -/
def isSr : BitOpd → Bool
  | .reg (.c .sr) => true
  | .reg _ => false
  | .mem _ _ => false
  | .io _ _ => false

/-- BCHG, BCLR, BSET: bit `n` replaced by `f` of itself; C takes the tested bit unless the operand is SR. -/
def bitModify (f : Bool → Bool) (n : BitVec 5) (o : BitOpd) (len : Nat) (s : State) : Res :=
  match s.badBit n with
  | some r => .refused r
  | none =>
    let b := s.bitRead o
    let t := b.w.getLsbD n.toNat
    let s1 := b.st.bitWrite o b.addr (setBit b.w n.toNat (f t))
    .next ((if isSr o then s1 else s1.setC t).advance len)

/-- BTST. -/
def bitTest (n : BitVec 5) (o : BitOpd) (len : Nat) (s : State) : Res :=
  match s.badBit n with
  | some r => .refused r
  | none => .next (((s.bitRead o).st.setC ((s.bitRead o).w.getLsbD n.toNat)).advance len)

/-- JCLR, JSET, BRCLR, BRSET: a jump to `target` if the tested bit is `want` (47_program_control R470(d)). -/
def bitJump (want : Bool) (n : BitVec 5) (o : BitOpd) (target : Word) (s : State) : Res :=
  match s.badBit n with
  | some r => .refused r
  | none =>
    let b := s.bitRead o
    .next (if b.w.getLsbD n.toNat == want then b.st.jump target else b.st.advance 2)

/-- JSCLR, JSSET, BSCLR, BSSET: a call of `target` if the tested bit is `want` (47_program_control R470(c), (d)). -/
def bitCall (want : Bool) (n : BitVec 5) (o : BitOpd) (target : Word) (s : State) : Res :=
  match s.badBit n with
  | some r => .refused r
  | none =>
    let b := s.bitRead o
    .next (if b.w.getLsbD n.toNat == want then b.st.call 2 target else b.st.advance 2)

/-! ## Jumps and calls on a condition -/

/-- A jump if the condition holds. -/
def jumpIf (c : Cond) (target : Word) (len : Nat) (s : State) : Res :=
  .next (if s.cond c then s.jump target else s.advance len)

/-- A call if the condition holds. -/
def callIf (c : Cond) (target : Word) (len : Nat) (s : State) : Res :=
  .next (if s.cond c then s.call len target else s.advance len)

/-- A jump to an effective address; its register is updated in any case (D37). -/
def jumpEaIf (take : Bool) (e : Ea) (s : State) : Res :=
  let s1 := s.applyUpd (s.ea e).upd
  .next (if take then s1.jump (s.ea e).addr else s1.advance (1 + e.extWords.length))

/-- A call of an effective address; its register is updated in any case (D37). -/
def callEaIf (take : Bool) (e : Ea) (s : State) : Res :=
  let s1 := s.applyUpd (s.ea e).upd
  .next (if take then s1.call (1 + e.extWords.length) (s.ea e).addr else s1.advance (1 + e.extWords.length))

/-- A short jump address (20_memory R119). -/
def shortTarget (a : BitVec 12) : Word := a.setWidth 24

/-! ## Hardware loops (45_loop R400 to R408) -/

/-- LF and FV of SR replaced. -/
def State.withLoopFlags (s : State) (lf fv : Bool) : State := s.withSr (setBit (setBit s.pcu.sr 15 lf) 16 fv)

/-- LA replaced. -/
def State.withLa (s : State) (v : Word) : State := { s with pcu := { s.pcu with la := v } }
/-- LC replaced. -/
def State.withLc (s : State) (v : Word) : State := { s with pcu := { s.pcu with lc := v } }

/-- The two pulls that leave a loop: LF and FV from the stacked SR, then LA and LC (45_loop R400; D19). -/
def State.leaveLoop (s : State) : State :=
  let s1 := s.pop.withLoopFlags (s.ssl.getLsbD 15) (s.ssl.getLsbD 16)
  (s1.pop.withLa s1.ssh).withLc s1.ssl

/-- The second push of a loop start, LA, LF and FV (45_loop R401, R402). LA takes all 24 bits of `la` in Sixteen-bit
Compatibility mode too: R401 writes the extension word, and 10_state R33, which R407 names, speaks of a MOVE to LA
(DEDUCED, log 55). The loop's first address that the push stacks is the frozen PC where a DOR or DOR FOREVER stands in a vector
word, while its LA counts from that word (R403's pseudocode has `+ 2`, 60_exceptions R571 the frozen PC: DESIGN CHOICE, log 66). -/
def State.enterLoop (s : State) (la : Word) (forever : Bool) : State :=
  ((s.push (s.nextPc 2) s.pcu.sr).withLa la).withLoopFlags true forever

/-- DO and DOR (45_loop R401, R403). `src` reads the count from the state after the first push. -/
def startLoop (src : State → Word × State) (la : Word) (s : State) : Res :=
  let r := src (s.push s.pcu.la s.pcu.lc)
  let s2 := (r.2.withLc r.1).enterLoop la false
  if r.1 = 0 ∧ s.sc = false then .next (s2.leaveLoop.withPc (la + 1)) else .next (s2.advance 2)

/-- DO FOREVER and DOR FOREVER (45_loop R402, R404). -/
def startForever (la : Word) (s : State) : Res :=
  .next (((s.push s.pcu.la s.pcu.lc).enterLoop la true).advance 2)

/-- A loop count in memory. -/
def countEa (sp : Space) (e : Ea) : State → Word × State :=
  fun t => (t.readData sp (t.ea e).addr, t.applyUpd (t.ea e).upd)

/-- A loop count in a register (45_loop R401, special sources). -/
def countReg (r : Reg) : State → Word × State := fun t => t.rdReg r

/-- `dec(LC)` (45_loop R407). -/
def State.decLc (s : State) : Word := if s.sc then low16 (s.pcu.lc - 1) else s.pcu.lc - 1

/-- Is LC one (45_loop R407)? -/
def State.lcIsOne (s : State) : Bool := if s.sc then low16 s.pcu.lc == 1 else s.pcu.lc == 1

/-- The end-of-loop rule (45_loop R407). -/
def State.endOfLoop (s : State) : State :=
  if s.fv || !s.lcIsOne then (s.withLc s.decLc).withPc s.ssh
  else s.leaveLoop.withPc (s.pcu.la + 1)

/-- REP (45_loop R408): the count loaded; `step` repeats the target. A zero count skips the word at the next address, whatever
it is: where it is a forbidden target, or the first word of two, U7 leaves that open (DESIGN CHOICE, log 13). -/
def startRep (r : Word × State) (s : State) : Res :=
  if r.1 = 0 ∧ s.sc = false then .next (r.2.advance 2)
  else
    let t := (r.2.advance 1).withLc r.1
    .next { t with ctl := { t.ctl with rep := some ⟨s.pcu.lc, none⟩ } }

/-! ## Program control bytes (43_logical R351, R362) -/

/-- SR or OMR combined with an immediate mask on one byte. -/
def controlByte (f : Word → Word → Word) (i : Word) (e : PcuByte) (s : State) : State :=
  match e with
  | .mr => s.writeSr (f s.pcu.sr (i <<< 8))
  | .ccr => s.writeSr (f s.pcu.sr i)
  | .com => s.writeOmr (f s.pcu.omr i)
  | .eom => s.writeOmr (f s.pcu.omr (i <<< 8))

/-- Which bits of the word a control byte covers. -/
def byteMask : PcuByte → Word
  | .mr => 0x00FF00#24
  | .ccr => 0x0000FF#24
  | .com => 0x0000FF#24
  | .eom => 0x00FF00#24

/-! ## The instruction cache commands (48_cache R549 to R557) -/

/-- `locate(a)` (48_cache R549). -/
def ICache.locate (c : ICache) (a : Word) : Option (Fin 8 × ICache) :=
  match c.find a with
  | some sec => some (sec, c)
  | none => c.victim.map fun sec => (sec, c.take sec a)

/-- The lock bit of the sector of `a` written, the sector made most recently used (48_cache R553 to R555, R557). -/
def ICache.setLock (c : ICache) (a : Word) (b : Bool) : ICache :=
  match c.locate a with
  | none => c
  | some (sec, d) => { d with lock := setBit d.lock sec.val b }.touch sec

/-- PFLUSHUN's change of the cache (48_cache R551). -/
def ICache.flushUnlocked (c : ICache) : ICache :=
  let one (d : ICache) (sec : Fin 8) : ICache :=
    if c.lock.getLsbD sec.val then d
    else { d with tag := d.tag.set sec 0x1FFFF#17, valid := d.valid.set sec 0 }
  { sectors.foldl one c with lru := sectors }

/-- A cache command: with SR[CE] = 0 it is an illegal instruction (48_cache R549). -/
def cacheCommand (f : ICache → ICache) (len : Nat) (s : State) : Res :=
  if s.ce then .next ((s.withCache (f s.cache)).advance len) else .next (s.illegal len)

/-! ## RESET, STOP, WAIT -/

/-- The RESET instruction (47_program_control R493; D6, D41). -/
def State.resetPeripherals (s : State) : State :=
  { s with irq := { s.irq with iprc := 0, iprp := 0, pend := s.irq.pend &&& level3Mask } }

/-- All latched DMA triggers are cleared on entry to Stop (60_exceptions R582). -/
def State.clearTriggers (s : State) : State :=
  { s with dma := { s.dma with ch := s.dma.ch.map fun c => { c with trig := false } } }

end Sys2Proof.Machine
end

