-- ==== Sys2Proof/Machine/Arithmetic.lean ====
section
/-!
DEFINITION. The meanings of the arithmetic instructions (41_arithmetic_a), one per row of the opcode table.
-/
namespace Sys2Proof.Machine

/-- The transfer source of Tcc (41_arithmetic_a R275). -/
def tccSrc (g : AccOrReg) (d : Acc) : State → AluOut :=
  match g with
  | .other => opTfrAcc d
  | .reg r => opTfrReg r d

/-- TFR B,A / A,B (parallel move) (41_arithmetic_a R276). -/
def execTfrAcc (d : Acc) (m : PMove) (s : State) : Res := runParallel (opTfrAcc d) m s

/-- TFR S,D (S=X0,Y0,X1,Y1) (parallel move) (41_arithmetic_a R276). -/
def execTfrReg (s : XYReg) (d : Acc) (m : PMove) (st : State) : Res := runParallel (opTfrReg s d) m st

/-- ADDR S,D (parallel move) (41_arithmetic_a R254). -/
def execAddr (d : Acc) (m : PMove) (s : State) : Res := runParallel (opAddr d) m s

/-- TST S (parallel move) (41_arithmetic_a R277). -/
def execTst (d : Acc) (m : PMove) (s : State) : Res := runParallel (opTst d) m s

/-- CMP B,A / A,B (parallel move) (41_arithmetic_a R258). -/
def execCmpAcc (d : Acc) (m : PMove) (s : State) : Res := runParallel (opCmpAcc d) m s

/-- CMP S1,S2 (S1=X0,Y0,X1,Y1) (parallel move) (41_arithmetic_a R258). -/
def execCmpReg (s : XYReg) (d : Acc) (m : PMove) (st : State) : Res := runParallel (opCmpReg s d) m st

/-- SUBR S,D (parallel move) (41_arithmetic_a R274). -/
def execSubr (d : Acc) (m : PMove) (s : State) : Res := runParallel (opSubr d) m s

/-- CMPM B,A / A,B (parallel move) (41_arithmetic_a R259). -/
def execCmpmAcc (d : Acc) (m : PMove) (s : State) : Res := runParallel (opCmpmAcc d) m s

/-- CMPM S1,S2 (S1=X0,Y0,X1,Y1) (parallel move) (41_arithmetic_a R259). -/
def execCmpmReg (s : XYReg) (d : Acc) (m : PMove) (st : State) : Res := runParallel (opCmpmReg s d) m st

/-- ADD B,A / A,B (parallel move) (41_arithmetic_a R252). -/
def execAddAcc (d : Acc) (m : PMove) (s : State) : Res := runParallel (opAddAcc d) m s

/-- ADD X,D / Y,D (parallel move) (41_arithmetic_a R252). -/
def execAddXY (s : XYLong) (d : Acc) (m : PMove) (st : State) : Res := runParallel (opAddXY s d) m st

/-- ADD S,D (S=X0,Y0,X1,Y1) (parallel move) (41_arithmetic_a R252). -/
def execAddReg (s : XYReg) (d : Acc) (m : PMove) (st : State) : Res := runParallel (opAddReg s d) m st

/-- RND D (parallel move) (41_arithmetic_a R270). -/
def execRnd (d : Acc) (m : PMove) (s : State) : Res := runParallel (opRnd d) m s

/-- ADDL S,D (parallel move) (41_arithmetic_a R253). -/
def execAddl (d : Acc) (m : PMove) (s : State) : Res := runParallel (opAddl d) m s

/-- CLR D (parallel move) (41_arithmetic_a R257). -/
def execClr (d : Acc) (m : PMove) (s : State) : Res := runParallel (opClr d) m s

/-- SUB B,A / A,B (parallel move) (41_arithmetic_a R272). -/
def execSubAcc (d : Acc) (m : PMove) (s : State) : Res := runParallel (opSubAcc d) m s

/-- SUB X,D / Y,D (parallel move) (41_arithmetic_a R272). -/
def execSubXY (s : XYLong) (d : Acc) (m : PMove) (st : State) : Res := runParallel (opSubXY s d) m st

/-- SUB S,D (S=X0,Y0,X1,Y1) (parallel move) (41_arithmetic_a R272). -/
def execSubReg (s : XYReg) (d : Acc) (m : PMove) (st : State) : Res := runParallel (opSubReg s d) m st

/-- MAXM A,B (parallel move) (41_arithmetic_a R266). -/
def execMaxm (m : PMove) (s : State) : Res := runParallel opMaxm m s

/-- MAX A,B (parallel move) (41_arithmetic_a R265). -/
def execMax (m : PMove) (s : State) : Res := runParallel opMax m s

/-- SUBL S,D (parallel move) (41_arithmetic_a R273). -/
def execSubl (d : Acc) (m : PMove) (s : State) : Res := runParallel (opSubl d) m s

/-- ADC S,D (parallel move) (41_arithmetic_a R251). -/
def execAdc (s : XYLong) (d : Acc) (m : PMove) (st : State) : Res := runParallel (opAdc s d) m st

/-- ASR D (parallel move) (41_arithmetic_a R256). -/
def execAsr (d : Acc) (m : PMove) (s : State) : Res := runParallel (opAsr d) m s

/-- SBC S,D (parallel move) (41_arithmetic_a R271). -/
def execSbc (s : XYLong) (d : Acc) (m : PMove) (st : State) : Res := runParallel (opSbc s d) m st

/-- ABS D (parallel move) (41_arithmetic_a R250). -/
def execAbs (d : Acc) (m : PMove) (s : State) : Res := runParallel (opAbs d) m s

/-- ASL D (parallel move) (41_arithmetic_a R255). -/
def execAsl (d : Acc) (m : PMove) (s : State) : Res := runParallel (opAsl d) m s

/-- NEG D (parallel move) (41_arithmetic_a R267). -/
def execNeg (d : Acc) (m : PMove) (s : State) : Res := runParallel (opNeg d) m s

/-- reserved parallel opcode (parallel move) (41_arithmetic_a R170). -/
def execReservedA (_d : Acc) (_m : PMove) (s : State) : Res := .next (s.illegal 1)

/-- reserved parallel opcode (Special case 1) (parallel move) (41_arithmetic_a R170). -/
def execReservedB (_m : PMove) (s : State) : Res := .next (s.illegal 1)

/-- ADD #xx,D (41_arithmetic_a R252). -/
def execAddShort (i : BitVec 6) (d : Acc) (s : State) : Res := runAlu (opAddImm (i.setWidth 24) d) 1 s

/-- ADD #xxxxxx,D (41_arithmetic_a R252). -/
def execAddImm (d : Acc) (imm : Word) (s : State) : Res := runAlu (opAddImm imm d) 2 s

/-- ASL #ii,S2,D (41_arithmetic_a R255). -/
def execAslNum (i : BitVec 6) (s : Acc) (d : Acc) (st : State) : Res := runAlu (opAslN i.toNat s d) 1 st

/-- ASL S1,S2,D (41_arithmetic_a R255). -/
def execAslBy (c : ShiftSrc) (s : Acc) (d : Acc) (st : State) : Res :=
  runAlu (fun t => opAslN ((t.shiftSrc c).extractLsb' 0 6).toNat s d t) 1 st

/-- ASR #ii,S2,D (41_arithmetic_a R256). -/
def execAsrNum (i : BitVec 6) (s : Acc) (d : Acc) (st : State) : Res := runAlu (opAsrN i.toNat s d) 1 st

/-- ASR S1,S2,D (41_arithmetic_a R256). -/
def execAsrBy (c : ShiftSrc) (s : Acc) (d : Acc) (st : State) : Res :=
  runAlu (fun t => opAsrN ((t.shiftSrc c).extractLsb' 0 6).toNat s d t) 1 st

/-- CMP #xx,S2 (41_arithmetic_a R258). -/
def execCmpShort (i : BitVec 6) (d : Acc) (s : State) : Res := runAlu (opCmpImm (i.setWidth 24) d) 1 s

/-- CMP #xxxxxx,S2 (41_arithmetic_a R258). -/
def execCmpImm (d : Acc) (imm : Word) (s : State) : Res := runAlu (opCmpImm imm d) 2 s

/-- CMPU S1,S2 (41_arithmetic_a R260). -/
def execCmpu (g : AccOrReg) (d : Acc) (s : State) : Res := runAlu (opCmpu g d) 1 s

/-- DEC D (41_arithmetic_a R261). -/
def execDec (d : Acc) (s : State) : Res := runAlu (opDec d) 1 s

/-- DIV S,D (41_arithmetic_a R262). -/
def execDiv (s : XYReg) (d : Acc) (st : State) : Res := runAlu (opDiv s d) 1 st

/-- INC D (41_arithmetic_a R264). -/
def execInc (d : Acc) (s : State) : Res := runAlu (opInc d) 1 s

/-- NORM Rn,D (41_arithmetic_a R268). -/
def execNorm (rn : Fin 8) (d : Acc) (s : State) : Res :=
  .next (((s.commitAlu (opNorm d s)).setR rn (s.agu.r[rn] + normStep s)).advance 1)

/-- NORMF S,D (41_arithmetic_a R269). -/
def execNormf (s : ShiftSrc) (d : Acc) (st : State) : Res := runAlu (fun t => opNormf (t.shiftSrc s).toInt d t) 1 st

/-- SUB #xx,D (41_arithmetic_a R272). -/
def execSubShort (i : BitVec 6) (d : Acc) (s : State) : Res := runAlu (opSubImm (i.setWidth 24) d) 1 s

/-- SUB #xxxxxx,D (41_arithmetic_a R272). -/
def execSubImm (d : Acc) (imm : Word) (s : State) : Res := runAlu (opSubImm imm d) 2 s

/-- Tcc S1,D1 (41_arithmetic_a R275). -/
def execTccD (c : Cond) (s1 : AccOrReg) (d : Acc) (s : State) : Res := runTcc c (tccSrc s1 d) none s

/-- Tcc S1,D1 S2,D2 (41_arithmetic_a R275). -/
def execTccDR (c : Cond) (s1 : AccOrReg) (d : Acc) (t : Fin 8) (u : Fin 8) (s : State) : Res :=
  runTcc c (tccSrc s1 d) (some (t, u)) s

/-- Tcc S2,D2 (41_arithmetic_a R275). -/
def execTccR (c : Cond) (t : Fin 8) (u : Fin 8) (s : State) : Res := runTcc c (fun _ => .nothing) (some (t, u)) s

end Sys2Proof.Machine
end

