-- ==== Sys2Proof/Machine/BitManipulation.lean ====
section
/-!
DEFINITION. The meanings of the bit manipulation (44_bit_manipulation), one per row of the opcode table.
-/
namespace Sys2Proof.Machine

/-- BCHG #n,[X or Y]:ea (44_bit_manipulation R391). -/
def execBchgEa (n : BitVec 5) (sp : Space) (ea : Ea) (s : State) : Res :=
  bitModify (fun b => !b) n (.mem sp ea) (1 + ea.extWords.length) s

/-- BCHG #n,[X or Y]:aa (44_bit_manipulation R391). -/
def execBchgAa (n : BitVec 5) (sp : Space) (aa : BitVec 6) (s : State) : Res :=
  bitModify (fun b => !b) n (.io sp (aaAddr aa)) 1 s

/-- BCHG #n,[X or Y]:pp (44_bit_manipulation R391). -/
def execBchgPp (n : BitVec 5) (sp : Space) (pp : BitVec 6) (s : State) : Res :=
  bitModify (fun b => !b) n (.io sp (ppAddr pp)) 1 s

/-- BCHG #n,[X or Y]:qq (44_bit_manipulation R391). -/
def execBchgQq (n : BitVec 5) (sp : Space) (qq : BitVec 6) (s : State) : Res :=
  bitModify (fun b => !b) n (.io sp (qqAddr qq)) 1 s

/-- BCHG #n,D (44_bit_manipulation R391). -/
def execBchgReg (n : BitVec 5) (r : Reg) (s : State) : Res := bitModify (fun b => !b) n (.reg r) 1 s

/-- BCLR #n,[X or Y]:ea (44_bit_manipulation R392). -/
def execBclrEa (n : BitVec 5) (sp : Space) (ea : Ea) (s : State) : Res :=
  bitModify (fun _ => false) n (.mem sp ea) (1 + ea.extWords.length) s

/-- BCLR #n,[X or Y]:aa (44_bit_manipulation R392). -/
def execBclrAa (n : BitVec 5) (sp : Space) (aa : BitVec 6) (s : State) : Res :=
  bitModify (fun _ => false) n (.io sp (aaAddr aa)) 1 s

/-- BCLR #n,[X or Y]:pp (44_bit_manipulation R392). -/
def execBclrPp (n : BitVec 5) (sp : Space) (pp : BitVec 6) (s : State) : Res :=
  bitModify (fun _ => false) n (.io sp (ppAddr pp)) 1 s

/-- BCLR #n,[X or Y]:qq (44_bit_manipulation R392). -/
def execBclrQq (n : BitVec 5) (sp : Space) (qq : BitVec 6) (s : State) : Res :=
  bitModify (fun _ => false) n (.io sp (qqAddr qq)) 1 s

/-- BCLR #n,D (44_bit_manipulation R392). -/
def execBclrReg (n : BitVec 5) (r : Reg) (s : State) : Res := bitModify (fun _ => false) n (.reg r) 1 s

/-- BSET #n,[X or Y]:ea (44_bit_manipulation R393). -/
def execBsetEa (n : BitVec 5) (sp : Space) (ea : Ea) (s : State) : Res :=
  bitModify (fun _ => true) n (.mem sp ea) (1 + ea.extWords.length) s

/-- BSET #n,[X or Y]:aa (44_bit_manipulation R393). -/
def execBsetAa (n : BitVec 5) (sp : Space) (aa : BitVec 6) (s : State) : Res :=
  bitModify (fun _ => true) n (.io sp (aaAddr aa)) 1 s

/-- BSET #n,[X or Y]:pp (44_bit_manipulation R393). -/
def execBsetPp (n : BitVec 5) (sp : Space) (pp : BitVec 6) (s : State) : Res :=
  bitModify (fun _ => true) n (.io sp (ppAddr pp)) 1 s

/-- BSET #n,[X or Y]:qq (44_bit_manipulation R393). -/
def execBsetQq (n : BitVec 5) (sp : Space) (qq : BitVec 6) (s : State) : Res :=
  bitModify (fun _ => true) n (.io sp (qqAddr qq)) 1 s

/-- BSET #n,D (44_bit_manipulation R393). -/
def execBsetReg (n : BitVec 5) (r : Reg) (s : State) : Res := bitModify (fun _ => true) n (.reg r) 1 s

/-- BTST #n,[X or Y]:ea (44_bit_manipulation R394). -/
def execBtstEa (n : BitVec 5) (sp : Space) (ea : Ea) (s : State) : Res :=
  bitTest n (.mem sp ea) (1 + ea.extWords.length) s

/-- BTST #n,[X or Y]:aa (44_bit_manipulation R394). -/
def execBtstAa (n : BitVec 5) (sp : Space) (aa : BitVec 6) (s : State) : Res := bitTest n (.io sp (aaAddr aa)) 1 s

/-- BTST #n,[X or Y]:pp (44_bit_manipulation R394). -/
def execBtstPp (n : BitVec 5) (sp : Space) (pp : BitVec 6) (s : State) : Res := bitTest n (.io sp (ppAddr pp)) 1 s

/-- BTST #n,[X or Y]:qq (44_bit_manipulation R394). -/
def execBtstQq (n : BitVec 5) (sp : Space) (qq : BitVec 6) (s : State) : Res := bitTest n (.io sp (qqAddr qq)) 1 s

/-- BTST #n,D (44_bit_manipulation R394). -/
def execBtstReg (n : BitVec 5) (r : Reg) (s : State) : Res := bitTest n (.reg r) 1 s

end Sys2Proof.Machine
end

