-- ==== Sys2Proof/Machine/Cache.lean ====
section
/-!
DEFINITION. The meanings of the cache control (48_cache), one per row of the opcode table.
-/
namespace Sys2Proof.Machine

/-- PLOCK and PUNLOCK (48_cache R549, R553, R555): with SR[CE] = 0 not even Rn changes. -/
def lockEa (b : Bool) (e : Ea) (s : State) : Res :=
  if s.ce then
    .next (((s.applyUpd (s.ea e).upd).withCache (s.cache.setLock (s.ea e).addr b)).advance (1 + e.extWords.length))
  else .next (s.illegal (1 + e.extWords.length))

/-- PLOCK ea (48_cache R553). -/
def execPlock (ea : Ea) (s : State) : Res := lockEa true ea s

/-- PLOCKR xxxx (48_cache R554). -/
def execPlockr (disp : Word) (s : State) : Res := cacheCommand (fun c => c.setLock (s.opRelative 2 disp) true) 2 s

/-- PUNLOCK ea (48_cache R555). -/
def execPunlock (ea : Ea) (s : State) : Res := lockEa false ea s

/-- PUNLOCKR xxxx (48_cache R557). -/
def execPunlockr (disp : Word) (s : State) : Res := cacheCommand (fun c => c.setLock (s.opRelative 2 disp) false) 2 s

/-- PFLUSH (48_cache R550). -/
def execPflush (s : State) : Res := cacheCommand ICache.flush 1 s

/-- PFLUSHUN (48_cache R551). -/
def execPflushun (s : State) : Res := cacheCommand ICache.flushUnlocked 1 s

/-- PFREE (48_cache R552). -/
def execPfree (s : State) : Res := cacheCommand (fun c => { c with lock := 0 }) 1 s

end Sys2Proof.Machine
end

