-- ==== Sys2Proof/Machine/Control.lean ====
section
/-!
DEFINITION. The meanings of the program control (47_program_control), one per row of the opcode table.
-/
namespace Sys2Proof.Machine

/-- IFcc IFcc (47_program_control R481). -/
def execIfcc (c : Cond) (op : AluOp) (s : State) : Res := runIf c (aluOut op) s

/-- IFcc.U IFcc.U (47_program_control R482). -/
def execIfccU (c : Cond) (op : AluOp) (s : State) : Res := runIfU c (aluOut op) s

/-- Bcc xxxx (47_program_control R471). -/
def execBccLong (c : Cond) (disp : Word) (s : State) : Res := jumpIf c (s.relative disp) 2 s

/-- Bcc xxx (47_program_control R471). -/
def execBccShort (c : Cond) (disp : BitVec 9) (s : State) : Res := jumpIf c (s.relative (disp.signExtend 24)) 1 s

/-- Bcc Rn (47_program_control R471). -/
def execBccReg (c : Cond) (rn : Fin 8) (s : State) : Res := jumpIf c (s.relative s.agu.r[rn]) 1 s

/-- BRA xxxx (47_program_control R472). -/
def execBraLong (disp : Word) (s : State) : Res := .next (s.jump (s.relative disp))

/-- BRA xxx (47_program_control R472). -/
def execBraShort (disp : BitVec 9) (s : State) : Res := .next (s.jump (s.relative (disp.signExtend 24)))

/-- BRA Rn (47_program_control R472). -/
def execBraReg (rn : Fin 8) (s : State) : Res := .next (s.jump (s.relative s.agu.r[rn]))

/-- BRCLR #n,[X or Y]:ea,xxxx (47_program_control R473). -/
def execBrclrEa (n : BitVec 5) (sp : Space) (ea : Ea) (disp : Word) (s : State) : Res :=
  bitJump false n (.mem sp ea) (s.relative disp) s

/-- BRCLR #n,[X or Y]:aa,xxxx (47_program_control R473). -/
def execBrclrAa (n : BitVec 5) (sp : Space) (aa : BitVec 6) (disp : Word) (s : State) : Res :=
  bitJump false n (.io sp (aaAddr aa)) (s.relative disp) s

/-- BRCLR #n,[X or Y]:pp,xxxx (47_program_control R473). -/
def execBrclrPp (n : BitVec 5) (sp : Space) (pp : BitVec 6) (disp : Word) (s : State) : Res :=
  bitJump false n (.io sp (ppAddr pp)) (s.relative disp) s

/-- BRCLR #n,[X or Y]:qq,xxxx (47_program_control R473). -/
def execBrclrQq (n : BitVec 5) (sp : Space) (qq : BitVec 6) (disp : Word) (s : State) : Res :=
  bitJump false n (.io sp (qqAddr qq)) (s.relative disp) s

/-- BRCLR #n,S,xxxx (47_program_control R473). -/
def execBrclrReg (n : BitVec 5) (r : Reg) (disp : Word) (s : State) : Res :=
  bitJump false n (.reg r) (s.relative disp) s

/-- BRSET #n,[X or Y]:ea,xxxx (47_program_control R474). -/
def execBrsetEa (n : BitVec 5) (sp : Space) (ea : Ea) (disp : Word) (s : State) : Res :=
  bitJump true n (.mem sp ea) (s.relative disp) s

/-- BRSET #n,[X or Y]:aa,xxxx (47_program_control R474). -/
def execBrsetAa (n : BitVec 5) (sp : Space) (aa : BitVec 6) (disp : Word) (s : State) : Res :=
  bitJump true n (.io sp (aaAddr aa)) (s.relative disp) s

/-- BRSET #n,[X or Y]:pp,xxxx (47_program_control R474). -/
def execBrsetPp (n : BitVec 5) (sp : Space) (pp : BitVec 6) (disp : Word) (s : State) : Res :=
  bitJump true n (.io sp (ppAddr pp)) (s.relative disp) s

/-- BRSET #n,[X or Y]:qq,xxxx (47_program_control R474). -/
def execBrsetQq (n : BitVec 5) (sp : Space) (qq : BitVec 6) (disp : Word) (s : State) : Res :=
  bitJump true n (.io sp (qqAddr qq)) (s.relative disp) s

/-- BRSET #n,S,xxxx (47_program_control R474). -/
def execBrsetReg (n : BitVec 5) (r : Reg) (disp : Word) (s : State) : Res :=
  bitJump true n (.reg r) (s.relative disp) s

/-- BSCLR #n,[X or Y]:ea,xxxx (47_program_control R476). -/
def execBsclrEa (n : BitVec 5) (sp : Space) (ea : Ea) (disp : Word) (s : State) : Res :=
  bitCall false n (.mem sp ea) (s.relative disp) s

/-- BSCLR #n,[X or Y]:aa,xxxx (47_program_control R476). -/
def execBsclrAa (n : BitVec 5) (sp : Space) (aa : BitVec 6) (disp : Word) (s : State) : Res :=
  bitCall false n (.io sp (aaAddr aa)) (s.relative disp) s

/-- BSCLR #n,[X or Y]:pp,xxxx (47_program_control R476). -/
def execBsclrPp (n : BitVec 5) (sp : Space) (pp : BitVec 6) (disp : Word) (s : State) : Res :=
  bitCall false n (.io sp (ppAddr pp)) (s.relative disp) s

/-- BSCLR #n,[X or Y]:qq,xxxx (47_program_control R476). -/
def execBsclrQq (n : BitVec 5) (sp : Space) (qq : BitVec 6) (disp : Word) (s : State) : Res :=
  bitCall false n (.io sp (qqAddr qq)) (s.relative disp) s

/-- BSCLR #n,S,xxxx (47_program_control R476). -/
def execBsclrReg (n : BitVec 5) (r : Reg) (disp : Word) (s : State) : Res :=
  bitCall false n (.reg r) (s.relative disp) s

/-- BSSET #n,[X or Y]:ea,xxxx (47_program_control R478). -/
def execBssetEa (n : BitVec 5) (sp : Space) (ea : Ea) (disp : Word) (s : State) : Res :=
  bitCall true n (.mem sp ea) (s.relative disp) s

/-- BSSET #n,[X or Y]:aa,xxxx (47_program_control R478). -/
def execBssetAa (n : BitVec 5) (sp : Space) (aa : BitVec 6) (disp : Word) (s : State) : Res :=
  bitCall true n (.io sp (aaAddr aa)) (s.relative disp) s

/-- BSSET #n,[X or Y]:pp,xxxx (47_program_control R478). -/
def execBssetPp (n : BitVec 5) (sp : Space) (pp : BitVec 6) (disp : Word) (s : State) : Res :=
  bitCall true n (.io sp (ppAddr pp)) (s.relative disp) s

/-- BSSET #n,[X or Y]:qq,xxxx (47_program_control R478). -/
def execBssetQq (n : BitVec 5) (sp : Space) (qq : BitVec 6) (disp : Word) (s : State) : Res :=
  bitCall true n (.io sp (qqAddr qq)) (s.relative disp) s

/-- BSSET #n,S,xxxx (47_program_control R478). -/
def execBssetReg (n : BitVec 5) (r : Reg) (disp : Word) (s : State) : Res :=
  bitCall true n (.reg r) (s.relative disp) s

/-- BScc xxxx (47_program_control R475). -/
def execBsccLong (c : Cond) (disp : Word) (s : State) : Res := callIf c (s.relative disp) 2 s

/-- BScc xxx (47_program_control R475). -/
def execBsccShort (c : Cond) (disp : BitVec 9) (s : State) : Res := callIf c (s.relative (disp.signExtend 24)) 1 s

/-- BScc Rn (47_program_control R475). -/
def execBsccReg (c : Cond) (rn : Fin 8) (s : State) : Res := callIf c (s.relative s.agu.r[rn]) 1 s

/-- BSR xxxx (47_program_control R477). -/
def execBsrLong (disp : Word) (s : State) : Res := .next (s.call 2 (s.relative disp))

/-- BSR xxx (47_program_control R477). -/
def execBsrShort (disp : BitVec 9) (s : State) : Res := .next (s.call 1 (s.relative (disp.signExtend 24)))

/-- BSR Rn (47_program_control R477). -/
def execBsrReg (rn : Fin 8) (s : State) : Res := .next (s.call 1 (s.relative s.agu.r[rn]))

/-- DEBUGcc (47_program_control R480). -/
def execDebugcc (c : Cond) (s : State) : Res := .next (if s.cond c then s.debugCall else s.advance 1)

/-- Jcc xxx (47_program_control R484). -/
def execJccShort (c : Cond) (a : BitVec 12) (s : State) : Res := jumpIf c (shortTarget a) 1 s

/-- Jcc ea (47_program_control R484). -/
def execJccEa (c : Cond) (ea : Ea) (s : State) : Res := jumpEaIf (s.cond c) ea s

/-- JCLR #n,[X or Y]:ea,xxxx (47_program_control R485). -/
def execJclrEa (n : BitVec 5) (sp : Space) (ea : Ea) (target : Word) (s : State) : Res :=
  bitJump false n (.mem sp ea) target s

/-- JCLR #n,[X or Y]:aa,xxxx (47_program_control R485). -/
def execJclrAa (n : BitVec 5) (sp : Space) (aa : BitVec 6) (target : Word) (s : State) : Res :=
  bitJump false n (.io sp (aaAddr aa)) target s

/-- JCLR #n,[X or Y]:pp,xxxx (47_program_control R485). -/
def execJclrPp (n : BitVec 5) (sp : Space) (pp : BitVec 6) (target : Word) (s : State) : Res :=
  bitJump false n (.io sp (ppAddr pp)) target s

/-- JCLR #n,[X or Y]:qq,xxxx (47_program_control R485). -/
def execJclrQq (n : BitVec 5) (sp : Space) (qq : BitVec 6) (target : Word) (s : State) : Res :=
  bitJump false n (.io sp (qqAddr qq)) target s

/-- JCLR #n,S,xxxx (47_program_control R485). -/
def execJclrReg (n : BitVec 5) (r : Reg) (target : Word) (s : State) : Res := bitJump false n (.reg r) target s

/-- JSET #n,[X or Y]:ea,xxxx (47_program_control R489). -/
def execJsetEa (n : BitVec 5) (sp : Space) (ea : Ea) (target : Word) (s : State) : Res :=
  bitJump true n (.mem sp ea) target s

/-- JSET #n,[X or Y]:aa,xxxx (47_program_control R489). -/
def execJsetAa (n : BitVec 5) (sp : Space) (aa : BitVec 6) (target : Word) (s : State) : Res :=
  bitJump true n (.io sp (aaAddr aa)) target s

/-- JSET #n,[X or Y]:pp,xxxx (47_program_control R489). -/
def execJsetPp (n : BitVec 5) (sp : Space) (pp : BitVec 6) (target : Word) (s : State) : Res :=
  bitJump true n (.io sp (ppAddr pp)) target s

/-- JSET #n,[X or Y]:qq,xxxx (47_program_control R489). -/
def execJsetQq (n : BitVec 5) (sp : Space) (qq : BitVec 6) (target : Word) (s : State) : Res :=
  bitJump true n (.io sp (qqAddr qq)) target s

/-- JSET #n,S,xxxx (47_program_control R489). -/
def execJsetReg (n : BitVec 5) (r : Reg) (target : Word) (s : State) : Res := bitJump true n (.reg r) target s

/-- JSCLR #n,[X or Y]:ea,xxxx (47_program_control R488). -/
def execJsclrEa (n : BitVec 5) (sp : Space) (ea : Ea) (target : Word) (s : State) : Res :=
  bitCall false n (.mem sp ea) target s

/-- JSCLR #n,[X or Y]:aa,xxxx (47_program_control R488). -/
def execJsclrAa (n : BitVec 5) (sp : Space) (aa : BitVec 6) (target : Word) (s : State) : Res :=
  bitCall false n (.io sp (aaAddr aa)) target s

/-- JSCLR #n,[X or Y]:pp,xxxx (47_program_control R488). -/
def execJsclrPp (n : BitVec 5) (sp : Space) (pp : BitVec 6) (target : Word) (s : State) : Res :=
  bitCall false n (.io sp (ppAddr pp)) target s

/-- JSCLR #n,[X or Y]:qq,xxxx (47_program_control R488). -/
def execJsclrQq (n : BitVec 5) (sp : Space) (qq : BitVec 6) (target : Word) (s : State) : Res :=
  bitCall false n (.io sp (qqAddr qq)) target s

/-- JSCLR #n,S,xxxx (47_program_control R488). -/
def execJsclrReg (n : BitVec 5) (r : Reg) (target : Word) (s : State) : Res := bitCall false n (.reg r) target s

/-- JSSET #n,[X or Y]:ea,xxxx (47_program_control R491). -/
def execJssetEa (n : BitVec 5) (sp : Space) (ea : Ea) (target : Word) (s : State) : Res :=
  bitCall true n (.mem sp ea) target s

/-- JSSET #n,[X or Y]:aa,xxxx (47_program_control R491). -/
def execJssetAa (n : BitVec 5) (sp : Space) (aa : BitVec 6) (target : Word) (s : State) : Res :=
  bitCall true n (.io sp (aaAddr aa)) target s

/-- JSSET #n,[X or Y]:pp,xxxx (47_program_control R491). -/
def execJssetPp (n : BitVec 5) (sp : Space) (pp : BitVec 6) (target : Word) (s : State) : Res :=
  bitCall true n (.io sp (ppAddr pp)) target s

/-- JSSET #n,[X or Y]:qq,xxxx (47_program_control R491). -/
def execJssetQq (n : BitVec 5) (sp : Space) (qq : BitVec 6) (target : Word) (s : State) : Res :=
  bitCall true n (.io sp (qqAddr qq)) target s

/-- JSSET #n,S,xxxx (47_program_control R491). -/
def execJssetReg (n : BitVec 5) (r : Reg) (target : Word) (s : State) : Res := bitCall true n (.reg r) target s

/-- JMP xxx (47_program_control R486). -/
def execJmpShort (a : BitVec 12) (s : State) : Res := .next (s.jump (shortTarget a))

/-- JMP ea (47_program_control R486). -/
def execJmpEa (ea : Ea) (s : State) : Res := jumpEaIf true ea s

/-- JScc xxx (47_program_control R487). -/
def execJsccShort (c : Cond) (a : BitVec 12) (s : State) : Res := callIf c (shortTarget a) 1 s

/-- JScc ea (47_program_control R487). -/
def execJsccEa (c : Cond) (ea : Ea) (s : State) : Res := callEaIf (s.cond c) ea s

/-- JSR xxx (47_program_control R490). -/
def execJsrShort (a : BitVec 12) (s : State) : Res := .next (s.call 1 (shortTarget a))

/-- JSR ea (47_program_control R490). -/
def execJsrEa (ea : Ea) (s : State) : Res := callEaIf true ea s

/-- TRAPcc (47_program_control R498). -/
def execTrapcc (c : Cond) (s : State) : Res := .next (if s.cond c then s.trap else s.advance 1)

/-- DEBUG (47_program_control R479). -/
def execDebug (s : State) : Res := .next s.debugCall

/-- ILLEGAL (47_program_control R483). -/
def execIllegal (s : State) : Res := .next (s.illegal 1)

/-- NOP (47_program_control R492). -/
def execNop (s : State) : Res := .next (s.advance 1)

/-- RESET (47_program_control R493). -/
def execReset (s : State) : Res := .next (s.resetPeripherals.advance 1)

/-- RTI (47_program_control R494). -/
def execRti (s : State) : Res := .next s.returnFromInterrupt

/-- RTS (47_program_control R495). -/
def execRts (s : State) : Res := .next s.returnFromSubroutine

/-- STOP (47_program_control R496). With a DMA channel active it is UNDEFINED, and `step` refuses it (`State.badResult`;
62_devices R712; U17). -/
def execStop (s : State) : Res := .next ((s.clearTriggers.withPhase .stop).advance 1)

/-- TRAP (47_program_control R497). -/
def execTrap (s : State) : Res := .next s.trap

/-- WAIT (47_program_control R499). -/
def execWait (s : State) : Res := .next ((if s.dmaActive.isSome then s else s.withPhase .wait).advance 1)

end Sys2Proof.Machine
end

