-- ==== Sys2Proof/Machine/Logical.lean ====
section
/-!
DEFINITION. The meanings of the logical instructions, ANDI and ORI (43_logical), one per row of the opcode table.
-/
namespace Sys2Proof.Machine

/-- NOT D (parallel move) (43_logical R360). -/
def execNot (d : Acc) (m : PMove) (s : State) : Res := runParallel (opNot d) m s

/-- LSR D (parallel move) (43_logical R358). -/
def execLsr (d : Acc) (m : PMove) (s : State) : Res := runParallel (opLsr d) m s

/-- ROR D (parallel move) (43_logical R364). -/
def execRor (d : Acc) (m : PMove) (s : State) : Res := runParallel (opRor d) m s

/-- LSL D (parallel move) (43_logical R357). -/
def execLsl (d : Acc) (m : PMove) (s : State) : Res := runParallel (opLsl d) m s

/-- ROL D (parallel move) (43_logical R363). -/
def execRol (d : Acc) (m : PMove) (s : State) : Res := runParallel (opRol d) m s

/-- OR S,D (parallel move) (43_logical R361). -/
def execOr (s : XYReg) (d : Acc) (m : PMove) (st : State) : Res := runParallel (opOr s d) m st

/-- EOR S,D (parallel move) (43_logical R353). -/
def execEor (s : XYReg) (d : Acc) (m : PMove) (st : State) : Res := runParallel (opEor s d) m st

/-- AND S,D (parallel move) (43_logical R350). -/
def execAnd (s : XYReg) (d : Acc) (m : PMove) (st : State) : Res := runParallel (opAnd s d) m st

/-- AND #xx,D (43_logical R350). -/
def execAndShort (i : BitVec 6) (d : Acc) (s : State) : Res :=
  runAlu (fun t => opAndWord (t.immWord (i.setWidth 24)) d t) 1 s

/-- AND #xxxxxx,D (43_logical R350). -/
def execAndImm (d : Acc) (imm : Word) (s : State) : Res := runAlu (fun t => opAndWord (t.immWord imm) d t) 2 s

/-- ANDI #xx,D (43_logical R351). -/
def execAndi (i : BitVec 8) (e : PcuByte) (s : State) : Res :=
  .next ((controlByte (fun v w => v &&& (w ||| ~~~(byteMask e))) (i.setWidth 24) e s).advance 1)

/-- CLB S,D (43_logical R352). -/
def execClb (s : Acc) (d : Acc) (st : State) : Res := runAlu (opClb s d) 1 st

/-- EOR #xx,D (43_logical R353). -/
def execEorShort (i : BitVec 6) (d : Acc) (s : State) : Res :=
  runAlu (fun t => opEorWord (t.immWord (i.setWidth 24)) d t) 1 s

/-- EOR #xxxxxx,D (43_logical R353). -/
def execEorImm (d : Acc) (imm : Word) (s : State) : Res := runAlu (fun t => opEorWord (t.immWord imm) d t) 2 s

/-- EXTRACT S1,S2,D (43_logical R354). -/
def execExtractBy (c : ShiftSrc) (s : Acc) (d : Acc) (st : State) : Res :=
  runAlu (fun t => opExtract (t.shiftSrc c) s d t) 1 st

/-- EXTRACT #CO,S2,D (43_logical R354). -/
def execExtractNum (s : Acc) (d : Acc) (co : Word) (st : State) : Res := runAlu (opExtract co s d) 2 st

/-- EXTRACTU S1,S2,D (43_logical R355). -/
def execExtractuBy (c : ShiftSrc) (s : Acc) (d : Acc) (st : State) : Res :=
  runAlu (fun t => opExtractu (t.shiftSrc c) s d t) 1 st

/-- EXTRACTU #CO,S2,D (43_logical R355). -/
def execExtractuNum (s : Acc) (d : Acc) (co : Word) (st : State) : Res := runAlu (opExtractu co s d) 2 st

/-- INSERT S1,S2,D (43_logical R356). -/
def execInsertBy (c : ShiftSrc) (s : InsSrc) (d : Acc) (st : State) : Res :=
  runAlu (fun t => opInsert (t.shiftSrc c) (t.insSrc s) d t) 1 st

/-- INSERT #CO,S2,D (43_logical R356). -/
def execInsertNum (s : InsSrc) (d : Acc) (co : Word) (st : State) : Res :=
  runAlu (fun t => opInsert co (t.insSrc s) d t) 2 st

/-- LSL #ii,D (43_logical R357). -/
def execLslNum (i : BitVec 5) (d : Acc) (s : State) : Res := runAlu (opLslN i.toNat d) 1 s

/-- LSL S,D (43_logical R357). -/
def execLslBy (c : ShiftSrc) (d : Acc) (s : State) : Res := runAlu (fun t => opLslN (t.shiftSrc c).toNat d t) 1 s

/-- LSR #ii,D (43_logical R358). -/
def execLsrNum (i : BitVec 5) (d : Acc) (s : State) : Res := runAlu (opLsrN i.toNat d) 1 s

/-- LSR S,D (43_logical R358). -/
def execLsrBy (c : ShiftSrc) (d : Acc) (s : State) : Res := runAlu (fun t => opLsrN (t.shiftSrc c).toNat d t) 1 s

/-- MERGE S,D (43_logical R359). -/
def execMerge (s : ShiftSrc) (d : Acc) (st : State) : Res := runAlu (fun t => opMerge (t.shiftSrc s) d t) 1 st

/-- OR #xx,D (43_logical R361). -/
def execOrShort (i : BitVec 6) (d : Acc) (s : State) : Res :=
  runAlu (fun t => opOrWord (t.immWord (i.setWidth 24)) d t) 1 s

/-- OR #xxxxxx,D (43_logical R361). -/
def execOrImm (d : Acc) (imm : Word) (s : State) : Res := runAlu (fun t => opOrWord (t.immWord imm) d t) 2 s

/-- ORI #xx,D (43_logical R362). -/
def execOri (i : BitVec 8) (e : PcuByte) (s : State) : Res :=
  .next ((controlByte (fun v w => v ||| w) (i.setWidth 24) e s).advance 1)

end Sys2Proof.Machine
end

