-- ==== Sys2Proof/Machine/Loop.lean ====
section
/-!
DEFINITION. The meanings of the hardware loops and REP (45_loop), one per row of the opcode table.
-/
namespace Sys2Proof.Machine

/-- BRKcc (45_loop R406). -/
def execBrkcc (c : Cond) (s : State) : Res :=
  .next (if s.cond c then s.leaveLoop.withPc (s.pcu.la + 1) else s.advance 1)

/-- DO [X or Y]:ea,expr (45_loop R401). -/
def execDoEa (sp : Space) (ea : Ea) (la : Word) (s : State) : Res := startLoop (countEa sp ea) la s

/-- DO [X or Y]:aa,expr (45_loop R401). -/
def execDoAa (sp : Space) (aa : BitVec 6) (la : Word) (s : State) : Res :=
  startLoop (fun t => (t.readData sp (aaAddr aa), t)) la s

/-- DO #xxx,expr (45_loop R401). -/
def execDoNum (cnt : BitVec 12) (la : Word) (s : State) : Res := startLoop (fun t => (cnt.setWidth 24, t)) la s

/-- DO S,expr (45_loop R401). -/
def execDoReg (r : Reg) (la : Word) (s : State) : Res :=
  if r = .c .ssh then .refused .loopCountFromSsh else startLoop (countReg r) la s

/-- DOR [X or Y]:ea,label (45_loop R403). -/
def execDorEa (sp : Space) (ea : Ea) (disp : Word) (s : State) : Res := startLoop (countEa sp ea) (s.opRelative 2 disp) s

/-- DOR [X or Y]:aa,label (45_loop R403). -/
def execDorAa (sp : Space) (aa : BitVec 6) (disp : Word) (s : State) : Res :=
  startLoop (fun t => (t.readData sp (aaAddr aa), t)) (s.opRelative 2 disp) s

/-- DOR #xxx,label (45_loop R403). -/
def execDorNum (cnt : BitVec 12) (disp : Word) (s : State) : Res :=
  startLoop (fun t => (cnt.setWidth 24, t)) (s.opRelative 2 disp) s

/-- DOR S,label (45_loop R403). -/
def execDorReg (r : Reg) (disp : Word) (s : State) : Res :=
  if r = .c .ssh then .refused .loopCountFromSsh else startLoop (countReg r) (s.opRelative 2 disp) s

/-- REP [X or Y]:ea (45_loop R408). -/
def execRepEa (sp : Space) (ea : Ea) (s : State) : Res :=
  startRep (s.readData sp (s.ea ea).addr, s.applyUpd (s.ea ea).upd) s

/-- REP [X or Y]:aa (45_loop R408). -/
def execRepAa (sp : Space) (aa : BitVec 6) (s : State) : Res := startRep (s.readData sp (aaAddr aa), s) s

/-- REP #xxx (45_loop R408). -/
def execRepNum (cnt : BitVec 12) (s : State) : Res := startRep (cnt.setWidth 24, s) s

/-- REP S (45_loop R408). -/
def execRepReg (r : Reg) (s : State) : Res := startRep (s.rdReg r) s

/-- DO FOREVER,expr (45_loop R402). -/
def execDoForever (la : Word) (s : State) : Res := startForever la s

/-- DOR FOREVER,label (45_loop R404). -/
def execDorForever (disp : Word) (s : State) : Res := startForever (s.opRelative 2 disp) s

/-- ENDDO (45_loop R405). -/
def execEnddo (s : State) : Res := .next (s.leaveLoop.advance 1)

end Sys2Proof.Machine
end

