-- ==== Sys2Proof/Machine/Move.lean ====
section
/-!
DEFINITION. The meanings of the moves, parallel and not (46_move), one per row of the opcode table.
-/
namespace Sys2Proof.Machine

/-- The destination of LUA `(Rn+aa),D` (46_move R437). -/
def aguDReg : AguReg → DReg
  | .r n => .r n
  | .n n => .n n

/-- VSL's two stores (46_move R439). -/
def storeViterbi (d : Acc) (i : Bool) (e : Ea) (s : State) : Res :=
  let lo : Word := (s.acc d).extractLsb' 0 23 ++ (if i then 1#1 else 0#1)
  let s1 := (s.applyUpd (s.ea e).upd).writeData .x (s.ea e).addr ((s.acc d).extractLsb' 24 24)
  .next ((s1.writeData .y (s.ea e).addr lo).advance (1 + e.extWords.length))

/-- MOVE (parallel move) (46_move R421). -/
def execMoveParallel (m : PMove) (s : State) : Res := runMove m s

/-- I #xx,D (46_move R422). -/
def execMoveImm (i : BitVec 8) (d : DReg) (s : State) : Res := runMove (.imm i d) s

/-- R S,D (46_move R423). -/
def execMoveReg (s : DReg) (d : DReg) (st : State) : Res := runMove (.reg s d) st

/-- U ea (46_move R424). -/
def execMoveUpd (u : UpdMode) (rn : Fin 8) (s : State) : Res := runMove (.upd u rn) s

/-- X: X:ea,D / S,X:ea / #xxxxxx,D (46_move R425). -/
def execMoveXEa (d : DReg) (w : Dir) (ea : Ea) (s : State) : Res := runMove (.xEa d w ea) s

/-- X: X:aa,D / S,X:aa (46_move R425). -/
def execMoveXAa (d : DReg) (w : Dir) (aa : BitVec 6) (s : State) : Res := runMove (.xAa d w aa) s

/-- Y: Y:ea,D / S,Y:ea / #xxxxxx,D (46_move R427). -/
def execMoveYEa (d : DReg) (w : Dir) (ea : Ea) (s : State) : Res := runMove (.yEa d w ea) s

/-- Y: Y:aa,D / S,Y:aa (46_move R427). -/
def execMoveYAa (d : DReg) (w : Dir) (aa : BitVec 6) (s : State) : Res := runMove (.yAa d w aa) s

/-- X:R X:ea,D1 S2,D2 / S1,X:ea S2,D2 / #xxxxxx,D1 S2,D2 (class I) (46_move R426). -/
def execMoveXR1 (xs : XSide) (s2 : Acc) (d2 : Y01) (w : Dir) (ea : Ea) (s : State) : Res :=
  runMove (.xr1 xs s2 d2 w ea) s

/-- X:R A,X:ea X0,A / B,X:ea X0,B (class II) (46_move R426). -/
def execMoveXR2 (d : Acc) (ea : Ea) (s : State) : Res := runMove (.xr2 d ea) s

/-- R:Y S1,D1 Y:ea,D2 / S1,D1 S2,Y:ea / S1,D1 #xxxxxx,D2 (class I) (46_move R428). -/
def execMoveRY1 (s1 : Acc) (d1 : X01) (ys : YSide) (w : Dir) (ea : Ea) (s : State) : Res :=
  runMove (.ry1 s1 d1 ys w ea) s

/-- R:Y Y0,A A,Y:ea / Y0,B B,Y:ea (class II) (46_move R428). -/
def execMoveRY2 (d : Acc) (ea : Ea) (s : State) : Res := runMove (.ry2 d ea) s

/-- L: L:ea,D / S,L:ea (46_move R429). -/
def execMoveLEa (l : LongReg) (w : Dir) (ea : Ea) (s : State) : Res := runMove (.lEa l w ea) s

/-- L: L:aa,D / S,L:aa (46_move R429). -/
def execMoveLAa (l : LongReg) (w : Dir) (aa : BitVec 6) (s : State) : Res := runMove (.lAa l w aa) s

/-- X:Y: X:<eax>,D1|S1,X:<eax>  Y:<eay>,D2|S2,Y:<eay> (46_move R430). -/
def execMoveXY (yw : Dir) (ym : XYMode) (xs : XSide) (ys : YSide) (xw : Dir) (yn : Fin 4) (xm : XYMode) (xn : Fin 8) (s : State) : Res :=
  runMove (.xy yw ym xs ys xw yn xm xn) s

/-- LRA Rn,D (46_move R438). -/
def execLraReg (rn : Fin 8) (d : DReg) (s : State) : Res := .next ((s.wrD d (s.opRelative 1 s.agu.r[rn])).advance 1)

/-- LRA xxxx,D (46_move R438). -/
def execLraLong (d : DReg) (disp : Word) (s : State) : Res := .next ((s.wrD d (s.opRelative 2 disp)).advance 2)

/-- LUA ea,D (46_move R437). -/
def execLuaEa (u : UpdMode) (rn : Fin 8) (d : DReg) (s : State) : Res :=
  .next ((s.wrD d (s.updMode .updX u rn)).advance 1)

/-- LUA (Rn+aa),D (46_move R437). -/
def execLuaDisp (disp : BitVec 7) (rn : Fin 8) (d : AguReg) (s : State) : Res :=
  .next ((s.wrD (aguDReg d) (s.indexAddr rn (disp.signExtend 24))).advance 1)

/-- MOVE X:(Rn+xxxx),D / S,X:(Rn+xxxx) (46_move R433). -/
def execMoveXLong (rn : Fin 8) (w : Dir) (r : Reg) (disp : Word) (s : State) : Res :=
  moveAt .x w (s.indexAddr rn disp) r 2 s

/-- MOVE Y:(Rn+xxxx),D / S,Y:(Rn+xxxx) (46_move R433). -/
def execMoveYLong (rn : Fin 8) (w : Dir) (r : Reg) (disp : Word) (s : State) : Res :=
  moveAt .y w (s.indexAddr rn disp) r 2 s

/-- MOVE X:(Rn+xxx),D / S,X:(Rn+xxx) (46_move R433). -/
def execMoveXShort (disp : BitVec 7) (rn : Fin 8) (w : Dir) (r : AluReg) (s : State) : Res :=
  moveAt .x w (s.indexAddr rn (disp.signExtend 24)) (.d (.alu r)) 1 s

/-- MOVE Y:(Rn+xxx),D / S,Y:(Rn+xxx) (46_move R433). -/
def execMoveYShort (disp : BitVec 7) (rn : Fin 8) (w : Dir) (r : AluReg) (s : State) : Res :=
  moveAt .y w (s.indexAddr rn (disp.signExtend 24)) (.d (.alu r)) 1 s

/-- MOVEC [X or Y]:ea,D1 / S1,[X or Y]:ea / #xxxxxx,D1 (46_move R434). -/
def execMovecEa (w : Dir) (sp : Space) (ea : Ea) (r : CReg) (s : State) : Res := moveData sp w ea (.c r) s

/-- MOVEC [X or Y]:aa,D1 / S1,[X or Y]:aa (46_move R434). -/
def execMovecAa (w : Dir) (sp : Space) (aa : BitVec 6) (r : CReg) (s : State) : Res :=
  moveAt sp w (aaAddr aa) (.c r) 1 s

/-- MOVEC S1,D2 / S2,D1 (46_move R434). -/
def execMovecReg (w : Dir) (r2 : Reg) (r : CReg) (s : State) : Res :=
  match w with
  | .write => moveRegs r2 (.c r) s
  | .read => moveRegs (.c r) r2 s

/-- MOVEC #xx,D1 (46_move R434). -/
def execMovecImm (i : BitVec 8) (r : CReg) (s : State) : Res := .next ((s.wrC r (i.setWidth 24)).advance 1)

/-- MOVEM P:ea,D / S,P:ea (46_move R435). -/
def execMovemEa (w : Dir) (ea : Ea) (r : Reg) (s : State) : Res :=
  moveProgram w (s.ea ea).addr (s.ea ea).upd r (1 + ea.extWords.length) s

/-- MOVEM P:aa,D / S,P:aa (46_move R435). -/
def execMovemAa (w : Dir) (aa : BitVec 6) (r : Reg) (s : State) : Res := moveProgram w (aaAddr aa) none r 1 s

/-- MOVEP [X or Y]:pp,[X or Y]:ea / [X or Y]:ea,[X or Y]:pp / #xxxxxx,[X or Y]:pp (46_move R436). -/
def execMovepPpEa (ps : Space) (w : Dir) (sp : Space) (ea : Ea) (pp : BitVec 6) (s : State) : Res :=
  movePeripheral ps (s.movepAddr (ppAddr pp)) w sp ea s

/-- MOVEP X:qq,[X or Y]:ea / [X or Y]:ea,X:qq / #xxxxxx,X:qq (46_move R436). -/
def execMovepXqqEa (w : Dir) (sp : Space) (ea : Ea) (qq : BitVec 6) (s : State) : Res :=
  movePeripheral .x (s.movepAddr (qqAddr qq)) w sp ea s

/-- MOVEP Y:qq,[X or Y]:ea / [X or Y]:ea,Y:qq / #xxxxxx,Y:qq (46_move R436). -/
def execMovepYqqEa (w : Dir) (sp : Space) (ea : Ea) (qq : BitVec 6) (s : State) : Res :=
  movePeripheral .y (s.movepAddr (qqAddr qq)) w sp ea s

/-- MOVEP [X or Y]:pp,P:ea / P:ea,[X or Y]:pp (46_move R436). -/
def execMovepPpP (ps : Space) (w : Dir) (ea : Ea) (pp : BitVec 6) (s : State) : Res :=
  movePeripheralP ps (s.movepAddr (ppAddr pp)) w ea s

/-- MOVEP [X or Y]:qq,P:ea / P:ea,[X or Y]:qq (46_move R436). -/
def execMovepQqP (w : Dir) (ea : Ea) (ps : Space) (qq : BitVec 6) (s : State) : Res :=
  movePeripheralP ps (s.movepAddr (qqAddr qq)) w ea s

/-- MOVEP [X or Y]:pp,D / S,[X or Y]:pp (46_move R436). -/
def execMovepPpReg (ps : Space) (w : Dir) (r : Reg) (pp : BitVec 6) (s : State) : Res :=
  movePeripheralReg ps (s.movepAddr (ppAddr pp)) w r s

/-- MOVEP X:qq,D / S,X:qq (46_move R436). -/
def execMovepXqqReg (w : Dir) (r : Reg) (qq : BitVec 6) (s : State) : Res := movePeripheralReg .x (s.movepAddr (qqAddr qq)) w r s

/-- MOVEP Y:qq,D / S,Y:qq (46_move R436). -/
def execMovepYqqReg (w : Dir) (r : Reg) (qq : BitVec 6) (s : State) : Res := movePeripheralReg .y (s.movepAddr (qqAddr qq)) w r s

/-- VSL S,i,L:ea (46_move R439). -/
def execVsl (s : Acc) (i : Bool) (ea : Ea) (st : State) : Res := storeViterbi s i ea st

/-- no_move (46_move R431). -/
def execMoveNone (s : State) : Res := runMove .none s

end Sys2Proof.Machine
end

