-- ==== Sys2Proof/Machine/Multiply.lean ====
section
/-!
DEFINITION. The meanings of the multiplications (42_arithmetic_b), one per row of the opcode table.
-/
namespace Sys2Proof.Machine

/-- MPY (±)S1,S2,D (parallel move) (42_arithmetic_b R306). -/
def execMpy (q : MulPair) (d : Acc) (minus : Bool) (m : PMove) (s : State) : Res := runParallel (opMpy q d minus) m s

/-- MPYR (±)S1,S2,D (parallel move) (42_arithmetic_b R309). -/
def execMpyr (q : MulPair) (d : Acc) (minus : Bool) (m : PMove) (s : State) : Res :=
  runParallel (opMpyr q d minus) m s

/-- MAC (±)S1,S2,D (parallel move) (42_arithmetic_b R301). -/
def execMac (q : MulPair) (d : Acc) (minus : Bool) (m : PMove) (s : State) : Res := runParallel (opMac q d minus) m s

/-- MACR (±)S1,S2,D (parallel move) (42_arithmetic_b R304). -/
def execMacr (q : MulPair) (d : Acc) (minus : Bool) (m : PMove) (s : State) : Res :=
  runParallel (opMacr q d minus) m s

/-- DMAC (±)S1,S2,D (ss,su,uu) (42_arithmetic_b R311). -/
def execDmac (sg : Sign2) (q : MulOps) (d : Acc) (minus : Bool) (s : State) : Res := runAlu (opDmac sg q d minus) 1 s

/-- MAC (±)S,#n,D (42_arithmetic_b R301). -/
def execMacNum (s : XYReg) (n : BitVec 5) (d : Acc) (minus : Bool) (st : State) : Res :=
  runAlu (opMacImm (mulConst n) s d minus) 1 st

/-- MAC(su|uu) (±)S1,S2,D (42_arithmetic_b R302). -/
def execMacSu (sg : Sign1) (q : MulOps) (d : Acc) (minus : Bool) (s : State) : Res :=
  runAlu (opMacSu sg q d minus) 1 s

/-- MACI (±)#xxxxxx,S,D (42_arithmetic_b R303). -/
def execMaci (s : XYReg) (d : Acc) (minus : Bool) (imm : Word) (st : State) : Res :=
  runAlu (opMacImm imm s d minus) 2 st

/-- MACR (±)S,#n,D (42_arithmetic_b R304). -/
def execMacrNum (s : XYReg) (n : BitVec 5) (d : Acc) (minus : Bool) (st : State) : Res :=
  runAlu (opMacrImm (mulConst n) s d minus) 1 st

/-- MACRI (±)#xxxxxx,S,D (42_arithmetic_b R305). -/
def execMacri (s : XYReg) (d : Acc) (minus : Bool) (imm : Word) (st : State) : Res :=
  runAlu (opMacrImm imm s d minus) 2 st

/-- MPY (±)S,#n,D (42_arithmetic_b R306). -/
def execMpyNum (s : XYReg) (n : BitVec 5) (d : Acc) (minus : Bool) (st : State) : Res :=
  runAlu (opMpyImm (mulConst n) s d minus) 1 st

/-- MPY(su|uu) (±)S1,S2,D (42_arithmetic_b R307). -/
def execMpySu (sg : Sign1) (q : MulOps) (d : Acc) (minus : Bool) (s : State) : Res :=
  runAlu (opMpySu sg q d minus) 1 s

/-- MPYI (±)#xxxxxx,S,D (42_arithmetic_b R308). -/
def execMpyi (s : XYReg) (d : Acc) (minus : Bool) (imm : Word) (st : State) : Res :=
  runAlu (opMpyImm imm s d minus) 2 st

/-- MPYR (±)S,#n,D (42_arithmetic_b R309). -/
def execMpyrNum (s : XYReg) (n : BitVec 5) (d : Acc) (minus : Bool) (st : State) : Res :=
  runAlu (opMpyrImm (mulConst n) s d minus) 1 st

/-- MPYRI (±)#xxxxxx,S,D (42_arithmetic_b R310). -/
def execMpyri (s : XYReg) (d : Acc) (minus : Bool) (imm : Word) (st : State) : Res :=
  runAlu (opMpyrImm imm s d minus) 2 st

end Sys2Proof.Machine
end

