-- ==== Sys2Proof/Machine/Dispatch.lean ====
section
/-!
DEFINITION. One arm per instruction: its meaning.
-/
namespace Sys2Proof.Machine

/-- What an instruction does. -/
def exec (i : Instr) (s : State) : Host.Outcome State Fault Refusal :=
  match i with
  | .moveParallel m => Sys2Proof.Machine.execMoveParallel m s
  | .tfrAcc d m => Sys2Proof.Machine.execTfrAcc d m s
  | .tfrReg src d m => Sys2Proof.Machine.execTfrReg src d m s
  | .addr d m => Sys2Proof.Machine.execAddr d m s
  | .tst d m => Sys2Proof.Machine.execTst d m s
  | .cmpAcc d m => Sys2Proof.Machine.execCmpAcc d m s
  | .cmpReg src d m => Sys2Proof.Machine.execCmpReg src d m s
  | .subr d m => Sys2Proof.Machine.execSubr d m s
  | .cmpmAcc d m => Sys2Proof.Machine.execCmpmAcc d m s
  | .cmpmReg src d m => Sys2Proof.Machine.execCmpmReg src d m s
  | .addAcc d m => Sys2Proof.Machine.execAddAcc d m s
  | .addXY src d m => Sys2Proof.Machine.execAddXY src d m s
  | .addReg src d m => Sys2Proof.Machine.execAddReg src d m s
  | .rnd d m => Sys2Proof.Machine.execRnd d m s
  | .addl d m => Sys2Proof.Machine.execAddl d m s
  | .clr d m => Sys2Proof.Machine.execClr d m s
  | .subAcc d m => Sys2Proof.Machine.execSubAcc d m s
  | .subXY src d m => Sys2Proof.Machine.execSubXY src d m s
  | .subReg src d m => Sys2Proof.Machine.execSubReg src d m s
  | .maxm m => Sys2Proof.Machine.execMaxm m s
  | .max m => Sys2Proof.Machine.execMax m s
  | .subl d m => Sys2Proof.Machine.execSubl d m s
  | .not d m => Sys2Proof.Machine.execNot d m s
  | .adc src d m => Sys2Proof.Machine.execAdc src d m s
  | .asr d m => Sys2Proof.Machine.execAsr d m s
  | .lsr d m => Sys2Proof.Machine.execLsr d m s
  | .sbc src d m => Sys2Proof.Machine.execSbc src d m s
  | .abs d m => Sys2Proof.Machine.execAbs d m s
  | .ror d m => Sys2Proof.Machine.execRor d m s
  | .asl d m => Sys2Proof.Machine.execAsl d m s
  | .lsl d m => Sys2Proof.Machine.execLsl d m s
  | .neg d m => Sys2Proof.Machine.execNeg d m s
  | .rol d m => Sys2Proof.Machine.execRol d m s
  | .or src d m => Sys2Proof.Machine.execOr src d m s
  | .eor src d m => Sys2Proof.Machine.execEor src d m s
  | .and src d m => Sys2Proof.Machine.execAnd src d m s
  | .mpy q d minus m => Sys2Proof.Machine.execMpy q d minus m s
  | .mpyr q d minus m => Sys2Proof.Machine.execMpyr q d minus m s
  | .mac q d minus m => Sys2Proof.Machine.execMac q d minus m s
  | .macr q d minus m => Sys2Proof.Machine.execMacr q d minus m s
  | .reservedA d m => Sys2Proof.Machine.execReservedA d m s
  | .reservedB m => Sys2Proof.Machine.execReservedB m s
  | .moveImm imm d => Sys2Proof.Machine.execMoveImm imm d s
  | .moveReg src d => Sys2Proof.Machine.execMoveReg src d s
  | .moveUpd u rn => Sys2Proof.Machine.execMoveUpd u rn s
  | .ifcc c op => Sys2Proof.Machine.execIfcc c op s
  | .ifccU c op => Sys2Proof.Machine.execIfccU c op s
  | .moveXEa d w ea => Sys2Proof.Machine.execMoveXEa d w ea s
  | .moveXAa d w aa => Sys2Proof.Machine.execMoveXAa d w aa s
  | .moveYEa d w ea => Sys2Proof.Machine.execMoveYEa d w ea s
  | .moveYAa d w aa => Sys2Proof.Machine.execMoveYAa d w aa s
  | .moveXR1 xs s2 d2 w ea => Sys2Proof.Machine.execMoveXR1 xs s2 d2 w ea s
  | .moveXR2 d ea => Sys2Proof.Machine.execMoveXR2 d ea s
  | .moveRY1 s1 d1 ys w ea => Sys2Proof.Machine.execMoveRY1 s1 d1 ys w ea s
  | .moveRY2 d ea => Sys2Proof.Machine.execMoveRY2 d ea s
  | .moveLEa l w ea => Sys2Proof.Machine.execMoveLEa l w ea s
  | .moveLAa l w aa => Sys2Proof.Machine.execMoveLAa l w aa s
  | .moveXY yw ym xs ys xw yn xm xn => Sys2Proof.Machine.execMoveXY yw ym xs ys xw yn xm xn s
  | .addShort imm d => Sys2Proof.Machine.execAddShort imm d s
  | .addImm d imm => Sys2Proof.Machine.execAddImm d imm s
  | .andShort imm d => Sys2Proof.Machine.execAndShort imm d s
  | .andImm d imm => Sys2Proof.Machine.execAndImm d imm s
  | .andi imm e => Sys2Proof.Machine.execAndi imm e s
  | .aslNum imm src d => Sys2Proof.Machine.execAslNum imm src d s
  | .aslBy c src d => Sys2Proof.Machine.execAslBy c src d s
  | .asrNum imm src d => Sys2Proof.Machine.execAsrNum imm src d s
  | .asrBy c src d => Sys2Proof.Machine.execAsrBy c src d s
  | .bccLong c disp => Sys2Proof.Machine.execBccLong c disp s
  | .bccShort c disp => Sys2Proof.Machine.execBccShort c disp s
  | .bccReg c rn => Sys2Proof.Machine.execBccReg c rn s
  | .bchgEa n sp ea => Sys2Proof.Machine.execBchgEa n sp ea s
  | .bchgAa n sp aa => Sys2Proof.Machine.execBchgAa n sp aa s
  | .bchgPp n sp pp => Sys2Proof.Machine.execBchgPp n sp pp s
  | .bchgQq n sp qq => Sys2Proof.Machine.execBchgQq n sp qq s
  | .bchgReg n r => Sys2Proof.Machine.execBchgReg n r s
  | .bclrEa n sp ea => Sys2Proof.Machine.execBclrEa n sp ea s
  | .bclrAa n sp aa => Sys2Proof.Machine.execBclrAa n sp aa s
  | .bclrPp n sp pp => Sys2Proof.Machine.execBclrPp n sp pp s
  | .bclrQq n sp qq => Sys2Proof.Machine.execBclrQq n sp qq s
  | .bclrReg n r => Sys2Proof.Machine.execBclrReg n r s
  | .bsetEa n sp ea => Sys2Proof.Machine.execBsetEa n sp ea s
  | .bsetAa n sp aa => Sys2Proof.Machine.execBsetAa n sp aa s
  | .bsetPp n sp pp => Sys2Proof.Machine.execBsetPp n sp pp s
  | .bsetQq n sp qq => Sys2Proof.Machine.execBsetQq n sp qq s
  | .bsetReg n r => Sys2Proof.Machine.execBsetReg n r s
  | .btstEa n sp ea => Sys2Proof.Machine.execBtstEa n sp ea s
  | .btstAa n sp aa => Sys2Proof.Machine.execBtstAa n sp aa s
  | .btstPp n sp pp => Sys2Proof.Machine.execBtstPp n sp pp s
  | .btstQq n sp qq => Sys2Proof.Machine.execBtstQq n sp qq s
  | .btstReg n r => Sys2Proof.Machine.execBtstReg n r s
  | .braLong disp => Sys2Proof.Machine.execBraLong disp s
  | .braShort disp => Sys2Proof.Machine.execBraShort disp s
  | .braReg rn => Sys2Proof.Machine.execBraReg rn s
  | .brclrEa n sp ea disp => Sys2Proof.Machine.execBrclrEa n sp ea disp s
  | .brclrAa n sp aa disp => Sys2Proof.Machine.execBrclrAa n sp aa disp s
  | .brclrPp n sp pp disp => Sys2Proof.Machine.execBrclrPp n sp pp disp s
  | .brclrQq n sp qq disp => Sys2Proof.Machine.execBrclrQq n sp qq disp s
  | .brclrReg n r disp => Sys2Proof.Machine.execBrclrReg n r disp s
  | .brsetEa n sp ea disp => Sys2Proof.Machine.execBrsetEa n sp ea disp s
  | .brsetAa n sp aa disp => Sys2Proof.Machine.execBrsetAa n sp aa disp s
  | .brsetPp n sp pp disp => Sys2Proof.Machine.execBrsetPp n sp pp disp s
  | .brsetQq n sp qq disp => Sys2Proof.Machine.execBrsetQq n sp qq disp s
  | .brsetReg n r disp => Sys2Proof.Machine.execBrsetReg n r disp s
  | .bsclrEa n sp ea disp => Sys2Proof.Machine.execBsclrEa n sp ea disp s
  | .bsclrAa n sp aa disp => Sys2Proof.Machine.execBsclrAa n sp aa disp s
  | .bsclrPp n sp pp disp => Sys2Proof.Machine.execBsclrPp n sp pp disp s
  | .bsclrQq n sp qq disp => Sys2Proof.Machine.execBsclrQq n sp qq disp s
  | .bsclrReg n r disp => Sys2Proof.Machine.execBsclrReg n r disp s
  | .bssetEa n sp ea disp => Sys2Proof.Machine.execBssetEa n sp ea disp s
  | .bssetAa n sp aa disp => Sys2Proof.Machine.execBssetAa n sp aa disp s
  | .bssetPp n sp pp disp => Sys2Proof.Machine.execBssetPp n sp pp disp s
  | .bssetQq n sp qq disp => Sys2Proof.Machine.execBssetQq n sp qq disp s
  | .bssetReg n r disp => Sys2Proof.Machine.execBssetReg n r disp s
  | .brkcc c => Sys2Proof.Machine.execBrkcc c s
  | .bsccLong c disp => Sys2Proof.Machine.execBsccLong c disp s
  | .bsccShort c disp => Sys2Proof.Machine.execBsccShort c disp s
  | .bsccReg c rn => Sys2Proof.Machine.execBsccReg c rn s
  | .bsrLong disp => Sys2Proof.Machine.execBsrLong disp s
  | .bsrShort disp => Sys2Proof.Machine.execBsrShort disp s
  | .bsrReg rn => Sys2Proof.Machine.execBsrReg rn s
  | .clb src d => Sys2Proof.Machine.execClb src d s
  | .cmpShort imm d => Sys2Proof.Machine.execCmpShort imm d s
  | .cmpImm d imm => Sys2Proof.Machine.execCmpImm d imm s
  | .cmpu g d => Sys2Proof.Machine.execCmpu g d s
  | .debugcc c => Sys2Proof.Machine.execDebugcc c s
  | .dec d => Sys2Proof.Machine.execDec d s
  | .div src d => Sys2Proof.Machine.execDiv src d s
  | .dmac sg q d minus => Sys2Proof.Machine.execDmac sg q d minus s
  | .doEa sp ea la => Sys2Proof.Machine.execDoEa sp ea la s
  | .doAa sp aa la => Sys2Proof.Machine.execDoAa sp aa la s
  | .doNum cnt la => Sys2Proof.Machine.execDoNum cnt la s
  | .doReg r la => Sys2Proof.Machine.execDoReg r la s
  | .dorEa sp ea disp => Sys2Proof.Machine.execDorEa sp ea disp s
  | .dorAa sp aa disp => Sys2Proof.Machine.execDorAa sp aa disp s
  | .dorNum cnt disp => Sys2Proof.Machine.execDorNum cnt disp s
  | .dorReg r disp => Sys2Proof.Machine.execDorReg r disp s
  | .repEa sp ea => Sys2Proof.Machine.execRepEa sp ea s
  | .repAa sp aa => Sys2Proof.Machine.execRepAa sp aa s
  | .repNum cnt => Sys2Proof.Machine.execRepNum cnt s
  | .repReg r => Sys2Proof.Machine.execRepReg r s
  | .doForever la => Sys2Proof.Machine.execDoForever la s
  | .dorForever disp => Sys2Proof.Machine.execDorForever disp s
  | .eorShort imm d => Sys2Proof.Machine.execEorShort imm d s
  | .eorImm d imm => Sys2Proof.Machine.execEorImm d imm s
  | .extractBy c src d => Sys2Proof.Machine.execExtractBy c src d s
  | .extractNum src d co => Sys2Proof.Machine.execExtractNum src d co s
  | .extractuBy c src d => Sys2Proof.Machine.execExtractuBy c src d s
  | .extractuNum src d co => Sys2Proof.Machine.execExtractuNum src d co s
  | .inc d => Sys2Proof.Machine.execInc d s
  | .insertBy c src d => Sys2Proof.Machine.execInsertBy c src d s
  | .insertNum src d co => Sys2Proof.Machine.execInsertNum src d co s
  | .jccShort c a => Sys2Proof.Machine.execJccShort c a s
  | .jccEa c ea => Sys2Proof.Machine.execJccEa c ea s
  | .jclrEa n sp ea target => Sys2Proof.Machine.execJclrEa n sp ea target s
  | .jclrAa n sp aa target => Sys2Proof.Machine.execJclrAa n sp aa target s
  | .jclrPp n sp pp target => Sys2Proof.Machine.execJclrPp n sp pp target s
  | .jclrQq n sp qq target => Sys2Proof.Machine.execJclrQq n sp qq target s
  | .jclrReg n r target => Sys2Proof.Machine.execJclrReg n r target s
  | .jsetEa n sp ea target => Sys2Proof.Machine.execJsetEa n sp ea target s
  | .jsetAa n sp aa target => Sys2Proof.Machine.execJsetAa n sp aa target s
  | .jsetPp n sp pp target => Sys2Proof.Machine.execJsetPp n sp pp target s
  | .jsetQq n sp qq target => Sys2Proof.Machine.execJsetQq n sp qq target s
  | .jsetReg n r target => Sys2Proof.Machine.execJsetReg n r target s
  | .jsclrEa n sp ea target => Sys2Proof.Machine.execJsclrEa n sp ea target s
  | .jsclrAa n sp aa target => Sys2Proof.Machine.execJsclrAa n sp aa target s
  | .jsclrPp n sp pp target => Sys2Proof.Machine.execJsclrPp n sp pp target s
  | .jsclrQq n sp qq target => Sys2Proof.Machine.execJsclrQq n sp qq target s
  | .jsclrReg n r target => Sys2Proof.Machine.execJsclrReg n r target s
  | .jssetEa n sp ea target => Sys2Proof.Machine.execJssetEa n sp ea target s
  | .jssetAa n sp aa target => Sys2Proof.Machine.execJssetAa n sp aa target s
  | .jssetPp n sp pp target => Sys2Proof.Machine.execJssetPp n sp pp target s
  | .jssetQq n sp qq target => Sys2Proof.Machine.execJssetQq n sp qq target s
  | .jssetReg n r target => Sys2Proof.Machine.execJssetReg n r target s
  | .jmpShort a => Sys2Proof.Machine.execJmpShort a s
  | .jmpEa ea => Sys2Proof.Machine.execJmpEa ea s
  | .jsccShort c a => Sys2Proof.Machine.execJsccShort c a s
  | .jsccEa c ea => Sys2Proof.Machine.execJsccEa c ea s
  | .jsrShort a => Sys2Proof.Machine.execJsrShort a s
  | .jsrEa ea => Sys2Proof.Machine.execJsrEa ea s
  | .lraReg rn d => Sys2Proof.Machine.execLraReg rn d s
  | .lraLong d disp => Sys2Proof.Machine.execLraLong d disp s
  | .lslNum imm d => Sys2Proof.Machine.execLslNum imm d s
  | .lslBy c d => Sys2Proof.Machine.execLslBy c d s
  | .lsrNum imm d => Sys2Proof.Machine.execLsrNum imm d s
  | .lsrBy c d => Sys2Proof.Machine.execLsrBy c d s
  | .luaEa u rn d => Sys2Proof.Machine.execLuaEa u rn d s
  | .luaDisp disp rn d => Sys2Proof.Machine.execLuaDisp disp rn d s
  | .macNum src n d minus => Sys2Proof.Machine.execMacNum src n d minus s
  | .macSu sg q d minus => Sys2Proof.Machine.execMacSu sg q d minus s
  | .maci src d minus imm => Sys2Proof.Machine.execMaci src d minus imm s
  | .macrNum src n d minus => Sys2Proof.Machine.execMacrNum src n d minus s
  | .macri src d minus imm => Sys2Proof.Machine.execMacri src d minus imm s
  | .merge src d => Sys2Proof.Machine.execMerge src d s
  | .moveXLong rn w r disp => Sys2Proof.Machine.execMoveXLong rn w r disp s
  | .moveYLong rn w r disp => Sys2Proof.Machine.execMoveYLong rn w r disp s
  | .moveXShort disp rn w r => Sys2Proof.Machine.execMoveXShort disp rn w r s
  | .moveYShort disp rn w r => Sys2Proof.Machine.execMoveYShort disp rn w r s
  | .movecEa w sp ea r => Sys2Proof.Machine.execMovecEa w sp ea r s
  | .movecAa w sp aa r => Sys2Proof.Machine.execMovecAa w sp aa r s
  | .movecReg w r2 r => Sys2Proof.Machine.execMovecReg w r2 r s
  | .movecImm imm r => Sys2Proof.Machine.execMovecImm imm r s
  | .movemEa w ea r => Sys2Proof.Machine.execMovemEa w ea r s
  | .movemAa w aa r => Sys2Proof.Machine.execMovemAa w aa r s
  | .movepPpEa ps w sp ea pp => Sys2Proof.Machine.execMovepPpEa ps w sp ea pp s
  | .movepXqqEa w sp ea qq => Sys2Proof.Machine.execMovepXqqEa w sp ea qq s
  | .movepYqqEa w sp ea qq => Sys2Proof.Machine.execMovepYqqEa w sp ea qq s
  | .movepPpP ps w ea pp => Sys2Proof.Machine.execMovepPpP ps w ea pp s
  | .movepQqP w ea ps qq => Sys2Proof.Machine.execMovepQqP w ea ps qq s
  | .movepPpReg ps w r pp => Sys2Proof.Machine.execMovepPpReg ps w r pp s
  | .movepXqqReg w r qq => Sys2Proof.Machine.execMovepXqqReg w r qq s
  | .movepYqqReg w r qq => Sys2Proof.Machine.execMovepYqqReg w r qq s
  | .mpyNum src n d minus => Sys2Proof.Machine.execMpyNum src n d minus s
  | .mpySu sg q d minus => Sys2Proof.Machine.execMpySu sg q d minus s
  | .mpyi src d minus imm => Sys2Proof.Machine.execMpyi src d minus imm s
  | .mpyrNum src n d minus => Sys2Proof.Machine.execMpyrNum src n d minus s
  | .mpyri src d minus imm => Sys2Proof.Machine.execMpyri src d minus imm s
  | .norm rn d => Sys2Proof.Machine.execNorm rn d s
  | .normf src d => Sys2Proof.Machine.execNormf src d s
  | .orShort imm d => Sys2Proof.Machine.execOrShort imm d s
  | .orImm d imm => Sys2Proof.Machine.execOrImm d imm s
  | .ori imm e => Sys2Proof.Machine.execOri imm e s
  | .plock ea => Sys2Proof.Machine.execPlock ea s
  | .plockr disp => Sys2Proof.Machine.execPlockr disp s
  | .punlock ea => Sys2Proof.Machine.execPunlock ea s
  | .punlockr disp => Sys2Proof.Machine.execPunlockr disp s
  | .subShort imm d => Sys2Proof.Machine.execSubShort imm d s
  | .subImm d imm => Sys2Proof.Machine.execSubImm d imm s
  | .tccD c s1 d => Sys2Proof.Machine.execTccD c s1 d s
  | .tccDR c s1 d t u => Sys2Proof.Machine.execTccDR c s1 d t u s
  | .tccR c t u => Sys2Proof.Machine.execTccR c t u s
  | .trapcc c => Sys2Proof.Machine.execTrapcc c s
  | .vsl src imm ea => Sys2Proof.Machine.execVsl src imm ea s
  | .moveNone => Sys2Proof.Machine.execMoveNone s
  | .debug => Sys2Proof.Machine.execDebug s
  | .enddo => Sys2Proof.Machine.execEnddo s
  | .illegal => Sys2Proof.Machine.execIllegal s
  | .nop => Sys2Proof.Machine.execNop s
  | .pflush => Sys2Proof.Machine.execPflush s
  | .pflushun => Sys2Proof.Machine.execPflushun s
  | .pfree => Sys2Proof.Machine.execPfree s
  | .reset => Sys2Proof.Machine.execReset s
  | .rti => Sys2Proof.Machine.execRti s
  | .rts => Sys2Proof.Machine.execRts s
  | .stop => Sys2Proof.Machine.execStop s
  | .trap => Sys2Proof.Machine.execTrap s
  | .wait => Sys2Proof.Machine.execWait s

end Sys2Proof.Machine
end

