-- ==== Sys2Proof/Machine/Dma.lean ====
section
/-!
DEFINITION. DMA transfers (62_devices R691, R700 to R712): addresses, counters, the two accesses of a word transfer, the
end of a block, triggers.
-/
namespace Sys2Proof.Machine

/-- A DMA address generation mode (62_devices R704, R705). -/
inductive DmaMode
  | noUpdate
  | postInc
  | two (k : Fin 4)
  | three (i j : Fin 4)
deriving DecidableEq, Repr

/-- The modes of a channel: source, destination, and the widths of the counter fields L and M (62_devices R704 to R706). -/
structure DmaModes where
  src : DmaMode
  dst : DmaMode
  lw : Nat
  mw : Nat
deriving DecidableEq, Repr

/-- Table 10-6 (62_devices R704). -/
def dmaMode2 (c : Nat) : Option DmaMode :=
  if c < 4 then some (.two (Fin.ofNat 4 c)) else if c = 4 then some .noUpdate else if c = 5 then some .postInc else none

/-- Table 10-7 (62_devices R705). -/
def dmaMode3 (c : Nat) : DmaMode :=
  if c < 4 then .two (Fin.ofNat 4 c)
  else if c = 4 then .noUpdate
  else if c = 5 then .postInc
  else if c = 6 then .three 0 1
  else .three 2 3

/-- Does the mode take counter mode B (62_devices R704)? -/
def DmaMode.isTwo : DmaMode → Bool
  | .two _ => true
  | .noUpdate => false
  | .postInc => false
  | .three _ _ => false

/-- The modes DCRn selects (62_devices R704, R705). `none`: a reserved code (U49). -/
def dmaModes (dcr : Word) : Option DmaModes :=
  let hi := (dcr.extractLsb' 7 3).toNat
  let lo := (dcr.extractLsb' 4 3).toNat
  if dcr.getLsbD 10 then
    let src := if dcr.getLsbD 6 then dmaMode3 hi else .three 0 1
    let dst := if dcr.getLsbD 6 then .three 2 3 else dmaMode3 hi
    match (dcr.extractLsb' 4 2).toNat with
    | 0 => some ⟨src, dst, 6, 6⟩
    | 1 => some ⟨src, dst, 6, 12⟩
    | 2 => some ⟨src, dst, 12, 6⟩
    | _ => none
  else
    match dmaMode2 lo, dmaMode2 hi with
    | some a, some b => some ⟨a, b, if a.isTwo || b.isTwo then 12 else 24, 0⟩
    | _, _ => none

/-- The level of a transfer, from the counter before it (62_devices R706). -/
def dmaLevel (m : DmaModes) (dco : Nat) : Nat :=
  if dco % 2 ^ m.lw ≠ 0 then 0
  else if dco / 2 ^ m.lw % 2 ^ m.mw ≠ 0 then 1
  else if dco / 2 ^ (m.lw + m.mw) ≠ 0 then (if m.mw = 0 then 1 else 2)
  else 3

/-- The counter after a transfer (62_devices R706): the lowest field that is not zero steps down, those below it are
reloaded. -/
def dmaCount (m : DmaModes) (dco pre : Nat) : Nat :=
  match dmaLevel m dco with
  | 0 => dco - 1
  | 1 => dco - 2 ^ m.lw + pre % 2 ^ m.lw
  | 2 => dco - 2 ^ (m.lw + m.mw) + pre % 2 ^ (m.lw + m.mw)
  | _ => pre

/-- The next address (62_devices R706). -/
def dmaNext (dor : Vector Word 4) (m : DmaMode) (a : Word) (level : Nat) : Word :=
  match m with
  | .noUpdate => a
  | .postInc => a + 1
  | .two k => if level = 0 then a + 1 else a + dor[k]
  | .three i j => if level = 0 then a + 1 else if level = 1 then a + dor[i] else a + dor[j]

/-! ## The DMA's view of memory -/

/-- One word read by the DMA. It reaches no core register, no data register of a peripheral the model has, and not the
bootstrap ROM (62_devices R700; 20_memory R102, R103): free values. Program memory is read past the cache (48_cache R556). -/
def State.dmaReadWord (s : State) (sp : DmaSpace) (a : Word) : Word :=
  match sp with
  | .data d => if s.internalIo d a then s.absent d a else s.readData d a
  | .program => if s.pInBoot a then s.absentAt .absentP a else s.pRaw a

/-- One word written by the DMA. -/
def State.dmaWriteWord (s : State) (sp : DmaSpace) (a w : Word) : State :=
  match sp with
  | .data d => if s.internalIo d a then s else s.writeData d a w
  | .program => (s.pRawWrite a w).notePWrite a

/-- The bit of an AAR that enables it for a space (62_devices R682). -/
def aarEnable : DmaSpace → Nat
  | .program => 3
  | .data .x => 4
  | .data .y => 5

/-- `match(n)` (62_devices R681). -/
def aarMatch (aar : Word) (sp : DmaSpace) (a : Word) : Bool :=
  let n := (aar.extractLsb' 8 4).toNat
  aar.getLsbD (aarEnable sp) && a.toNat / 2 ^ (24 - n) == aar.toNat / 2 ^ (24 - n)

/-- Has an enabled AAR a reserved BNC (U49)? -/
def State.aarReserved (s : State) (sp : DmaSpace) (a : Word) : Bool :=
  s.dmaExternal sp a &&
    [(0 : Fin 4), 1, 2, 3].any fun i => s.port.aar[i].getLsbD (aarEnable sp) && decide (12 < (s.port.aar[i].extractLsb' 8 4).toNat)

/-- Is the access packed into bytes: the highest matching AAR has BPAC (62_devices R681, R691)? -/
def State.dmaPacked (s : State) (sp : DmaSpace) (a : Word) : Bool :=
  s.dmaExternal sp a &&
    match [(3 : Fin 4), 2, 1, 0].find? fun i => aarMatch s.port.aar[i] sp a with
    | some i => s.port.aar[i].getLsbD 7
    | none => false

/-- A DMA read (62_devices R691, R706). -/
def State.dmaRead (s : State) (sp : DmaSpace) (a : Word) : Word :=
  if s.dmaPacked sp a then
    (s.dmaReadWord sp (a + 2)).extractLsb' 0 8 ++ (s.dmaReadWord sp (a + 1)).extractLsb' 0 8 ++
      (s.dmaReadWord sp a).extractLsb' 0 8
  else s.dmaReadWord sp a

/-- A byte in an 8-bit packed location: what its upper bits receive is free (62_devices R691; U51). -/
def State.packedByte (s : State) (sub : Nat) (b : Byte) : Word :=
  (s.free .packedUpper sub).setWidth 16 ++ b

/-- A DMA write (62_devices R691, R706). -/
def State.dmaWrite (s : State) (sp : DmaSpace) (a v : Word) : State :=
  if s.dmaPacked sp a then
    let s1 := s.dmaWriteWord sp a (s.packedByte 0 (v.extractLsb' 0 8))
    let s2 := s1.dmaWriteWord sp (a + 1) (s.packedByte 1 (v.extractLsb' 8 8))
    s2.dmaWriteWord sp (a + 2) (s.packedByte 2 (v.extractLsb' 16 8))
  else s.dmaWriteWord sp a v

/-! ## Triggers and the channel's life (62_devices R703, R707) -/

/-- Request source `drs` fires: every enabled channel that selects it latches a trigger (62_devices R707). -/
def State.dmaTrigger (s : State) (drs : BitVec 5) : State :=
  { s with dma := { s.dma with
      ch := s.dma.ch.map fun c => if dcrDe c.dcr && dcrDrs c.dcr == drs then { c with trig := true } else c } }

/-- Does some enabled channel accept the source `drs`? -/
def State.acceptsTrigger (s : State) (drs : BitVec 5) : Bool :=
  [(0 : Fin 6), 1, 2, 3, 4, 5].any fun n => dcrDe s.dma.ch[n].dcr && dcrDrs s.dma.ch[n].dcr == drs

/-- `end_of_block(n)` (62_devices R707, R710, R711). In the modes that keep DE "the DTD bit may never be set" and the
interrupt may be lost to the bus arbiter: a free bit each. -/
def State.endOfBlock (s : State) (n : Fin 6) : State :=
  let c := s.dma.ch[n]
  let keeps := decide (4 ≤ (dcrDtm c.dcr).toNat)
  let s1 := s.withChannel n { c with dcr := if keeps then c.dcr else c.dcr &&& 0x7FFFFF#24 }
  let s2 := if keeps && s.freeBit .doneFlag 0 then s1 else s1.setDtd n true
  let s3 := s2.dmaTrigger (BitVec.ofNat 5 (4 + n))
  if keeps && s.freeBit .doneFlag 1 then s3 else s3.dmaInterrupt n c.dcr

/-- Does the unit of transfer end with a word of this level (62_devices R702, R707)? -/
def dmaUnitEnds (dtm : BitVec 3) (level : Nat) : Bool :=
  match dtm.toNat with
  | 1 => true
  | 5 => true
  | 2 => decide (1 ≤ level)
  | _ => level == 3

/-- A channel whose DE software cleared stops after the word in flight (62_devices R707, R711). Where DE has been set again
meanwhile the channel stays enabled, with the trigger it has latched since; whether DTD, which setting DE has cleared, is then
set once more, and whether the interrupt is requested, is a free bit each (DESIGN CHOICE, log 46). -/
def State.dmaStopped (s : State) (n : Fin 6) : State :=
  let c := s.dma.ch[n]
  let on := dcrDe c.dcr
  if c.stopping then
    let s1 := s.withChannel n { c with trig := on && c.trig, busy := on && c.busy, stopping := false }
    let s2 := if on && s.freeBit .doneFlag 2 then s1 else s1.setDtd n true
    if on && s.freeBit .doneFlag 3 then s2 else s2.dmaInterrupt n c.dcr
  else s

/-- The trigger served, once its unit of transfer has ended (62_devices R707). -/
def State.serveTrigger (s : State) (n : Fin 6) : State :=
  s.withChannel n { s.dma.ch[n] with trig := false, busy := false }

/-- The source read of `word_transfer(n)` (62_devices R706). -/
def State.dmaLoad (s : State) (n : Fin 6) (v : Word) : State := { s with dma := { s.dma with held := some (n, v) } }

/-- The rest of `word_transfer(n)`, from the destination write on, and what it ends (62_devices R706, R707). A word in flight
from before DE was set again serves no trigger latched since. -/
def State.dmaStore (s : State) (n : Fin 6) (m : DmaModes) (ds : DmaSpace) (v : Word) : State :=
  let c := s.dma.ch[n]
  let level := dmaLevel m c.dco.toNat
  let s1 := s.dmaWrite ds c.ddr v
  let s2 := s1.withChannel n { c with
    dsr := dmaNext s.dma.dor m.src c.dsr level
    ddr := dmaNext s.dma.dor m.dst c.ddr level
    dco := BitVec.ofNat 24 (dmaCount m c.dco.toNat c.preload.toNat)
    busy := true }
  let s3 := { s2 with dma := { s2.dma with last := n, held := none } }
  let s4 := if level = 3 then s3.endOfBlock n else s3
  (if dmaUnitEnds (dcrDtm c.dcr) level && !(c.stopping && dcrDe c.dcr) then s4.serveTrigger n else s4).dmaStopped n

/-- The next access of `word_transfer(n)`: its read, or, with a word held, its write (62_devices R706, R709). -/
def dmaTransfer (n : Fin 6) (s : State) : Res :=
  let c := s.dma.ch[n]
  if c.upset then .refused .upsetDmaChannel
  else if 6 ≤ (dcrDtm c.dcr).toNat then .refused .reservedDmaCode
  else
    match dmaModes c.dcr, dmaSpace (c.dcr.extractLsb' 0 2), dmaSpace (c.dcr.extractLsb' 2 2) with
    | some m, some ss, some ds =>
      if s.aarReserved ss c.dsr || s.aarReserved ds c.ddr then .refused .reservedDmaCode
      else
        match s.dma.held with
        | none => .next (s.dmaLoad n (s.dmaRead ss c.dsr))
        | some h => .next (s.dmaStore n m ds h.2)
    | _, _, _ => .refused .reservedDmaCode

/-- Must the channel wait: its next access is external, and OMR[EBD] = 1 (62_devices R689; U14)? The other channels wait
with it (R708). -/
def State.dmaBlocked (s : State) (n : Fin 6) : Bool :=
  let c := s.dma.ch[n]
  let ext (code : BitVec 2) (a : Word) : Bool :=
    match dmaSpace code with | some sp => s.dmaExternal sp a | none => false
  s.ebd && (if s.dmaHolds n then ext (c.dcr.extractLsb' 2 2) c.ddr else ext (c.dcr.extractLsb' 0 2) c.dsr)

end Sys2Proof.Machine
end

