-- ==== Sys2Proof/Machine/Debug.lean ====
section
/-!
DEFINITION. The debug port: the TAP controller and its registers (61_debug R621 to R624), the OnCE registers
(R631 to R634, R642, R643), breakpoints (R635) and trace (R636). What runs an instruction for the debug host is in
Engine.lean.
-/
namespace Sys2Proof.Machine

/-! ## The TAP controller (61_debug R621) -/

/-- The next state, by TMS. -/
def tapNext (t : Tap) (tms : Bool) : Tap :=
  match t with
  | .testLogicReset => if tms then .testLogicReset else .runTestIdle
  | .runTestIdle => if tms then .selectDr else .runTestIdle
  | .selectDr => if tms then .selectIr else .captureDr
  | .captureDr => if tms then .exit1Dr else .shiftDr
  | .shiftDr => if tms then .exit1Dr else .shiftDr
  | .exit1Dr => if tms then .updateDr else .pauseDr
  | .pauseDr => if tms then .exit2Dr else .pauseDr
  | .exit2Dr => if tms then .updateDr else .shiftDr
  | .updateDr => if tms then .selectDr else .runTestIdle
  | .selectIr => if tms then .testLogicReset else .captureIr
  | .captureIr => if tms then .exit1Ir else .shiftIr
  | .shiftIr => if tms then .exit1Ir else .shiftIr
  | .exit1Ir => if tms then .updateIr else .pauseIr
  | .pauseIr => if tms then .exit2Ir else .pauseIr
  | .exit2Ir => if tms then .updateIr else .shiftIr
  | .updateIr => if tms then .selectDr else .runTestIdle

/-- OS1:OS0, the core status (61_debug R633). The core never waits for the bus in the model. In Reset, which the four codes do
not name, the model shows 00 (DESIGN CHOICE, log 64). -/
def State.coreStatus (s : State) : BitVec 2 :=
  match s.ctl.phase with
  | .normal => 0b00#2
  | .reset => 0b00#2
  | .wait => 0b01#2
  | .stop => 0b01#2
  | .debug => 0b11#2

/-- The JTAG instructions that hold the core in Reset: EXTEST, CLAMP, HI-Z (61_debug R622). -/
def jtagHoldsReset (ir : BitVec 4) : Bool := ir == 0b0000#4 || ir == 0b0011#4 || ir == 0b0100#4

/-- The ID register (61_debug R623). -/
def jtagId : BitVec 32 :=
  Config.jtagVersion ++ 0b000110#6 ++ 0b00000#5 ++ Config.jtagDerivative ++ 0b00000001110#11 ++ 1#1

/-! ## OnCE registers (61_debug R632 to R634) -/

/-- OSCR as the host reads it (61_debug R633). HIT reads 1 with the cache disabled. -/
def State.readOscr (s : State) : Word :=
  (s.once.oscr &&& 0x000003#24) ||| (s.coreStatus.setWidth 24 <<< 6) |||
    bitAt 24 5 (!s.ce || s.once.oscr.getLsbD 5) ||| (s.once.cause.setWidth 24 <<< 2)

/-- Entry `i` of the trace buffer, oldest first: the changes of flow, then the last executed instruction; locations never
written are free (61_debug R642). -/
def State.traceEntry (s : State) (i : Nat) : BitVec 25 :=
  match ((s.once.lastPc ++ 0#1) :: s.once.trace)[11 - i]? with
  | some e => e
  | none => (s.free .debugLatch 1).setWidth 25

/-- The LRU bit of sector `sec`: every sector less recently used is locked (61_debug R643). -/
def ICache.lruBit (c : ICache) (sec : Fin 8) : Bool :=
  ((c.lru.dropWhile fun t => t != sec).drop 1).all fun (t : Fin 8) => c.lock.getLsbD t.val

/-- Register `i` of the circular Tag buffer (61_debug R643; D48). No known OnCE command reaches it (U57). -/
def State.tagEntry (s : State) (i : Nat) : Word :=
  if h : i < 8 then (s.cache.tag[i]).setWidth 24
  else
    let bits := sectors.map fun (t : Fin 8) => bitAt 24 (8 + t.val) (s.cache.lruBit t)
    bits.foldl (fun a b => a ||| b) (s.cache.lock.setWidth 24)

/-- A register read through OnCE (61_debug R632). `none`: a reserved select, or a register that is only written. -/
def State.onceRead (s : State) (rs : BitVec 5) : Option (BitVec 32) :=
  let word (w : Word) : Option (BitVec 32) := some (w.setWidth 32)
  match rs.toNat with
  | 0 => word s.readOscr
  | 1 => word s.once.ombc
  | 2 => word s.once.obcr
  | 5 => word s.once.omlr0
  | 6 => word s.once.omlr1
  | 9 => word s.once.ogdbr
  | 10 => word s.once.opdbr
  | 11 => word s.once.opilr
  | 13 => word s.once.otc
  | 15 => word s.once.opabfr
  | 16 => word s.once.opabdr
  | 17 => word s.once.opabex
  | 18 => some ((s.traceEntry s.once.tracePtr.toNat).setWidth 32)
  | _ => none

/-- A read of the trace buffer moves its pointer, round twelve locations (61_debug R642). -/
def State.onceAfterRead (s : State) (rs : BitVec 5) : State :=
  if rs.toNat = 18 then
    { s with once := { s.once with tracePtr := BitVec.ofNat 4 ((s.once.tracePtr.toNat + 1) % 12) } }
  else s

/-- A register written through OnCE (61_debug R632); OPDBR and the GO-TO register have more to them, in Engine.lean.
A register that is only read keeps its value. Writing OMBC resets the breakpoint logic, `breakpoint_n_seen` (R635); a breakpoint
already declared by an access and not yet acknowledged stays due (DESIGN CHOICE, log 42). -/
def State.onceWrite (s : State) (rs : BitVec 5) (w : Word) : Option State :=
  let o := s.once
  match rs.toNat with
  | 0 => some { s with once := { o with oscr := (o.oscr &&& 0x000020#24) ||| (w &&& 0x000003#24) } }
  | 1 => some { s with once := { o with ombc := w, seen0 := false, seen1 := false } }
  | 2 => some { s with once := { o with obcr := w &&& 0x000FFF#24 } }
  | 5 => some { s with once := { o with omlr0 := w } }
  | 6 => some { s with once := { o with omlr1 := w } }
  | 9 => some s
  | 10 => some { s with once := { o with opdbr := w } }
  | 11 => some s
  | 12 => some { s with once := { o with goTo := w } }
  | 13 => some { s with once := { o with otc := w } }
  | 15 => some s
  | 16 => some s
  | 17 => some s
  | 18 => some s
  | _ => none

/-! ## Breakpoints (61_debug R634, R635) -/

/-- A space watched by the breakpoint logic, as OBCR[MBS] names it. -/
inductive Watch | p | x | y
deriving DecidableEq, Repr

/-- A memory access: the space, the address, is it a write, and was it an instruction fetch. -/
structure Access where
  space : Watch
  addr : Word
  isWrite : Bool
  isFetch : Bool
deriving DecidableEq, Repr

/-- The code of a space in OBCR[MBS] (61_debug R634). -/
def watchCode : Watch → BitVec 2
  | .p => 0b01#2
  | .x => 0b10#2
  | .y => 0b11#2

/-- A data space as the breakpoint logic sees it. -/
def watchOf : Space → Watch
  | .x => .x
  | .y => .y

/-- Does the access kind match RW (61_debug R634)? -/
def rwAllows (rw : BitVec 2) (isWrite : Bool) : Bool :=
  match rw.toNat with
  | 0 => false
  | 1 => isWrite
  | 2 => !isWrite
  | _ => true

/-- The comparison CC (61_debug R634; D47). -/
def ccHolds (cc : BitVec 2) (a limit : Word) : Bool :=
  match cc.toNat with
  | 0 => a != limit
  | 1 => a == limit
  | 2 => decide (a.toNat < limit.toNat)
  | _ => decide (limit.toNat < a.toNat)

/-- `bp_0` (61_debug R635). -/
def State.bp0 (s : State) (a : Access) : Bool :=
  s.once.obcr.extractLsb' 0 2 == watchCode a.space && rwAllows (s.once.obcr.extractLsb' 2 2) a.isWrite &&
    ccHolds (s.once.obcr.extractLsb' 4 2) a.addr s.once.omlr0
/-- `bp_1` (61_debug R635). -/
def State.bp1 (s : State) (a : Access) : Bool :=
  s.once.obcr.extractLsb' 0 2 == watchCode a.space && rwAllows (s.once.obcr.extractLsb' 6 2) a.isWrite &&
    ccHolds (s.once.obcr.extractLsb' 8 2) a.addr s.once.omlr1

/-- `event` (61_debug R635). -/
def State.bpEvent (s : State) (a : Access) : Bool :=
  match (s.once.obcr.extractLsb' 10 2).toNat with
  | 0 => s.bp0 a && s.bp1 a
  | 1 => s.bp0 a || s.bp1 a
  | 2 => s.bp1 a && s.once.seen0
  | _ => s.bp0 a && s.once.seen1

/-- A debug request by a breakpoint on a fetch or by trace, with its cause; acknowledged at the next boundary. -/
def State.requestDebug (s : State) (cause : BitVec 3) : State :=
  { s with once := { s.once with request := true, asked := s.once.asked ||| cause } }

/-- A breakpoint on an access by a MOVE is acknowledged an instruction later (61_debug R640 item 8). -/
def State.requestLater (s : State) : State := { s with once := { s.once with later := true } }

/-- A breakpoint that waited for an instruction to end asks now. -/
def State.promote (s : State) : State :=
  if s.once.later then ({ s with once := { s.once with later := false } } : State).requestDebug 0b010#3 else s

/-- In Debug mode already, entered by the instruction itself, the other causes join its own; and the instruction's own step of
the trace counter may have brought it to zero (61_debug R633). -/
def State.settleRequest (s : State) : State :=
  if s.ctl.phase = .debug then
    { s with once := { s.once with
      request := false, asked := 0, cause := s.once.cause ||| s.once.asked ||| s.once.traceCause } }
  else s

/-- One access seen by the breakpoint logic: OMAL latches an address of the watched space, and the comparators see it
(61_debug R635, R640 item 8). -/
def State.watchAccess (s : State) (a : Access) : State :=
  if s.once.obcr.extractLsb' 0 2 = watchCode a.space then
    let ev := s.bpEvent a
    let s1 := { s with once := { s.once with
      omal := a.addr, seen0 := s.once.seen0 || s.bp0 a, seen1 := s.once.seen1 || s.bp1 a } }
    if ev then
      if s.once.ombc = 0 then (if a.isFetch then s1.requestDebug 0b010#3 else s1.requestLater)
      else { s1 with once := { s1.once with ombc := s.once.ombc - 1 } }
    else s1
  else s

/-- All the accesses of an instruction seen. MBS = 00 watches no space (61_debug R634). -/
def State.watchAll (s : State) (l : List Access) : State :=
  if s.once.obcr.extractLsb' 0 2 = 0 then s else l.foldl State.watchAccess s

/-! ## Trace (61_debug R636, R642) -/

/-- The trace counter after one executed instruction (61_debug R636). -/
def State.traceCount (s : State) : State :=
  if s.once.oscr.getLsbD 0 then
    if s.once.otc = 0 then s.requestDebug 0b100#3
    else { s with once := { s.once with otc := s.once.otc - 1 } }
  else s

/-- A change of flow stored in the trace buffer: the address of the instruction with the invalid bit set if it was not
taken, and the target if it was (61_debug R642). -/
def State.traceFlow (s : State) (addr : Word) (taken : Bool) : State :=
  let l := if taken then (s.pcu.pc ++ 0#1) :: (addr ++ 0#1) :: s.once.trace else (addr ++ 1#1) :: s.once.trace
  { s with once := { s.once with trace := l.take 12 } }

end Sys2Proof.Machine
end

