-- ==== Sys2Proof/Machine/Kind.lean ====
section
/-!
DEFINITION. Classes of instructions, for the places where the spec names some: the target of a REP (45_loop R412), a
vector word (60_exceptions R571), the trace buffer (61_debug R642).
-/
namespace Sys2Proof.Machine

/-- What decides whether a change of flow is taken. -/
inductive Gate
  | always
  | cond (c : Cond)
  | bit (want : Bool) (n : BitVec 5) (o : BitOpd)
deriving DecidableEq, Repr

/-- A class of instructions. The argument `rel` of a jump, a call or a loop start: it computes an address relative to the
PC. -/
inductive Kind
  | plain
  | jump (rel : Bool) (g : Gate)
  | call (rel : Bool) (g : Gate)
  | loopStart (rel : Bool)
  | loopEnd
  | rep
  | ret
  | trap
  | halt
  | control (e : PcuByte)
  | move (w : Dir) (r : Reg)       -- a register to memory (`read`), or memory or immediate data to it (`write`)
  | moveRegs (src dst : Reg)
  | modify (r : Reg)
  | test (r : Reg)
deriving DecidableEq, Repr

/-- The direction seen from the other operand. -/
def flipDir : Dir → Dir
  | .read => .write
  | .write => .read

/-- The class of an instruction. -/
def kindOf : Instr → Kind
  | .moveParallel _ => .plain
  | .tfrAcc _ _ => .plain
  | .tfrReg _ _ _ => .plain
  | .addr _ _ => .plain
  | .tst _ _ => .plain
  | .cmpAcc _ _ => .plain
  | .cmpReg _ _ _ => .plain
  | .subr _ _ => .plain
  | .cmpmAcc _ _ => .plain
  | .cmpmReg _ _ _ => .plain
  | .addAcc _ _ => .plain
  | .addXY _ _ _ => .plain
  | .addReg _ _ _ => .plain
  | .rnd _ _ => .plain
  | .addl _ _ => .plain
  | .clr _ _ => .plain
  | .subAcc _ _ => .plain
  | .subXY _ _ _ => .plain
  | .subReg _ _ _ => .plain
  | .maxm _ => .plain
  | .max _ => .plain
  | .subl _ _ => .plain
  | .not _ _ => .plain
  | .adc _ _ _ => .plain
  | .asr _ _ => .plain
  | .lsr _ _ => .plain
  | .sbc _ _ _ => .plain
  | .abs _ _ => .plain
  | .ror _ _ => .plain
  | .asl _ _ => .plain
  | .lsl _ _ => .plain
  | .neg _ _ => .plain
  | .rol _ _ => .plain
  | .or _ _ _ => .plain
  | .eor _ _ _ => .plain
  | .and _ _ _ => .plain
  | .mpy _ _ _ _ => .plain
  | .mpyr _ _ _ _ => .plain
  | .mac _ _ _ _ => .plain
  | .macr _ _ _ _ => .plain
  | .reservedA _ _ => .plain
  | .reservedB _ => .plain
  | .moveImm _ _ => .plain
  | .moveReg _ _ => .plain
  | .moveUpd _ _ => .plain
  | .ifcc _ _ => .plain
  | .ifccU _ _ => .plain
  | .moveXEa _ _ _ => .plain
  | .moveXAa _ _ _ => .plain
  | .moveYEa _ _ _ => .plain
  | .moveYAa _ _ _ => .plain
  | .moveXR1 _ _ _ _ _ => .plain
  | .moveXR2 _ _ => .plain
  | .moveRY1 _ _ _ _ _ => .plain
  | .moveRY2 _ _ => .plain
  | .moveLEa _ _ _ => .plain
  | .moveLAa _ _ _ => .plain
  | .moveXY _ _ _ _ _ _ _ _ => .plain
  | .addShort _ _ => .plain
  | .addImm _ _ => .plain
  | .andShort _ _ => .plain
  | .andImm _ _ => .plain
  | .andi _ e => .control e
  | .aslNum _ _ _ => .plain
  | .aslBy _ _ _ => .plain
  | .asrNum _ _ _ => .plain
  | .asrBy _ _ _ => .plain
  | .bccLong c _ => .jump true (.cond c)
  | .bccShort c _ => .jump true (.cond c)
  | .bccReg c _ => .jump true (.cond c)
  | .bchgEa _ _ _ => .plain
  | .bchgAa _ _ _ => .plain
  | .bchgPp _ _ _ => .plain
  | .bchgQq _ _ _ => .plain
  | .bchgReg _ r => .modify r
  | .bclrEa _ _ _ => .plain
  | .bclrAa _ _ _ => .plain
  | .bclrPp _ _ _ => .plain
  | .bclrQq _ _ _ => .plain
  | .bclrReg _ r => .modify r
  | .bsetEa _ _ _ => .plain
  | .bsetAa _ _ _ => .plain
  | .bsetPp _ _ _ => .plain
  | .bsetQq _ _ _ => .plain
  | .bsetReg _ r => .modify r
  | .btstEa _ _ _ => .plain
  | .btstAa _ _ _ => .plain
  | .btstPp _ _ _ => .plain
  | .btstQq _ _ _ => .plain
  | .btstReg _ r => .test r
  | .braLong _ => .jump true .always
  | .braShort _ => .jump true .always
  | .braReg _ => .jump true .always
  | .brclrEa n sp e _ => .jump true (.bit false n (.mem sp e))
  | .brclrAa n sp a _ => .jump true (.bit false n (.io sp (aaAddr a)))
  | .brclrPp n sp a _ => .jump true (.bit false n (.io sp (ppAddr a)))
  | .brclrQq n sp a _ => .jump true (.bit false n (.io sp (qqAddr a)))
  | .brclrReg n r _ => .jump true (.bit false n (.reg r))
  | .brsetEa n sp e _ => .jump true (.bit true n (.mem sp e))
  | .brsetAa n sp a _ => .jump true (.bit true n (.io sp (aaAddr a)))
  | .brsetPp n sp a _ => .jump true (.bit true n (.io sp (ppAddr a)))
  | .brsetQq n sp a _ => .jump true (.bit true n (.io sp (qqAddr a)))
  | .brsetReg n r _ => .jump true (.bit true n (.reg r))
  | .bsclrEa n sp e _ => .call true (.bit false n (.mem sp e))
  | .bsclrAa n sp a _ => .call true (.bit false n (.io sp (aaAddr a)))
  | .bsclrPp n sp a _ => .call true (.bit false n (.io sp (ppAddr a)))
  | .bsclrQq n sp a _ => .call true (.bit false n (.io sp (qqAddr a)))
  | .bsclrReg n r _ => .call true (.bit false n (.reg r))
  | .bssetEa n sp e _ => .call true (.bit true n (.mem sp e))
  | .bssetAa n sp a _ => .call true (.bit true n (.io sp (aaAddr a)))
  | .bssetPp n sp a _ => .call true (.bit true n (.io sp (ppAddr a)))
  | .bssetQq n sp a _ => .call true (.bit true n (.io sp (qqAddr a)))
  | .bssetReg n r _ => .call true (.bit true n (.reg r))
  | .brkcc _ => .loopEnd
  | .bsccLong c _ => .call true (.cond c)
  | .bsccShort c _ => .call true (.cond c)
  | .bsccReg c _ => .call true (.cond c)
  | .bsrLong _ => .call true .always
  | .bsrShort _ => .call true .always
  | .bsrReg _ => .call true .always
  | .clb _ _ => .plain
  | .cmpShort _ _ => .plain
  | .cmpImm _ _ => .plain
  | .cmpu _ _ => .plain
  | .debugcc _ => .plain
  | .dec _ => .plain
  | .div _ _ => .plain
  | .dmac _ _ _ _ => .plain
  | .doEa _ _ _ => .loopStart false
  | .doAa _ _ _ => .loopStart false
  | .doNum _ _ => .loopStart false
  | .doReg _ _ => .loopStart false
  | .dorEa _ _ _ => .loopStart true
  | .dorAa _ _ _ => .loopStart true
  | .dorNum _ _ => .loopStart true
  | .dorReg _ _ => .loopStart true
  | .repEa _ _ => .rep
  | .repAa _ _ => .rep
  | .repNum _ => .rep
  | .repReg _ => .rep
  | .doForever _ => .loopStart false
  | .dorForever _ => .loopStart true
  | .eorShort _ _ => .plain
  | .eorImm _ _ => .plain
  | .extractBy _ _ _ => .plain
  | .extractNum _ _ _ => .plain
  | .extractuBy _ _ _ => .plain
  | .extractuNum _ _ _ => .plain
  | .inc _ => .plain
  | .insertBy _ _ _ => .plain
  | .insertNum _ _ _ => .plain
  | .jccShort c _ => .jump false (.cond c)
  | .jccEa c _ => .jump false (.cond c)
  | .jclrEa n sp e _ => .jump false (.bit false n (.mem sp e))
  | .jclrAa n sp a _ => .jump false (.bit false n (.io sp (aaAddr a)))
  | .jclrPp n sp a _ => .jump false (.bit false n (.io sp (ppAddr a)))
  | .jclrQq n sp a _ => .jump false (.bit false n (.io sp (qqAddr a)))
  | .jclrReg n r _ => .jump false (.bit false n (.reg r))
  | .jsetEa n sp e _ => .jump false (.bit true n (.mem sp e))
  | .jsetAa n sp a _ => .jump false (.bit true n (.io sp (aaAddr a)))
  | .jsetPp n sp a _ => .jump false (.bit true n (.io sp (ppAddr a)))
  | .jsetQq n sp a _ => .jump false (.bit true n (.io sp (qqAddr a)))
  | .jsetReg n r _ => .jump false (.bit true n (.reg r))
  | .jsclrEa n sp e _ => .call false (.bit false n (.mem sp e))
  | .jsclrAa n sp a _ => .call false (.bit false n (.io sp (aaAddr a)))
  | .jsclrPp n sp a _ => .call false (.bit false n (.io sp (ppAddr a)))
  | .jsclrQq n sp a _ => .call false (.bit false n (.io sp (qqAddr a)))
  | .jsclrReg n r _ => .call false (.bit false n (.reg r))
  | .jssetEa n sp e _ => .call false (.bit true n (.mem sp e))
  | .jssetAa n sp a _ => .call false (.bit true n (.io sp (aaAddr a)))
  | .jssetPp n sp a _ => .call false (.bit true n (.io sp (ppAddr a)))
  | .jssetQq n sp a _ => .call false (.bit true n (.io sp (qqAddr a)))
  | .jssetReg n r _ => .call false (.bit true n (.reg r))
  | .jmpShort _ => .jump false .always
  | .jmpEa _ => .jump false .always
  | .jsccShort c _ => .call false (.cond c)
  | .jsccEa c _ => .call false (.cond c)
  | .jsrShort _ => .call false .always
  | .jsrEa _ => .call false .always
  | .lraReg _ _ => .plain
  | .lraLong _ _ => .plain
  | .lslNum _ _ => .plain
  | .lslBy _ _ => .plain
  | .lsrNum _ _ => .plain
  | .lsrBy _ _ => .plain
  | .luaEa _ _ _ => .plain
  | .luaDisp _ _ _ => .plain
  | .macNum _ _ _ _ => .plain
  | .macSu _ _ _ _ => .plain
  | .maci _ _ _ _ => .plain
  | .macrNum _ _ _ _ => .plain
  | .macri _ _ _ _ => .plain
  | .merge _ _ => .plain
  | .moveXLong _ w r _ => .move w r
  | .moveYLong _ w r _ => .move w r
  | .moveXShort _ _ w r => .move w (.d (.alu r))
  | .moveYShort _ _ w r => .move w (.d (.alu r))
  | .movecEa w _ _ r => .move w (.c r)
  | .movecAa w _ _ r => .move w (.c r)
  | .movecReg w r2 r => .moveRegs (match w with | .write => r2 | .read => .c r) (match w with | .write => .c r | .read => r2)
  | .movecImm _ r => .move .write (.c r)
  | .movemEa w _ r => .move w r
  | .movemAa w _ r => .move w r
  | .movepPpEa _ _ _ _ _ => .plain
  | .movepXqqEa _ _ _ _ => .plain
  | .movepYqqEa _ _ _ _ => .plain
  | .movepPpP _ _ _ _ => .plain
  | .movepQqP _ _ _ _ => .plain
  | .movepPpReg _ w r _ => .move (flipDir w) r
  | .movepXqqReg w r _ => .move (flipDir w) r
  | .movepYqqReg w r _ => .move (flipDir w) r
  | .mpyNum _ _ _ _ => .plain
  | .mpySu _ _ _ _ => .plain
  | .mpyi _ _ _ _ => .plain
  | .mpyrNum _ _ _ _ => .plain
  | .mpyri _ _ _ _ => .plain
  | .norm _ _ => .plain
  | .normf _ _ => .plain
  | .orShort _ _ => .plain
  | .orImm _ _ => .plain
  | .ori _ e => .control e
  | .plock _ => .plain
  | .plockr _ => .plain
  | .punlock _ => .plain
  | .punlockr _ => .plain
  | .subShort _ _ => .plain
  | .subImm _ _ => .plain
  | .tccD _ _ _ => .plain
  | .tccDR _ _ _ _ _ => .plain
  | .tccR _ _ _ => .plain
  | .trapcc _ => .trap
  | .vsl _ _ _ => .plain
  | .moveNone => .plain
  | .debug => .plain
  | .enddo => .loopEnd
  | .illegal => .plain
  | .nop => .plain
  | .pflush => .plain
  | .pflushun => .plain
  | .pfree => .plain
  | .reset => .plain
  | .rti => .ret
  | .rts => .ret
  | .stop => .halt
  | .trap => .trap
  | .wait => .halt

/-- The register that any type of MOVE writes (45_loop R409). -/
def Kind.movesTo : Kind → Option Reg
  | .move .write r => some r
  | .moveRegs _ d => some d
  | _ => none

/-- The register that any type of MOVE reads. -/
def Kind.movesFrom : Kind → Option Reg
  | .move .read r => some r
  | .moveRegs r _ => some r
  | _ => none

/-- Is it a DO, DOR, DO FOREVER or DOR FOREVER? -/
def Kind.startsLoop : Kind → Bool
  | .loopStart _ => true
  | _ => false

/-- May REP repeat an instruction of the class (45_loop R412)? -/
def Kind.repeatable : Kind → Bool
  | .jump _ _ => false
  | .call _ _ => false
  | .loopStart _ => false
  | .loopEnd => false
  | .rep => false
  | .ret => false
  | .trap => false
  | .halt => false
  | .plain => true
  | .control _ => true
  | .move _ _ => true
  | .moveRegs _ _ => true
  | .modify _ => true
  | .test _ => true

/-- LA, LC, SP, SC, SSH, SSL (60_exceptions R571). -/
def isLoopOrStack : Reg → Bool
  | .d _ => false
  | .c r => r == .la || r == .lc || r == .sp || r == .sc || r == .ssh || r == .ssl

/-- May an instruction of the class stand in a vector word (60_exceptions R571)? The list names DO and DO FOREVER, not
DOR and DOR FOREVER. -/
def Kind.inVector : Kind → Bool
  | .plain => true
  | .jump _ _ => true
  | .call _ _ => true
  | .loopStart rel => rel
  | .loopEnd => false
  | .rep => false
  | .ret => false
  | .trap => false
  | .halt => false
  | .control e => e == .com || e == .eom
  | .move w r => match w with
    | .read => r != .c .ssh
    | .write => !isLoopOrStack r
  | .moveRegs src dst => src != .c .ssh && !isLoopOrStack dst
  | .modify r => !isLoopOrStack r
  | .test r => r != .c .ssh

/-- Is it a change of flow (61_debug R642)? -/
def Kind.isFlow : Kind → Bool
  | .jump _ _ => true
  | .call _ _ => true
  | .ret => true
  | .plain => false
  | .loopStart _ => false
  | .loopEnd => false
  | .rep => false
  | .trap => false
  | .halt => false
  | .control _ => false
  | .move _ _ => false
  | .moveRegs _ _ => false
  | .modify _ => false
  | .test _ => false

/-- Is it of the JSR class (60_exceptions R571)? -/
def Kind.isCall : Kind → Bool
  | .call _ _ => true
  | .jump _ _ => false
  | .ret => false
  | .plain => false
  | .loopStart _ => false
  | .loopEnd => false
  | .rep => false
  | .trap => false
  | .halt => false
  | .control _ => false
  | .move _ _ => false
  | .moveRegs _ _ => false
  | .modify _ => false
  | .test _ => false

/-- Is a change of flow of the class taken (47_program_control R470)? -/
def State.flowTaken (s : State) (k : Kind) : Bool :=
  let gate (g : Gate) : Bool :=
    match g with
    | .always => true
    | .cond c => s.cond c
    | .bit want n o => (s.bitRead o).w.getLsbD n.toNat == want
  match k with
  | .jump _ g => gate g
  | .call _ g => gate g
  | .ret => true
  | _ => false

/-- An instruction that requests the Illegal Instruction interrupt by its operation code: ILLEGAL, for which an undefined
pattern stands too (30_encoding R170), and the reserved opcode bytes, which the model counts as ILLEGAL wherever the spec
names it (DESIGN CHOICE, log 10). -/
def isIllegal : Instr → Bool
  | .illegal => true
  | .reservedA _ _ => true
  | .reservedB _ => true
  | _ => false

/-- May REP repeat the instruction: one word, of a class that it may repeat (45_loop R412), and not ILLEGAL
(47_program_control R483)? -/
def repeatableInstr (i : Instr) : Bool := i.len == 1 && (kindOf i).repeatable && !isIllegal i

/-- Does the instruction change the flow: a change of flow of its class, or BRKcc with a true condition, which goes to LA + 1
(45_loop R406)? -/
def State.changesFlow (s : State) (i : Instr) : Bool :=
  match i with
  | .brkcc c => s.cond c
  | _ => s.flowTaken (kindOf i)

/-- Does the trace buffer take the instruction (61_debug R642): a change of flow, BRKcc among them? -/
def isTraced (i : Instr) : Bool :=
  match i with
  | .brkcc _ => true
  | _ => (kindOf i).isFlow

/-- The parallel move of an instruction, or the move of a move row; none where it has none. -/
def parallelPart : Instr → PMove
  | .moveParallel m => m
  | .tfrAcc _ m => m
  | .tfrReg _ _ m => m
  | .addr _ m => m
  | .tst _ m => m
  | .cmpAcc _ m => m
  | .cmpReg _ _ m => m
  | .subr _ m => m
  | .cmpmAcc _ m => m
  | .cmpmReg _ _ m => m
  | .addAcc _ m => m
  | .addXY _ _ m => m
  | .addReg _ _ m => m
  | .rnd _ m => m
  | .addl _ m => m
  | .clr _ m => m
  | .subAcc _ m => m
  | .subXY _ _ m => m
  | .subReg _ _ m => m
  | .maxm m => m
  | .max m => m
  | .subl _ m => m
  | .not _ m => m
  | .adc _ _ m => m
  | .asr _ m => m
  | .lsr _ m => m
  | .sbc _ _ m => m
  | .abs _ m => m
  | .ror _ m => m
  | .asl _ m => m
  | .lsl _ m => m
  | .neg _ m => m
  | .rol _ m => m
  | .or _ _ m => m
  | .eor _ _ m => m
  | .and _ _ m => m
  | .mpy _ _ _ m => m
  | .mpyr _ _ _ m => m
  | .mac _ _ _ m => m
  | .macr _ _ _ m => m
  | .moveImm i d => .imm i d
  | .moveReg r d => .reg r d
  | .moveUpd u n => .upd u n
  | .moveXEa d w e => .xEa d w e
  | .moveXAa d w a => .xAa d w a
  | .moveYEa d w e => .yEa d w e
  | .moveYAa d w a => .yAa d w a
  | .moveXR1 xs s2 d2 w e => .xr1 xs s2 d2 w e
  | .moveXR2 d e => .xr2 d e
  | .moveRY1 s1 d1 ys w e => .ry1 s1 d1 ys w e
  | .moveRY2 d e => .ry2 d e
  | .moveLEa l w e => .lEa l w e
  | .moveLAa l w a => .lAa l w a
  | .moveXY yw ym xs ys xw yn xm xn => .xy yw ym xs ys xw yn xm xn
  | _ => .none

end Sys2Proof.Machine
end

