-- ==== Sys2Proof/Machine/Accesses.lean ====
section
/-!
DEFINITION. The memory accesses an instruction makes, in order (61_debug R635; 20_memory R106), the external ones among them,
and those that may be made later than the others (20_memory R111, R112, R140).
-/
namespace Sys2Proof.Machine

/-- A read of data memory. -/
def reads (sp : Space) (a : Word) : List Access := [⟨watchOf sp, a, false, false⟩]

/-- A read and a write of it. -/
def modifies (sp : Space) (a : Word) : List Access := [⟨watchOf sp, a, false, false⟩, ⟨watchOf sp, a, true, false⟩]

/-- The access of a move: `w = .write`, the register is the destination and memory is read. -/
def touches (sp : Space) (w : Dir) (a : Word) : List Access := [⟨watchOf sp, a, w == .read, false⟩]

/-- The same in program memory. -/
def touchesP (w : Dir) (a : Word) : List Access := [⟨.p, a, w == .read, false⟩]

/-- The two accesses of a MOVEP, the read before the write (46_move R436): `w = .write`, the peripheral is the
destination. -/
def readFirst (w : Dir) (peripheral other : List Access) : List Access :=
  match w with
  | .write => other ++ peripheral
  | .read => peripheral ++ other

/-- The access of a move by an effective address: none for immediate data. -/
def State.eaAccess (s : State) (sp : Space) (w : Dir) (e : Ea) : List Access :=
  if e.isImm then [] else touches sp w (s.ea e).addr

/-- The accesses of a parallel move. -/
def State.moveAccesses (s : State) (m : PMove) : List Access :=
  match m with
  | .none => []
  | .imm _ _ => []
  | .reg _ _ => []
  | .upd _ _ => []
  | .xEa _ w e => s.eaAccess .x w e
  | .xAa _ w a => touches .x w (aaAddr a)
  | .yEa _ w e => s.eaAccess .y w e
  | .yAa _ w a => touches .y w (aaAddr a)
  | .xr1 _ _ _ w e => s.eaAccess .x w e
  | .xr2 _ e => s.eaAccess .x .read e
  | .ry1 _ _ _ w e => s.eaAccess .y w e
  | .ry2 _ e => s.eaAccess .y .read e
  | .lEa _ w e => s.eaAccess .x w e ++ s.eaAccess .y w e
  | .lAa _ w a => touches .x w (aaAddr a) ++ touches .y w (aaAddr a)
  | .xy yw ym _ _ xw yn xm xn =>
    touches .x xw (s.eaXY .updX xm xn).addr ++ touches .y yw (s.eaXY .updY ym (yRegOf xn yn)).addr

/-- The data accesses of an instruction, but for those of the stack extension. -/
def State.accesses (st : State) (i : Instr) : List Access :=
  match i with
  | .moveParallel m => st.moveAccesses m
  | .tfrAcc _ m => st.moveAccesses m
  | .tfrReg _ _ m => st.moveAccesses m
  | .addr _ m => st.moveAccesses m
  | .tst _ m => st.moveAccesses m
  | .cmpAcc _ m => st.moveAccesses m
  | .cmpReg _ _ m => st.moveAccesses m
  | .subr _ m => st.moveAccesses m
  | .cmpmAcc _ m => st.moveAccesses m
  | .cmpmReg _ _ m => st.moveAccesses m
  | .addAcc _ m => st.moveAccesses m
  | .addXY _ _ m => st.moveAccesses m
  | .addReg _ _ m => st.moveAccesses m
  | .rnd _ m => st.moveAccesses m
  | .addl _ m => st.moveAccesses m
  | .clr _ m => st.moveAccesses m
  | .subAcc _ m => st.moveAccesses m
  | .subXY _ _ m => st.moveAccesses m
  | .subReg _ _ m => st.moveAccesses m
  | .maxm m => st.moveAccesses m
  | .max m => st.moveAccesses m
  | .subl _ m => st.moveAccesses m
  | .not _ m => st.moveAccesses m
  | .adc _ _ m => st.moveAccesses m
  | .asr _ m => st.moveAccesses m
  | .lsr _ m => st.moveAccesses m
  | .sbc _ _ m => st.moveAccesses m
  | .abs _ m => st.moveAccesses m
  | .ror _ m => st.moveAccesses m
  | .asl _ m => st.moveAccesses m
  | .lsl _ m => st.moveAccesses m
  | .neg _ m => st.moveAccesses m
  | .rol _ m => st.moveAccesses m
  | .or _ _ m => st.moveAccesses m
  | .eor _ _ m => st.moveAccesses m
  | .and _ _ m => st.moveAccesses m
  | .mpy _ _ _ m => st.moveAccesses m
  | .mpyr _ _ _ m => st.moveAccesses m
  | .mac _ _ _ m => st.moveAccesses m
  | .macr _ _ _ m => st.moveAccesses m
  | .reservedA _ _ => []
  | .reservedB _ => []
  | .moveImm _ _ => []
  | .moveReg _ _ => []
  | .moveUpd _ _ => []
  | .ifcc _ _ => []
  | .ifccU _ _ => []
  | .moveXEa d w ea => st.moveAccesses (.xEa d w ea)
  | .moveXAa d w aa => st.moveAccesses (.xAa d w aa)
  | .moveYEa d w ea => st.moveAccesses (.yEa d w ea)
  | .moveYAa d w aa => st.moveAccesses (.yAa d w aa)
  | .moveXR1 xs s2 d2 w ea => st.moveAccesses (.xr1 xs s2 d2 w ea)
  | .moveXR2 d ea => st.moveAccesses (.xr2 d ea)
  | .moveRY1 s1 d1 ys w ea => st.moveAccesses (.ry1 s1 d1 ys w ea)
  | .moveRY2 d ea => st.moveAccesses (.ry2 d ea)
  | .moveLEa l w ea => st.moveAccesses (.lEa l w ea)
  | .moveLAa l w aa => st.moveAccesses (.lAa l w aa)
  | .moveXY yw ym xs ys xw yn xm xn => st.moveAccesses (.xy yw ym xs ys xw yn xm xn)
  | .addShort _ _ => []
  | .addImm _ _ => []
  | .andShort _ _ => []
  | .andImm _ _ => []
  | .andi _ _ => []
  | .aslNum _ _ _ => []
  | .aslBy _ _ _ => []
  | .asrNum _ _ _ => []
  | .asrBy _ _ _ => []
  | .bccLong _ _ => []
  | .bccShort _ _ => []
  | .bccReg _ _ => []
  | .bchgEa _ sp ea => modifies sp (st.ea ea).addr
  | .bchgAa _ sp aa => modifies sp (aaAddr aa)
  | .bchgPp _ sp pp => modifies sp (ppAddr pp)
  | .bchgQq _ sp qq => modifies sp (qqAddr qq)
  | .bchgReg _ _ => []
  | .bclrEa _ sp ea => modifies sp (st.ea ea).addr
  | .bclrAa _ sp aa => modifies sp (aaAddr aa)
  | .bclrPp _ sp pp => modifies sp (ppAddr pp)
  | .bclrQq _ sp qq => modifies sp (qqAddr qq)
  | .bclrReg _ _ => []
  | .bsetEa _ sp ea => modifies sp (st.ea ea).addr
  | .bsetAa _ sp aa => modifies sp (aaAddr aa)
  | .bsetPp _ sp pp => modifies sp (ppAddr pp)
  | .bsetQq _ sp qq => modifies sp (qqAddr qq)
  | .bsetReg _ _ => []
  | .btstEa _ sp ea => reads sp (st.ea ea).addr
  | .btstAa _ sp aa => reads sp (aaAddr aa)
  | .btstPp _ sp pp => reads sp (ppAddr pp)
  | .btstQq _ sp qq => reads sp (qqAddr qq)
  | .btstReg _ _ => []
  | .braLong _ => []
  | .braShort _ => []
  | .braReg _ => []
  | .brclrEa _ sp ea _ => reads sp (st.ea ea).addr
  | .brclrAa _ sp aa _ => reads sp (aaAddr aa)
  | .brclrPp _ sp pp _ => reads sp (ppAddr pp)
  | .brclrQq _ sp qq _ => reads sp (qqAddr qq)
  | .brclrReg _ _ _ => []
  | .brsetEa _ sp ea _ => reads sp (st.ea ea).addr
  | .brsetAa _ sp aa _ => reads sp (aaAddr aa)
  | .brsetPp _ sp pp _ => reads sp (ppAddr pp)
  | .brsetQq _ sp qq _ => reads sp (qqAddr qq)
  | .brsetReg _ _ _ => []
  | .bsclrEa _ sp ea _ => reads sp (st.ea ea).addr
  | .bsclrAa _ sp aa _ => reads sp (aaAddr aa)
  | .bsclrPp _ sp pp _ => reads sp (ppAddr pp)
  | .bsclrQq _ sp qq _ => reads sp (qqAddr qq)
  | .bsclrReg _ _ _ => []
  | .bssetEa _ sp ea _ => reads sp (st.ea ea).addr
  | .bssetAa _ sp aa _ => reads sp (aaAddr aa)
  | .bssetPp _ sp pp _ => reads sp (ppAddr pp)
  | .bssetQq _ sp qq _ => reads sp (qqAddr qq)
  | .bssetReg _ _ _ => []
  | .brkcc _ => []
  | .bsccLong _ _ => []
  | .bsccShort _ _ => []
  | .bsccReg _ _ => []
  | .bsrLong _ => []
  | .bsrShort _ => []
  | .bsrReg _ => []
  | .clb _ _ => []
  | .cmpShort _ _ => []
  | .cmpImm _ _ => []
  | .cmpu _ _ => []
  | .debugcc _ => []
  | .dec _ => []
  | .div _ _ => []
  | .dmac _ _ _ _ => []
  | .doEa sp ea _ => reads sp (st.ea ea).addr
  | .doAa sp aa _ => reads sp (aaAddr aa)
  | .doNum _ _ => []
  | .doReg _ _ => []
  | .dorEa sp ea _ => reads sp (st.ea ea).addr
  | .dorAa sp aa _ => reads sp (aaAddr aa)
  | .dorNum _ _ => []
  | .dorReg _ _ => []
  | .repEa sp ea => reads sp (st.ea ea).addr
  | .repAa sp aa => reads sp (aaAddr aa)
  | .repNum _ => []
  | .repReg _ => []
  | .doForever _ => []
  | .dorForever _ => []
  | .eorShort _ _ => []
  | .eorImm _ _ => []
  | .extractBy _ _ _ => []
  | .extractNum _ _ _ => []
  | .extractuBy _ _ _ => []
  | .extractuNum _ _ _ => []
  | .inc _ => []
  | .insertBy _ _ _ => []
  | .insertNum _ _ _ => []
  | .jccShort _ _ => []
  | .jccEa _ _ => []
  | .jclrEa _ sp ea _ => reads sp (st.ea ea).addr
  | .jclrAa _ sp aa _ => reads sp (aaAddr aa)
  | .jclrPp _ sp pp _ => reads sp (ppAddr pp)
  | .jclrQq _ sp qq _ => reads sp (qqAddr qq)
  | .jclrReg _ _ _ => []
  | .jsetEa _ sp ea _ => reads sp (st.ea ea).addr
  | .jsetAa _ sp aa _ => reads sp (aaAddr aa)
  | .jsetPp _ sp pp _ => reads sp (ppAddr pp)
  | .jsetQq _ sp qq _ => reads sp (qqAddr qq)
  | .jsetReg _ _ _ => []
  | .jsclrEa _ sp ea _ => reads sp (st.ea ea).addr
  | .jsclrAa _ sp aa _ => reads sp (aaAddr aa)
  | .jsclrPp _ sp pp _ => reads sp (ppAddr pp)
  | .jsclrQq _ sp qq _ => reads sp (qqAddr qq)
  | .jsclrReg _ _ _ => []
  | .jssetEa _ sp ea _ => reads sp (st.ea ea).addr
  | .jssetAa _ sp aa _ => reads sp (aaAddr aa)
  | .jssetPp _ sp pp _ => reads sp (ppAddr pp)
  | .jssetQq _ sp qq _ => reads sp (qqAddr qq)
  | .jssetReg _ _ _ => []
  | .jmpShort _ => []
  | .jmpEa _ => []
  | .jsccShort _ _ => []
  | .jsccEa _ _ => []
  | .jsrShort _ => []
  | .jsrEa _ => []
  | .lraReg _ _ => []
  | .lraLong _ _ => []
  | .lslNum _ _ => []
  | .lslBy _ _ => []
  | .lsrNum _ _ => []
  | .lsrBy _ _ => []
  | .luaEa _ _ _ => []
  | .luaDisp _ _ _ => []
  | .macNum _ _ _ _ => []
  | .macSu _ _ _ _ => []
  | .maci _ _ _ _ => []
  | .macrNum _ _ _ _ => []
  | .macri _ _ _ _ => []
  | .merge _ _ => []
  | .moveXLong rn w _ disp => touches .x w (st.indexAddr rn disp)
  | .moveYLong rn w _ disp => touches .y w (st.indexAddr rn disp)
  | .moveXShort disp rn w _ => touches .x w (st.indexAddr rn (disp.signExtend 24))
  | .moveYShort disp rn w _ => touches .y w (st.indexAddr rn (disp.signExtend 24))
  | .movecEa w sp ea _ => st.eaAccess sp w ea
  | .movecAa w sp aa _ => touches sp w (aaAddr aa)
  | .movecReg _ _ _ => []
  | .movecImm _ _ => []
  | .movemEa w ea _ => touchesP w (st.ea ea).addr
  | .movemAa w aa _ => touchesP w (aaAddr aa)
  | .movepPpEa ps w sp ea pp => readFirst w (touches ps (flipDir w) (st.movepAddr (ppAddr pp))) (st.eaAccess sp w ea)
  | .movepXqqEa w sp ea qq => readFirst w (touches .x (flipDir w) (st.movepAddr (qqAddr qq))) (st.eaAccess sp w ea)
  | .movepYqqEa w sp ea qq => readFirst w (touches .y (flipDir w) (st.movepAddr (qqAddr qq))) (st.eaAccess sp w ea)
  | .movepPpP ps w ea pp => readFirst w (touches ps (flipDir w) (st.movepAddr (ppAddr pp))) (touchesP w (st.ea ea).addr)
  | .movepQqP w ea ps qq => readFirst w (touches ps (flipDir w) (st.movepAddr (qqAddr qq))) (touchesP w (st.ea ea).addr)
  | .movepPpReg ps w _ pp => touches ps (flipDir w) (st.movepAddr (ppAddr pp))
  | .movepXqqReg w _ qq => touches .x (flipDir w) (st.movepAddr (qqAddr qq))
  | .movepYqqReg w _ qq => touches .y (flipDir w) (st.movepAddr (qqAddr qq))
  | .mpyNum _ _ _ _ => []
  | .mpySu _ _ _ _ => []
  | .mpyi _ _ _ _ => []
  | .mpyrNum _ _ _ _ => []
  | .mpyri _ _ _ _ => []
  | .norm _ _ => []
  | .normf _ _ => []
  | .orShort _ _ => []
  | .orImm _ _ => []
  | .ori _ _ => []
  | .plock _ => []
  | .plockr _ => []
  | .punlock _ => []
  | .punlockr _ => []
  | .subShort _ _ => []
  | .subImm _ _ => []
  | .tccD _ _ _ => []
  | .tccDR _ _ _ _ _ => []
  | .tccR _ _ _ => []
  | .trapcc _ => []
  | .vsl _ _ ea => touches .x .read (st.ea ea).addr ++ touches .y .read (st.ea ea).addr
  | .moveNone => []
  | .debug => []
  | .enddo => []
  | .illegal => []
  | .nop => []
  | .pflush => []
  | .pflushun => []
  | .pfree => []
  | .reset => []
  | .rti => []
  | .rts => []
  | .stop => []
  | .trap => []
  | .wait => []

/-- The accesses of the stack extension between `b` and `t`, told by EP (10_state R64): spills go up, high half first, and
refills come down. -/
def State.stackMoves (b t : State) : List Access :=
  let e := b.agu.ep
  let put (a : Word) : List Access := [⟨watchOf b.xys, a, true, false⟩, ⟨watchOf b.xys, a + 1, true, false⟩]
  let take (a : Word) : List Access := [⟨watchOf b.xys, a - 2, false, false⟩, ⟨watchOf b.xys, a - 1, false, false⟩]
  if b.sen then
    if t.agu.ep = e + 2 then put e
    else if t.agu.ep = e + 4 then put e ++ put (e + 2)
    else if t.agu.ep = e - 2 then take e
    else if t.agu.ep = e - 4 then take e ++ take (e - 2)
    else []
  else []

/-- The state once a MOVE from SSH has pulled, before it writes its destination: a MOVE of SSH to SC may spill what the pull has
brought back (10_state R59, R62, R64). -/
def State.afterSource (b : State) (i : Instr) : State :=
  if (kindOf i).movesFrom == some (.c .ssh) then b.pop else b

/-- The accesses of the stack extension of an instruction that takes `b` to `t`. What a loop start has moved before is one of
its spills. -/
def State.stackAccesses (b : State) (i : Instr) (t : State) : List Access :=
  let before (a : Word) : List Access := [⟨watchOf b.xys, a, true, false⟩, ⟨watchOf b.xys, a + 1, true, false⟩]
  (if b.ctl.spilled then before (b.agu.ep - 2) else []) ++
    b.stackMoves (b.afterSource i) ++ (b.afterSource i).stackMoves t

/-- What an instruction does with its own accesses `own` and those of the stack extension `st`, in order: a MOVE from SSH pulls
before it stores, a loop start reads its count between its two pushes (45_loop R401), and else the stack comes last. -/
def inOrder {α : Type} (i : Instr) (own st : List α) : List α :=
  if (kindOf i).movesFrom == some (.c .ssh) then st ++ own
  else if (kindOf i).startsLoop then st.take (st.length - 2) ++ own ++ st.drop (st.length - 2)
  else own ++ st

/-- The data accesses of an instruction that takes `b` to `t`, in order. -/
def State.ownAccesses (b : State) (i : Instr) (t : State) : List Access := inOrder i (b.accesses i) (b.stackAccesses i t)

/-- All the data accesses of an instruction that takes `b` to `t`, and of the end-of-loop rule, which takes `t` to `u` (45_loop
R407). -/
def State.allAccesses (b : State) (i : Instr) (t u : State) : List Access := b.ownAccesses i t ++ t.stackMoves u

/-- Is an access external (20_memory R106)? -/
def State.accessExternal (s : State) (a : Access) : Bool :=
  match a.space with
  | .p => s.pExternal a.addr
  | .x => s.dataExternal .x a.addr
  | .y => s.dataExternal .y a.addr

/-- Does an access need the external bus? A read of program memory that finds its word in the cache does not (48_cache
R556). -/
def State.needsBus (s : State) (a : Access) : Bool :=
  s.accessExternal a && !(s.ce && a.space == .p && !a.isWrite && s.cacheHit a.addr)

/-- Has an instruction that takes `b` to `t`, or the end-of-loop rule after it, which takes `t` to `u`, made an access that the
OMR[EBD] it finds forbids (10_state R29; 62_devices R689; U14)? -/
def State.busDenied (b : State) (i : Instr) (t u : State) : Bool :=
  b.ebd && (b.ownAccesses i t).any b.needsBus || t.ebd && (t.stackMoves u).any t.needsBus

/-! ## Accesses made later (20_memory R111, R112, R140; log 18) -/

/-- Memory answers at the address: no I/O address, no ROM, no hole. -/
def State.inMemory (s : State) (sp : Space) (a : Word) : Bool :=
  !s.internalIo sp a && !s.inRom sp a && !s.inVoid sp a && !(s.ebd && s.dataExternal sp a)

/-- BCHG, BCLR and BSET of a memory word: a read-modify-write (20_memory R112). -/
def isReadModifyWrite : Instr → Bool
  | .bchgEa _ _ _ | .bchgAa _ _ _ | .bchgPp _ _ _ | .bchgQq _ _ _ => true
  | .bclrEa _ _ _ | .bclrAa _ _ _ | .bclrPp _ _ _ | .bclrQq _ _ _ => true
  | .bsetEa _ _ _ | .bsetAa _ _ _ | .bsetPp _ _ _ | .bsetQq _ _ _ => true
  | _ => false

/-- The second load of an L: or X:Y: move: its register (46_move R429, R430). -/
def secondLoad (m : PMove) : Option DReg :=
  match m with
  | .lEa l .write _ => ((longWrites l 0 0).map Prod.fst)[1]?
  | .lAa l .write _ => ((longWrites l 0 0).map Prod.fst)[1]?
  | .xy .write _ _ ys _ _ _ _ => some (.alu (ySideReg ys))
  | _ => none

/-- A store to data memory that `t` has made, as one still to be made; `locked`: with the external bus locked for it. -/
def State.lateStore (b t : State) (sp : Space) (a : Word) (locked : Bool) : Option Late :=
  if b.inMemory sp a then some (.store sp (b.dataKey sp a) ((t.dataMem sp).read (b.dataKey sp a)) locked) else none

/-- An access of an instruction's own as one still to be made, where other masters of the memory may come before it: a store to
memory; the second load, if its register still holds the word. The store of a read-modify-write in external memory may wait for
the DMA, against which the sources promise nothing, but the bus stays locked for it against other bus masters (20_memory R112;
62_devices R688, R709). -/
def State.lateOwn (b : State) (i : Instr) (t : State) (a : Access) : Option Late :=
  let store (sp : Space) : Option Late := b.lateStore t sp a.addr (isReadModifyWrite i && b.accessExternal a)
  match a.space, a.isWrite with
  | .x, true => store .x
  | .y, true => store .y
  | .p, true => if b.pInModules a.addr || (b.ebd && b.pExternal a.addr) then none else some (.storeP a.addr (t.pRaw a.addr))
  | .y, false =>
    match secondLoad (parallelPart i) with
    | some d =>
      if b.inMemory .y a.addr && (t.wrD d (b.readData .y a.addr)).alu == t.alu then some (.load .y (b.dataKey .y a.addr) d)
      else none
    | none => none
  | _, false => none

/-- The location of SS that the last refill before `t` has filled (10_state R64). -/
def State.refilled (t : State) : Fin 16 := Fin.ofNat 16 (t.pcu.sp.toNat + 33 - t.pcu.sc.toNat)

/-- The accesses of the stack extension between `b` and `t` as accesses still to be made. Where two entries have been pulled and
one was left on the chip, the first that came back is what the second pull has read. -/
def State.lateMoves (b t : State) : List (Option Late) :=
  let e := b.agu.ep
  let put (a : Word) : List (Option Late) := [b.lateStore t b.xys a false, b.lateStore t b.xys (a + 1) false]
  let load (a : Word) (high : Bool) (j : Fin 16) : Option Late :=
    if b.inMemory b.xys a then some (.refill b.xys (b.dataKey b.xys a) high j) else none
  let take (a : Word) (j : Fin 16) : List (Option Late) := [load (a - 2) true j, load (a - 1) false j]
  if b.sen then
    if t.agu.ep = e + 2 then put e
    else if t.agu.ep = e + 4 then put e ++ put (e + 2)
    else if t.agu.ep = e - 2 then (if b.pcu.sc = 1 ∧ t.pcu.sp = b.pcu.sp - 2 then [none, none] else take e t.refilled)
    else if t.agu.ep = e - 4 then
      (if b.pcu.sc = 1 then [none, none] else take e (t.refilled + 1)) ++ take (e - 2) t.refilled
    else []
  else []

/-- Those of an instruction that takes `b` to `t`. -/
def State.lateStack (b : State) (i : Instr) (t : State) : List (Option Late) :=
  (if b.ctl.spilled then [none, none] else []) ++ b.lateMoves (b.afterSource i) ++ (b.afterSource i).lateMoves t

/-- The end-of-loop rule applies after an instruction that has executed in sequence, its last word at LA, LF being set before
it and after it (45_loop R407). So a loop start whose LA is its own second word, which leaves the loop no body, ends a pass
only if an outer loop was active before it (DESIGN CHOICE, log 61). -/
def State.loopEnds (b : State) (i : Instr) (t : State) : Bool :=
  b.lf && t.lf && !b.frozen && !t.frozen && t.ctl.rep.isNone && !b.changesFlow i &&
    t.pcu.pc == b.pcu.pc + BitVec.ofNat 24 i.len && t.pcu.la == b.pcu.pc + BitVec.ofNat 24 (i.len - 1)

/-- An access of an instruction at the end of a loop, which has left `t`, as one still to be made: not the return of a stack word
that the end-of-loop rule reads, one of the top entry, or where the loop is left of the two at the top (45_loop R407). -/
def State.beforeEnd (t : State) (l : Option Late) : Option Late :=
  match l with
  | some (.refill _ _ _ j) => if j = t.slot ∨ (j = t.slot - 1 ∧ (!t.fv && t.lcIsOne) = true) then none else l
  | _ => l

/-- The accesses at the end of a list that may all be made later. -/
def lastOnes (l : List (Option Late)) : List Late := ((l.reverse.takeWhile Option.isSome).filterMap id).reverse

/-- `t` before the access `l`; `b` is the state before the instruction. -/
def State.undo (b t : State) (l : Late) : State :=
  match l with
  | .store sp k _ _ => t.withDataMem sp ((t.dataMem sp).write k ((b.dataMem sp).read k))
  | .storeP _ _ => { t with mem := { t.mem with p := b.mem.p, pExt := b.mem.pExt }, cache := b.cache }
  | .load _ _ _ => t
  | .refill _ _ _ _ => t
  | .vector _ => t

/-- The accesses still to be made replaced. -/
def State.withLate (s : State) (l : List Late) : State := { s with ctl := { s.ctl with late := l } }

/-- Is another master of the memory at work: a DMA channel, or the outside world? -/
def State.shared (s : State) : Bool := s.dmaActive.isSome || s.env != []

/-- Of the accesses `l` that took `b` to `t`, a free number of the last ones is still to be made. -/
def State.postpone (b t : State) (l : List (Option Late)) : State :=
  let r := lastOnes l
  let q := r.drop ((t.free .lateAccess 0).toNat % (r.length + 1))
  (q.foldl b.undo t).withLate q

/-- After an instruction that took `b` to `t`, and the end-of-loop rule, which took `t` to `u`: while another master of the memory
is at work, some of the last accesses may be made later (20_memory R140; 62_devices R709; U41). -/
def State.deferLast (b : State) (i : Instr) (t u : State) : State :=
  let own := inOrder i ((b.accesses i).map (b.lateOwn i u)) (b.lateStack i t)
  if b.shared then b.postpone u ((if b.loopEnds i t then own.map t.beforeEnd else own) ++ t.lateMoves u) else u

/-- The second vector word fetched for the interrupt accepted, both words of which are fetched now: the source's pending flag is
cleared, unless it is a peripheral's (60_exceptions R562, R570). The fetch is possible: `accept` has seen so. -/
def State.landVector (s : State) (a : Word) : State :=
  match s.fetch a, s.ctl.ctx with
  | some (w, t), some c => (t.clearAccepted c.src.toNat).withCtx (some { c with words := c.words.take 1 ++ [w] })
  | _, _ => s

/-- An access made. -/
def State.land (s : State) (l : Late) : State :=
  match l with
  | .vector a => s.landVector a
  | .store sp k w _ => s.withDataMem sp ((s.dataMem sp).write k w)
  | .storeP a w => (s.writeP a w).notePWrite a
  | .load sp k d => s.wrD d ((s.dataMem sp).read k)
  | .refill sp k high j => if high then s.setSsh j ((s.dataMem sp).read k) else s.setSsl j ((s.dataMem sp).read k)

/-- All that was still to be made. -/
def State.landAll (s : State) : State := s.ctl.late.foldl State.land (s.withLate [])

/-- The instruction at hand, with all its words: in a vector, or fetched ahead. -/
def State.atHand (s : State) : Option Instr :=
  let read (w x : Word) : Option Instr := (decode w x).toOption
  match s.ctl.ctx with
  | some c =>
    match c.words with
    | [w, x] => read w x
    | _ => none
  | none =>
    match s.onBus s.pcu.pc, s.onBus (s.pcu.pc + 1) with
    | some w, some x => read w x
    | _, _ => none

/-- The loop start at hand, whose count is in memory and whose first push would find the stack full, moves the oldest entry to
data memory, so that other masters may come between that and its read of the count (10_state R64; 45_loop R401). Its first
push is then left a place, and all ends as if the push had moved the entry. -/
def State.spillFirst (s : State) : Option State :=
  match s.atHand with
  | some i =>
    if s.ctl.rep.isNone && (kindOf i).startsLoop && s.accesses i != [] && s.sen && decide (14 < (s.pcu.sc + 1).toNat) then
      let t := s.spill
      some (s.postpone { t with ctl := { t.ctl with spilled := true } } (s.lateMoves t))
    else none
  | none => none

end Sys2Proof.Machine
end

