-- ==== Sys2Proof/Machine/Hazards.lean ====
section
/-!
DEFINITION. The sequences and placements of instructions that the spec calls UNDEFINED: near a loop end (45_loop R409),
before a loop start (R410), ENDDO, BRKcc (R411), RTI and RTS (47_program_control R494), crossing loops (45_loop R400), the
stack extension (70_reset R760), SP and SC against SSH and SSL (R761), X:Y: moves with a peripheral (R764), a word executed
soon after it was written (R749), the memory switch in Cache mode (R750), STOP with a DMA channel active (62_devices R712), and
the interlocked move under REP (R765). `step` asks; the instructions' own meanings do not. "Before" means executed before
(log 5).
-/
namespace Sys2Proof.Machine

/-! ## What an instruction does to control registers -/

/-- The register that a MOVE writes or that BCHG, BCLR or BSET changes. -/
def Kind.changes : Kind → Option Reg
  | .modify r => some r
  | k => k.movesTo

/-- Does an instruction of the class change one of the control registers `l`, by MOVE, BCHG, BCLR or BSET? -/
def Kind.changesOneOf (k : Kind) (l : List CReg) : Bool :=
  match k.changes with
  | some (.c r) => l.contains r
  | _ => false

/-- Does a MOVE read one of the control registers `l`? -/
def Kind.readsOneOf (k : Kind) (l : List CReg) : Bool :=
  match k.movesFrom with
  | some (.c r) => l.contains r
  | _ => false

/-- Is it a BTST on one of the control registers `l`? -/
def Kind.testsOneOf (k : Kind) (l : List CReg) : Bool :=
  match k with
  | .test (.c r) => l.contains r
  | _ => false

/-- CRset (45_loop R409). -/
def crSet : List CReg := [.la, .lc, .sp, .sc, .ssh, .ssl, .sz, .vba, .omr]
/-- LA, LC and the stack registers (45_loop R410). -/
def loopSet : List CReg := [.la, .lc, .sp, .sc, .ssh, .ssl]
/-- The stack registers. -/
def stackSet : List CReg := [.ssh, .ssl, .sp, .sc]

/-- A MOVE to or from program memory (45_loop R409). -/
def isProgramMove : Instr → Bool
  | .movemEa _ _ _ => true
  | .movemAa _ _ _ => true
  | .movepPpP _ _ _ _ => true
  | .movepQqP _ _ _ _ => true
  | _ => false

/-- JMP, Jcc, JSR, JScc, JSET, JCLR, JSSET, JSCLR, and BRA, Bcc, BSR, BScc (45_loop R409). -/
def Kind.isJumpListed : Kind → Bool
  | .jump rel g => !rel || (match g with | .bit _ _ _ => false | _ => true)
  | .call rel g => !rel || (match g with | .bit _ _ _ => false | _ => true)
  | _ => false

/-- Is it a jump or call of the J kind, on a bit (`bit`) or not? -/
def Kind.isJ (bit : Bool) : Kind → Bool
  | .jump false g => (match g with | .bit _ _ _ => true | _ => false) == bit
  | .call false g => (match g with | .bit _ _ _ => true | _ => false) == bit
  | _ => false

/-- BRKcc, ENDDO, REP; STOP, WAIT, DEBUG, DEBUGcc, TRAP, TRAPcc, ILLEGAL; ANDI, ORI on MR (45_loop R409). The
reserved opcode bytes count as ILLEGAL (DESIGN CHOICE, log 10). -/
def neverNearLoopEnd (i : Instr) : Bool :=
  match kindOf i with
  | .loopEnd => true
  | .rep => true
  | .halt => true
  | .trap => true
  | .control e => e == .mr
  | _ =>
    match i with
    | .debug => true
    | .debugcc _ => true
    | _ => isIllegal i

/-- May the instruction not start `d` words before LA (45_loop R409)? -/
def forbiddenNearEnd (d : Nat) (i : Instr) : Bool :=
  let k := kindOf i
  match d with
  | 5 => k.changesOneOf crSet
  | 4 => k.changesOneOf crSet
  | 3 => k.changesOneOf crSet || k.readsOneOf [.ssh, .ssl] || (k.isJ false && i.len == 2) || k.isJ true ||
    (isProgramMove i && i.len == 2)
  | 2 => forbiddenCloseEnd k i
  | 1 => forbiddenCloseEnd k i
  | 0 => i.len == 2 || k.changesOneOf crSet || k.readsOneOf [.ssh, .ssl] || k.testsOneOf [.ssh] || k.isJumpListed ||
    k == .ret || isProgramMove i || neverNearLoopEnd i || i == .reset
  | _ => false
where
  /-- One or two words before LA. -/
  forbiddenCloseEnd (k : Kind) (i : Instr) : Bool :=
    k == .loopStart false || k == .loopStart true || k.changesOneOf crSet || k.readsOneOf crSet || k.testsOneOf crSet ||
      k.isJumpListed || isProgramMove i || neverNearLoopEnd i

/-- Is it a conditional branch or branch to subroutine on a bit: BRCLR, BRSET, BSCLR, BSSET? -/
def Kind.isBranchOnBit : Kind → Bool
  | .jump true (.bit _ _ _) => true
  | .call true (.bit _ _ _) => true
  | _ => false

/-- "When two consecutive LAs have a conditional branch instruction at LA-1 of the internal loop, the device does not operate
properly" (45_loop R409): the outer loop's LA and LF are those that the inner one has stacked. The other conditional branches
may not stand at LA - 1 at all. -/
def State.consecutiveEnds (s : State) (i : Instr) : Bool :=
  (kindOf i).isBranchOnBit && s.pcu.la == s.pcu.pc + 1 && s.ssl.getLsbD 15 && s.pcu.ssh[s.slot - 1] == s.pcu.la + 1

/-- ... while a loop is active and the instruction stands in the program, not in a vector (45_loop R409). -/
def State.nearLoopEnd (s : State) (i : Instr) : Bool :=
  s.lf && !s.frozen && (forbiddenNearEnd (s.pcu.la - s.pcu.pc).toNat i || s.consecutiveEnds i)

/-! ## What was executed before -/

/-- The instructions executed last that stand within `n` words (45_loop R410, R411). An instruction of two words of which the
second alone lies within them is not counted (DESIGN CHOICE, log 62). -/
def withinWords : Nat → List Instr → List Instr
  | _, [] => []
  | n, i :: l => if i.len ≤ n then i :: withinWords (n - i.len) l else []

/-- The arithmetic instructions (41_arithmetic_a, 42_arithmetic_b), Tcc among them, and IFcc (45_loop R411). -/
def isArithmetic : Instr → Bool
  | .tfrAcc _ _ | .tfrReg _ _ _ | .addr _ _ | .tst _ _ | .cmpAcc _ _ | .cmpReg _ _ _ | .subr _ _ | .cmpmAcc _ _
  | .cmpmReg _ _ _ | .addAcc _ _ | .addXY _ _ _ | .addReg _ _ _ | .rnd _ _ | .addl _ _ | .clr _ _ | .subAcc _ _
  | .subXY _ _ _ | .subReg _ _ _ | .maxm _ | .max _ | .subl _ _ | .adc _ _ _ | .asr _ _ | .sbc _ _ _ | .abs _ _
  | .asl _ _ | .neg _ _ | .mpy _ _ _ _ | .mpyr _ _ _ _ | .mac _ _ _ _ | .macr _ _ _ _ | .addShort _ _ | .addImm _ _
  | .aslNum _ _ _ | .aslBy _ _ _ | .asrNum _ _ _ | .asrBy _ _ _ | .cmpShort _ _ | .cmpImm _ _ | .cmpu _ _ | .dec _
  | .inc _ | .div _ _ | .dmac _ _ _ _ | .macNum _ _ _ _ | .macSu _ _ _ _ | .maci _ _ _ _ | .macrNum _ _ _ _
  | .macri _ _ _ _ | .mpyNum _ _ _ _ | .mpySu _ _ _ _ | .mpyi _ _ _ _ | .mpyrNum _ _ _ _ | .mpyri _ _ _ _ | .norm _ _
  | .normf _ _ | .subShort _ _ | .subImm _ _ | .tccD _ _ _ | .tccDR _ _ _ _ _ | .tccR _ _ _ | .ifcc _ _
  | .ifccU _ _ => true
  | _ => false

/-- Reads SSH by a MOVE or BTST. -/
def Kind.takesSsh (k : Kind) : Bool := k.readsOneOf [.ssh] || k.testsOneOf [.ssh]

/-- A DO, DOR or DO FOREVER stands too near after an instruction of the list of 45_loop R410. DOR FOREVER, which the rule does
not name, is bound as they are (DESIGN CHOICE, log 62). -/
def beforeLoopStart (h : History) (i : Instr) : Bool :=
  (kindOf i).startsLoop &&
    ((withinWords 4 h.near).any (fun j => (kindOf j).changesOneOf stackSet) ||
      (h.past.take 1).any fun j => (kindOf j).takesSsh || (kindOf j).changesOneOf loopSet)

/-- The target of a JSR, JScc, JSSET, JSCLR, BSR or BScc (45_loop R410). -/
def State.callTarget (s : State) : Instr → Option Word
  | .jsrShort a => some (shortTarget a)
  | .jsrEa e => some (s.ea e).addr
  | .jsccShort _ a => some (shortTarget a)
  | .jsccEa _ e => some (s.ea e).addr
  | .jssetEa _ _ _ a | .jssetAa _ _ _ a | .jssetPp _ _ _ a | .jssetQq _ _ _ a | .jssetReg _ _ a => some a
  | .jsclrEa _ _ _ a | .jsclrAa _ _ _ a | .jsclrPp _ _ _ a | .jsclrQq _ _ _ a | .jsclrReg _ _ a => some a
  | .bsrLong d | .bsccLong _ d => some (s.relative d)
  | .bsrShort d | .bsccShort _ d => some (s.relative (d.signExtend 24))
  | .bsrReg n | .bsccReg _ n => some (s.relative s.agu.r[n])
  | _ => none

/-- Does a loop start stand at `a`? -/
def State.loopStartAt (s : State) (a : Word) : Bool :=
  !(s.ebd && s.pExternal a) && (match decode (s.upcoming a) 0 with | .ok i => (kindOf i).startsLoop | .error _ => false)

/-- A call "to LA whenever LF is set", taken or not, with a loop start at the next address (45_loop R410). What stands
immediately before is told here by the places in the program: after a call that is taken the loop start is not executed next. -/
def State.callBeforeLoop (s : State) (i : Instr) : Bool :=
  s.lf && !s.frozen && s.callTarget i == some s.pcu.la && s.loopStartAt (s.pcu.pc + BitVec.ofNat 24 i.len)

/-- An ENDDO or BRKcc stands too near after an instruction of the lists of 45_loop R411. -/
def beforeLoopExit (h : History) (i : Instr) : Bool :=
  match i with
  | .enddo =>
    (withinWords 4 h.near).any (fun j => (kindOf j).changesOneOf stackSet) ||
      (h.past.take 1).any fun j => (kindOf j).takesSsh || (kindOf j).changesOneOf crSet || kindOf j == .control .mr
  | .brkcc _ => (h.past.take 1).any fun j => isArithmetic j || (kindOf j).changesOneOf crSet
  | _ => false

/-- An RTI or RTS stands after an instruction of the lists of 47_program_control R494. -/
def beforeReturn (past : List Instr) (i : Instr) : Bool :=
  let bad (h : Instr) : Bool := (kindOf h).changesOneOf stackSet || (kindOf h).takesSsh || h == .enddo
  match i with
  | .rts => (past.take 1).any bad
  | .rti => (past.take 1).any fun h => bad h || kindOf h == .control .mr || kindOf h == .control .ccr
  | _ => false

/-! ## The stack pointers and the stack (70_reset R761) -/

/-- Is the register SSH or SSL? -/
def isStackWord (r : Reg) : Bool := r == .c .ssh || r == .c .ssl

/-- List B: a MOVE to or from SSH or SSL, BTST, BCHG, BSET, BCLR, or a bit jump or call, on one of them. -/
def Kind.usesStackWord (k : Kind) : Bool :=
  match k with
  | .test r => isStackWord r
  | .jump _ (.bit _ _ (.reg r)) => isStackWord r
  | .call _ (.bit _ _ (.reg r)) => isStackWord r
  | _ => k.changes.any isStackWord || k.movesFrom.any isStackWord

/-- An instruction of List B within four instructions after one of List A: a MOVE to SP or SC, or BCHG, BSET, BCLR on one of
them (70_reset R761). -/
def afterStackPointer (past : List Instr) (i : Instr) : Bool :=
  (kindOf i).usesStackWord && (past.take 4).any fun h => (kindOf h).changesOneOf [.sp, .sc]

/-! ## Loops and the stack extension -/

/-- LA as a loop start would load it (45_loop R401 to R404). -/
def State.newLa (s : State) : Instr → Option Word
  | .doEa _ _ la => some la
  | .doAa _ _ la => some la
  | .doNum _ la => some la
  | .doReg _ la => some la
  | .doForever la => some la
  | .dorEa _ _ d => some (s.opRelative 2 d)
  | .dorAa _ _ d => some (s.opRelative 2 d)
  | .dorNum _ d => some (s.opRelative 2 d)
  | .dorReg _ d => some (s.opRelative 2 d)
  | .dorForever d => some (s.opRelative 2 d)
  | _ => none

/-- A loop started in the body of another, from the address in SSH to LA, would end with it or after it (45_loop R400;
U18). -/
def State.crossesLoops (s : State) (i : Instr) : Bool :=
  match s.newLa i with
  | some la =>
    s.lf && !s.frozen && decide (s.ssh.toNat ≤ s.pcu.pc.toNat) && decide (s.pcu.pc.toNat ≤ s.pcu.la.toNat) &&
      decide (s.pcu.la.toNat ≤ la.toNat)
  | none => false

/-- The word that a MOVE to the stack counter SC moves (70_reset R760). -/
def State.movedToSc (s : State) : Instr → Option Word
  | .movecEa .write sp e .sc => some (s.loadEa sp e)
  | .movecAa .write sp a .sc => some (s.readData sp (aaAddr a))
  | .movecReg .write r .sc => some (s.rdReg r).1
  | .movecReg .read (.c .sc) c => some (s.rdC c)
  | .movecImm i .sc => some (i.setWidth 24)
  | .moveXLong n .write (.c .sc) d => some (s.readData .x (s.indexAddr n d))
  | .moveYLong n .write (.c .sc) d => some (s.readData .y (s.indexAddr n d))
  | .movemEa .write e (.c .sc) => some (s.readP (s.ea e).addr)
  | .movemAa .write a (.c .sc) => some (s.readP (aaAddr a))
  | .movepPpReg sp .read (.c .sc) a => some (s.readData sp (s.movepAddr (ppAddr a)))
  | .movepXqqReg .read (.c .sc) a => some (s.readData .x (s.movepAddr (qqAddr a)))
  | .movepYqqReg .read (.c .sc) a => some (s.readData .y (s.movepAddr (qqAddr a)))
  | _ => none

/-- May the call not stand in the Stack Error vector while OMR[SEN] = 1 (47_program_control R470; 70_reset R760)? JSR, JScc,
JSCLR, JSSET, BSR, BScc may not, taken or not. The list does not name BSCLR and BSSET: a taken one makes the long entry, and
with it the push, that the rule's reason speaks of, and is barred too; one not taken is a word of a fast interrupt, which the
vector may hold (DEDUCED, log 5). -/
def State.barredCall (s : State) (i : Instr) : Bool :=
  (kindOf i).isCall && (!(kindOf i).isBranchOnBit || s.changesFlow i)

/-- With OMR[SEN] = 1: EP changed by the program, more than 15 moved to SC, or a subroutine call in the Stack Error vector
(70_reset R760). -/
def State.misusesExtension (s : State) (i : Instr) : Bool :=
  s.sen &&
    ((kindOf i).changesOneOf [.ep] ||
      (match s.movedToSc i with | some w => decide (15 < w.toNat) | none => false) ||
      (s.barredCall i && (match s.ctl.ctx with | some c => c.src == 1#7 | none => false)))

/-! ## Moves with a peripheral (70_reset R764) -/

/-- Is `d` the register `r`, or a part of it? -/
def sameOrPart (r : AluReg) (d : DReg) : Bool := d == .alu r || partOf .a d && r == .a || partOf .b d && r == .b

/-- Does the move `m` write the register `r`, or a part of it, from elsewhere than Y memory? Immediate data is no Y memory,
whatever space the form names. -/
def loadsNotFromY (m : PMove) (r : AluReg) : Bool :=
  let same := sameOrPart r
  match m with
  | .imm _ d => same d
  | .reg _ d => same d
  | .xEa d .write _ => same d
  | .xAa d .write _ => same d
  | .yEa d .write (.imm _) => same d
  | .xr1 xs _ d2 w _ => same (.alu (y01Reg d2)) || (w == .write && same (.alu (xSideReg xs)))
  | .xr2 d _ => same (.alu (accReg d))
  | .ry1 _ d1 ys .write (.imm _) => same (.alu (x01Reg d1)) || same (.alu (ySideReg ys))
  | .ry1 _ d1 _ _ _ => same (.alu (x01Reg d1))
  | .ry2 d _ => same (.alu (accReg d))
  | .lEa l .write _ => (longWrites l 0 0).head?.any fun p => same p.1
  | .lAa l .write _ => (longWrites l 0 0).head?.any fun p => same p.1
  | .xy _ _ xs _ .write _ _ _ => same (.alu (xSideReg xs))
  | _ => false

/-- Does the move `m` read the register `r` for elsewhere than Y memory? -/
def readsNotToY (m : PMove) (r : AluReg) : Bool :=
  let same := sameOrPart r
  match m with
  | .reg q _ => same q
  | .xEa d .read _ => same d
  | .xAa d .read _ => same d
  | .xr1 xs s2 _ w _ => same (.alu (accReg s2)) || (w == .read && same (.alu (xSideReg xs)))
  | .xr2 d _ => same (.alu (accReg d)) || r == .x0
  | .ry1 s1 _ _ _ _ => same (.alu (accReg s1))
  | .ry2 _ _ => r == .y0
  | .lEa l .read _ => (longWrites l 0 0).head?.any fun p => same p.1
  | .lAa l .read _ => (longWrites l 0 0).head?.any fun p => same p.1
  | .xy _ _ xs _ .read _ _ _ => same (.alu (xSideReg xs))
  | _ => false

/-- Does the instruction move `r`, or a part of it, from (`into`) or to elsewhere than Y memory? -/
def movesApartFromY (into : Bool) (i : Instr) (r : AluReg) : Bool :=
  let same (q : Reg) : Bool :=
    match q with
    | .d d => sameOrPart r d
    | .c _ => false
  let y : Bool :=
    match i with
    | .moveYLong _ _ _ _ => true
    | .moveYShort _ _ _ _ => true
    | .movecEa _ .y _ _ => true
    | .movecAa _ .y _ _ => true
    | .movepPpReg .y _ _ _ => true
    | .movepYqqReg _ _ _ => true
    | _ => false
  let viterbi : Bool :=
    match i with
    | .vsl d _ _ => accReg d == r
    | _ => false
  if into then loadsNotFromY (parallelPart i) r || (!y && (kindOf i).movesTo.any same)
  else readsNotToY (parallelPart i) r || viterbi || (!y && (kindOf i).movesFrom.any same)

/-- Does the instruction make an X:Y: move whose X address is internal I/O? -/
def State.xyWithIo (s : State) (i : Instr) : Bool :=
  match parallelPart i with
  | .xy _ _ _ _ _ _ xm xn => s.internalIo .x (s.eaXY .updX xm xn).addr
  | _ => false

/-- Either sequence of 70_reset R764: an X:Y: move whose X destination is internal I/O stores to Y a register that the
move before it loaded from elsewhere than Y memory; or the move before was an X:Y: move with an internal X I/O address, and
the register it loaded from Y is now moved elsewhere than to Y memory. -/
def State.peripheralPair (s : State) (i : Instr) : Bool :=
  match s.ctl.hist.past with
  | [] => false
  | h :: _ =>
    (match parallelPart i with
      | .xy .read _ _ ys .read _ _ _ => s.xyWithIo i && movesApartFromY true h (ySideReg ys)
      | _ => false) ||
    (match parallelPart h with
      | .xy .write _ _ ys _ _ _ _ => s.ctl.hist.xIo && movesApartFromY false i (ySideReg ys)
      | _ => false)

/-! ## The whole -/

/-- Why the instruction may not be executed here. -/
def State.hazard (s : State) (i : Instr) : Option Refusal :=
  if s.nearLoopEnd i then some .nearLoopEnd
  else if beforeLoopStart s.ctl.hist i || s.callBeforeLoop i then some .beforeLoopStart
  else if beforeLoopExit s.ctl.hist i then some .beforeLoopExit
  else if beforeReturn s.ctl.hist.past i then some .beforeReturn
  else if afterStackPointer s.ctl.hist.past i then some .stackPointerUse
  else if s.crossesLoops i then some .crossingLoops
  else if s.misusesExtension i then some .stackExtensionMisuse
  else if s.peripheralPair i then some .peripheralPair
  else none

/-- Why its result, from `b` to `t`, is UNDEFINED: CE cleared while BE is set (48_cache R540; U20), OMR[MS] changed while CE is
set (70_reset R750; U17), the Stop state entered in the middle of a DMA transfer (62_devices R712; U17). -/
def State.badResult (b t : State) : Option Refusal :=
  if b.ce && !t.ce && b.burst then some .burstCacheDisabled
  else if b.ce && b.memSwitch.1 != t.memSwitch.1 then some .memorySwitchInCacheMode
  else if t.ctl.phase == .stop && b.dmaInTransfer then some .stopWithDmaActive
  else none

/-- The places of program memory that the instruction `i`, executed from `b`, writes are noted (70_reset R749). -/
def State.notePWrites (b : State) (i : Instr) (s : State) : State :=
  ((b.accesses i).filter fun a => a.space == .p && a.isWrite).foldl (fun u a => u.notePWrite a.addr) s

/-- Echoes of core registers fade as an instruction ends (20_memory R141, R142; log 60). -/
def State.fade (s : State) : State :=
  { s with ctl := { s.ctl with
    echo := (s.ctl.echo.filter fun e => decide (1 < e.left)).map fun e => { e with left := e.left - 1 } } }

/-- The words that the instruction `i`, which has led to `s`, has left out: the next one, for a REP of nothing. It counts as
fetched (DESIGN CHOICE, log 5). -/
def State.leftOut (s : State) (i : Instr) : Nat := if kindOf i == .rep && s.ctl.rep.isNone then 1 else 0

/-- The last instructions fetched, once `n` words of the instruction `i` have been fetched and it has led to `s`: a repetition
under REP adds none, and the word that a REP of nothing has left out stands as a NOP. -/
def State.nearAfter (s : State) (i : Instr) (n : Nat) : List Instr :=
  if n = 0 then s.ctl.hist.near else (List.replicate (s.leftOut i) Instr.nop ++ i :: s.ctl.hist.near).take 4

/-- The history after the instruction `i`, of which `n` words were fetched, has taken `b` to `s`. -/
def State.remember (b : State) (i : Instr) (n : Nat) (s : State) : State :=
  let l := (s.ctl.hist.pWrites.map fun p => (p.1, p.2.1, p.2.2 + (n + s.leftOut i))).filter fun p => decide (p.2.2 < 7)
  b.notePWrites i (State.fade { s with ctl := { s.ctl with
    hist := { past := (i :: s.ctl.hist.past).take 4, near := s.nearAfter i n, xIo := b.xyWithIo i, pWrites := l }
    spilled := false } })

/-! ## The interlocked move under REP (45_loop R412; 70_reset R765; U43) -/

/-- The source registers and the destination of a Data ALU instruction with one source and one destination register. -/
def oneSource : Instr → Option (List AluReg × Acc)
  | .tfrAcc d _ => some ([accReg (otherAcc d)], d)
  | .tfrReg r d _ => some ([inputReg r], d)
  | .addAcc d _ => some ([accReg (otherAcc d)], d)
  | .addReg r d _ => some ([inputReg r], d)
  | .addXY r d _ => some (pairOf r, d)
  | .adc r d _ => some (pairOf r, d)
  | .subAcc d _ => some ([accReg (otherAcc d)], d)
  | .subReg r d _ => some ([inputReg r], d)
  | .subXY r d _ => some (pairOf r, d)
  | .sbc r d _ => some (pairOf r, d)
  | .addr d _ => some ([accReg (otherAcc d)], d)
  | .subr d _ => some ([accReg (otherAcc d)], d)
  | .addl d _ => some ([accReg (otherAcc d)], d)
  | .subl d _ => some ([accReg (otherAcc d)], d)
  | .and r d _ => some ([inputReg r], d)
  | .or r d _ => some ([inputReg r], d)
  | .eor r d _ => some ([inputReg r], d)
  | .max _ => some ([.a], .b)
  | .maxm _ => some ([.a], .b)
  | .mpy q d _ _ => (square q).map fun r => ([r], d)
  | .mpyr q d _ _ => (square q).map fun r => ([r], d)
  | .mac q d _ _ => (square q).map fun r => ([r], d)
  | .macr q d _ _ => (square q).map fun r => ([r], d)
  | _ => none
where
  /-- An input register as a move names it. -/
  inputReg : XYReg → AluReg
    | .x0 => .x0
    | .y0 => .y0
    | .x1 => .x1
    | .y1 => .y1
  /-- The register that a multiplication takes twice. -/
  square : MulPair → Option AluReg
    | .x0x0 => some .x0
    | .y0y0 => some .y0
    | _ => none
  /-- The two halves of a long operand. -/
  pairOf : XYLong → List AluReg
    | .x => [.x1, .x0]
    | .y => [.y1, .y0]

/-- The datum that is corrupted: of the two moves, the one that reads the operation's destination while the other loads
its source. It goes to a register or to memory. -/
def State.corrupted (b : State) (i : Instr) : Option (AluReg ⊕ (Space × Word)) :=
  match oneSource i with
  | none => none
  | some (src, d) =>
    let d := accReg d
    match parallelPart i with
    | .xr1 xs s2 d2 w e =>
      if w == .write && accReg s2 == d && src.contains (xSideReg xs) then some (.inl (y01Reg d2))
      else if w == .read && xSideReg xs == d && src.contains (y01Reg d2) then some (.inr (.x, (b.ea e).addr))
      else none
    | .ry1 s1 d1 ys w e =>
      if w == .write && accReg s1 == d && src.contains (ySideReg ys) then some (.inl (x01Reg d1))
      else if w == .read && ySideReg ys == d && src.contains (x01Reg d1) then some (.inr (.y, (b.ea e).addr))
      else none
    | .xy yw ym xs ys xw yn xm xn =>
      if xw == .read && yw == .write && xSideReg xs == d && src.contains (ySideReg ys) then
        some (.inr (.x, (b.eaXY .updX xm xn).addr))
      else if xw == .write && yw == .read && ySideReg ys == d && src.contains (xSideReg xs) then
        some (.inr (.y, (b.eaXY .updY ym (yRegOf xn yn)).addr))
      else none
    | _ => none

/-- After the last repetition of a target fetched from external memory that datum is free. A target at an external address
counts as fetched from external memory also where the instruction cache has answered the fetch (DESIGN CHOICE, log 5). -/
def State.corruptLast (b : State) (i : Instr) (t : State) : State :=
  if b.pExternal b.pcu.pc && b.lcIsOne then
    match b.corrupted i with
    | some (.inl r) => t.wrD (.alu r) (t.freeWord .repInterlock 0)
    | some (.inr (sp, a)) => t.writeData sp a (t.freeWord .repInterlock 0)
    | none => t
  else t

end Sys2Proof.Machine
end

