-- ==== Sys2Proof/Machine/Engine.lean ====
section
/-!
DEFINITION. What happens between two instructions: fetch, the end of an instruction, REP (45_loop R408), arbitration and
the vector words of an interrupt (60_exceptions R566 to R572, R578), Wait, Stop and Reset (R580 to R582; 70_reset R730,
R731), the events of the outside world, and the debug host (61_debug R621 to R646). `step` (Step.lean) calls `turn`.
-/
namespace Sys2Proof.Machine

/-! ## An instruction from its fetch to its end -/

/-- A fetched instruction, and the state after its fetch (the cache may have changed). -/
structure Fetched where
  instr : Instr
  word : Word
  st : State

/-- An undefined pattern does what ILLEGAL does (60_exceptions R569; 30_encoding R170). -/
def orIllegal : Except DecodeError Instr → Instr
  | .ok i => i
  | .error _ => .illegal

/-- The words on the program data bus replaced (61_debug R641). -/
def State.withPdb (s : State) (p : List (Word × Word)) : State := { s with ctl := { s.ctl with pdb := p } }

/-- The word at `a`: the one that is on the program data bus for that address (61_debug R641, R644; 20_memory R140), else a
fetch. -/
def State.fetchWord (s : State) (a : Word) : Option (Word × State) :=
  match s.onBus a with
  | some w => some (w, s.withPdb (s.ctl.pdb.filter fun p => p.1 != a))
  | none => (s.withPdb []).fetch a

/-- The instruction at the PC (30_encoding R154, R163): a second word is fetched only where the first asks for one.
`none`: it needs the external bus, and OMR[EBD] = 1. -/
def State.fetchInstr (s : State) : Option Fetched :=
  match s.fetchWord s.pcu.pc with
  | none => none
  | some (w, s1) =>
    if (orIllegal (decode w 0)).len = 1 then some ⟨orIllegal (decode w 0), w, s1⟩
    else
      match s1.fetchWord (s.pcu.pc + 1) with
      | none => none
      | some (x, s2) => some ⟨orIllegal (decode w x), w, s2⟩

/-- Has one of the words of an instruction at `a` been written too lately (70_reset R749)? -/
def State.wordsTooSoon (s : State) (a : Word) (len : Nat) : Bool :=
  s.tooSoon a 0 || (len == 2 && s.tooSoon (a + 1) 1)

/-- Before the instruction at `a`: which input registers the previous one wrote in Sixteen-bit Arithmetic mode
(40_alu_common R231; U37), and the address executed (61_debug R642). -/
def State.begin (s : State) (a : Word) : State :=
  { s with ctl := { s.ctl with fresh := s.ctl.written, written := 0 }, once := { s.once with lastPc := a } }

/-- The end-of-loop rule applied, where it applies. -/
def State.loopTest (b : State) (i : Instr) (t : State) : State := if b.loopEnds i t then t.endOfLoop else t

/-- The mask before the instruction may still be used by the next arbitrations (60_exceptions R578; log 36). -/
def State.openWindow (b t : State) : State :=
  let old := if b.irq.window ≠ 0 ∧ b.irq.oldMask.toNat < b.ipl.toNat then b.irq.oldMask else b.ipl
  { t with irq := { t.irq with oldMask := old, window := 6 } }

/-- The mask an arbitration may still use after I has changed: before each of the next five instructions and right after
them, since five NOPs are needed before a one-cycle instruction is safe; a vector word may change I too, and a long entry
within the window starts as many more, with its own level masked (60_exceptions R578; log 36). -/
def State.maskWindow (b : State) (i : Instr) (t : State) : State :=
  match b.ctl.ctx with
  | some c =>
    if (kindOf i).isCall && t.ctl.ctx.isNone then
      (if b.irq.window = 0 then t
       else { t with irq := { t.irq with oldMask := raisedMask t.irq.oldMask c.level, window := 6 } })
    else if b.ipl = t.ipl then t
    else b.openWindow t
  | none =>
    if b.ipl = t.ipl then { t with irq := { t.irq with window := t.irq.window - (if t.irq.window = 0 then 0 else 1) } }
    else b.openWindow t

/-- What the OnCE module sees of an instruction at `a` (61_debug R635, R636, R640, R642): a breakpoint on the access before
it asks for Debug mode, a change of flow is traced, the trace counter steps, the accesses are compared. `t` is the state before the end-of-loop rule. -/
def State.observe (b : State) (i : Instr) (a : Word) (fetched : List Access) (t u : State) : State :=
  let u1 := if isTraced i then u.promote.traceFlow a (b.changesFlow i) else u.promote
  (u1.traceCount.watchAll (fetched ++ b.allAccesses i t u)).settleRequest

/-- After a taken change of flow the words on the program data bus are not used (61_debug R641). -/
def State.dropPdb (b : State) (i : Instr) (t : State) : State :=
  if b.changesFlow i then t.withPdb [] else t

/-- Where the instruction has entered Debug mode, the OnCE latches show what the core is to execute next, a REP's target once
more among it (61_debug R640 to R642). -/
def State.settleLatches (t : State) : State := if t.ctl.phase = .debug then t.latchPipeline else t

/-- After the instruction `i` at `a`, which took `b` to `t`, and the end-of-loop rule, which took `t` to `u`; `fetched` are the
fetches made for it. -/
def State.after (b : State) (i : Instr) (a : Word) (fetched : List Access) (t u : State) : State :=
  let v := b.dropPdb i (b.observe i a fetched t (b.maskWindow i u))
  b.deferLast i t (b.remember i fetched.length v.settleLatches)

/-- The instruction fetches of an instruction at address `a`. -/
def fetches (a : Word) (len : Nat) : List Access := (List.range len).map fun k => ⟨.p, a + BitVec.ofNat 24 k, false, true⟩

/-- An instruction executed from `b`; then `again`, what REP makes of its end; then the end-of-loop rule, whose refills are
accesses of the instruction; and what follows, `k`, which is told the state before that rule and the one after it. It is refused
where its placement or its result is UNDEFINED, and it sticks where it needs an external bus that OMR[EBD] = 1 has switched
off. -/
def execThen (i : Instr) (b : State) (again : State → State) (k : State → State → State) : Res :=
  match b.hazard i with
  | some r => .refused r
  | none =>
    match exec i b with
    | .fault r => .fault r
    | .refused r => .refused r
    | .next t =>
      let u := b.loopTest i (again t)
      if b.busDenied i (again t) u then .fault .externalAccessWithBusDisabled
      else
        match b.badResult u with
        | some r => .refused r
        | none => .next (k (again t) u)

/-- One instruction, from the state `s` after its fetch. -/
def runInstr (i : Instr) (s : State) : Res :=
  let b := s.begin s.pcu.pc
  execThen i b id (b.after i s.pcu.pc (fetches s.pcu.pc i.len))

/-- The instruction at the PC. -/
def runNext (s : State) : Res :=
  match s.fetchInstr with
  | none => .fault .fetchWithBusDisabled
  | some f => if s.wordsTooSoon s.pcu.pc f.instr.len then .refused .executedTooSoon else runInstr f.instr f.st

/-! ## REP (45_loop R408, R412) -/

/-- REP's field replaced. -/
def State.withRep (s : State) (r : Option Rep) : State := { s with ctl := { s.ctl with rep := r } }

/-- After an execution of the target `w` at `a`: once LC is one the old LC comes back, else it counts down and the
target is executed again from the instruction register. -/
def State.repeatOrEnd (t : State) (r : Rep) (w a : Word) : State :=
  if t.lcIsOne then t.withLc r.temp
  else ((t.withLc t.decLc).withPc a).withRep (some ⟨r.temp, some w⟩)

/-- One execution of the target, fetched (`fetched`) for the first of them only. -/
def runRepeated (r : Rep) (w : Word) (fetched : List Access) (s : State) : Res :=
  let i := orIllegal (decode w 0)
  let b := (s.begin s.pcu.pc).withRep none
  if repeatableInstr i then
    execThen i b (fun t => (b.corruptLast i t).repeatOrEnd r w s.pcu.pc) (b.after i s.pcu.pc fetched)
  else .refused .forbiddenRepTarget

/-- The target of a REP in progress: fetched once. -/
def runRep (r : Rep) (s : State) : Res :=
  match r.latch with
  | some w => runRepeated r w [] s
  | none =>
    match s.fetchWord s.pcu.pc with
    | none => .fault .fetchWithBusDisabled
    | some (w, s1) =>
      if s.tooSoon s.pcu.pc 0 then .refused .executedTooSoon else runRepeated r w (fetches s.pcu.pc 1) s1

/-! ## Arbitration (60_exceptions R563 to R567, R577) -/

/-- The two-bit enable and level field of a maskable source. -/
def State.levelField (s : State) (k : Nat) : Nat :=
  if k < 12 then irqField s.irq.iprc (k - 8)
  else if k < 18 then dmaIprField s.irq.iprc (k - 12)
  else s.irq.iprp.toNat / 4 ^ (Config.iprpField k).val % 4

/-- The level of source `k`. -/
def State.levelOf (s : State) (k : Nat) : Nat := if k < 8 then 3 else s.levelField k - 1

/-- The second enable of a DMA source, DCR[DIE] of its channel; no other source has one (60_exceptions R564, R577). A request
latched with DIE = 1 waits while DIE is 0, and is there again once it is set: only service clears its flag (62_devices R711;
DEDUCED, log 67). -/
def State.secondEnable (s : State) (k : Nat) : Bool :=
  if 12 ≤ k ∧ k < 18 then dcrDie s.dma.ch[Fin.ofNat 6 (k - 12)].dcr else true

/-- Is source `k` requesting: pending and enabled, or a level-sensitive pin that is low and enabled? -/
def State.requesting (s : State) (k : Nat) : Bool :=
  if k < 8 then k != 0 && s.irq.pend.getLsbD k
  else if k < 12 then
    (if irqEdge s.irq.iprc (k - 8) then s.irq.pend.getLsbD k else !s.irq.pins.getLsbD (k - 8)) && s.levelField k != 0
  else s.irq.pend.getLsbD k && s.levelField k != 0 && s.secondEnable k

/-- The source of level `l` that comes first. -/
def State.firstOf (s : State) (l : Nat) : Option Nat :=
  (List.range 128).find? fun k => s.requesting k && s.levelOf k == l

/-- `arbitrate()` under the mask `i` (60_exceptions R566). With nothing pending and every pin high no source requests. -/
def State.arbitrateUnder (s : State) (i : BitVec 2) : Option Nat :=
  if s.irq.pend = 0 ∧ s.irq.pins = 0b1111#4 then none
  else [3, 2, 1, 0].findSome? fun l => if l = 3 ∨ (i.toNat < 3 ∧ i.toNat ≤ l) then s.firstOf l else none

/-- `arbitrate()`: within the window of R578 under the old mask or the new, a free choice where they differ. -/
def State.arbitrate (s : State) : Option Nat :=
  let now := s.arbitrateUnder s.ipl
  if s.irq.window = 0 then now
  else
    let old := s.arbitrateUnder s.irq.oldMask
    if now = old then now else if s.freeBit .maskWindow 0 then old else now

/-- Source `k` is accepted: both vector words are fetched, its flag is cleared unless it is a peripheral's, and the words
are to be executed in interrupt-instruction context (60_exceptions R570). While another master of the memory is at work a free
bit may leave the fetch of the second word for later, and with it the clearing of the flag (R562; 20_memory R140; log 18). -/
def accept (k : Nat) (s : State) : Res :=
  match (s.withPdb []).fetch (s.vector k) with
  | none => .fault .fetchWithBusDisabled
  | some (w1, s1) =>
    match s1.fetch (s.vector k + 1) with
    | none => .fault .fetchWithBusDisabled
    | some (w2, s2) =>
      let apart := s.shared && s.freeBit .lateAccess 2
      let s3 := if apart then s1.withLate [.vector (s.vector k + 1)] else s2.clearAccepted k
      .next (s3.withCtx (some ⟨BitVec.ofNat 7 k, BitVec.ofNat 2 (s.levelOf k), s.vector k, if apart then [w1] else [w1, w2]⟩))

/-- The context is over once no vector word is left (60_exceptions R571). -/
def State.endVector (t : State) : State :=
  match t.ctl.ctx with
  | none => t
  | some c => if c.words = [] then t.withCtx none else t

/-- One vector word, or two that form an instruction, with `rest` the words after it. -/
def runVectorInstr (c : IntCtx) (i : Instr) (rest : List Word) (s : State) : Res :=
  let a := c.next
  let b := (s.begin a).withCtx (some { c with words := rest })
  if (kindOf i).inVector = false then .refused .forbiddenVectorWord
  else if s.wordsTooSoon a i.len then .refused .executedTooSoon
  else execThen i b id fun t u => (b.after i a (fetches a i.len) t u).endVector

/-- The next vector word (60_exceptions R571). -/
def runVector (c : IntCtx) (s : State) : Res :=
  match c.words with
  | [] => .next (s.withCtx none)
  | w :: rest =>
    if (orIllegal (decode w 0)).len = 1 then runVectorInstr c (orIllegal (decode w 0)) rest s
    else
      match rest with
      | [] => .refused .truncatedVectorWord
      | x :: rest' => runVectorInstr c (orIllegal (decode w x)) rest' s

/-! ## One step of the core in each processing state (60_exceptions R560) -/

/-- The address of the word that the core fetches ahead: the instruction at the PC, or a REP's target. -/
def State.nextFetch (s : State) : Option Word :=
  match s.onBus s.pcu.pc with
  | none => some s.pcu.pc
  | some w =>
    if s.ctl.rep.isSome || (orIllegal (decode w 0)).len == 1 || (s.onBus (s.pcu.pc + 1)).isSome then none
    else some (s.pcu.pc + 1)

/-- That word fetched, in a step of its own. -/
def State.fetchAhead (s : State) : Option State :=
  match s.nextFetch with
  | none => none
  | some a => (s.fetch a).map fun p => p.2.withPdb ((if a = s.pcu.pc then [] else s.ctl.pdb) ++ [(a, p.1)])

/-- What the core may do in a step of its own before the instruction it is about to execute, while another master of the memory
is at work, by a free bit: the first spill of a loop start at hand, or the fetch of the next word (20_memory R140; log 18). -/
def State.ahead (s : State) : Option State :=
  if s.shared && !s.ctl.spilled && s.freeBit .lateAccess 1 then
    match s.spillFirst with
    | some t => some t
    | none => if s.ctl.ctx.isSome || (s.ctl.rep.any fun r => r.latch.isSome) then none else s.fetchAhead
  else none

/-- The core in the Normal state: its next instruction, or the interrupt that comes before it. Nothing comes between a loop
start and the spill it has begun with. -/
def coreInstr (s : State) : Res :=
  match s.ctl.rep with
  | some r => runRep r s
  | none =>
    match s.ctl.ctx with
    | some c => runVector c s
    | none =>
      match (if s.ctl.spilled then none else s.arbitrate) with
      | some k => accept k s
      | none => runNext s

/-- The core in the Normal state. -/
def coreTurn (s : State) : Res :=
  match s.ahead with
  | some t => .next t
  | none => coreInstr s

/-- A debug request acknowledged, with its causes (61_debug R633, R640). -/
def State.acknowledge (s : State) : State :=
  ({ s with once := { s.once with request := false, asked := 0 } } : State).enterDebug s.once.asked

/-- An access of the DMA or `f`, as the free bit says, while a channel has a word to move (62_devices R709; log 18). A
channel that waits for a bus switched off leaves `f` the turn. -/
def dmaOr (f : State → Res) (s : State) : Res :=
  match s.dmaActive with
  | none => f s
  | some n => if !s.dmaBlocked n && s.freeBit .dmaTurn 0 then dmaTransfer n s else f s

/-- The Wait state (60_exceptions R581): an interrupt, a debug request or DE low ends it. -/
def waitTurn (s : State) : State :=
  if s.once.request || !s.irq.de then s.acknowledge
  else
    match s.arbitrateUnder s.ipl with
    | none => s
    | some _ => ({ s with irq := { s.irq with window := 0 } } : State).withPhase .normal

/-- The Stop state (60_exceptions R582): a debug request, DE low or IRQA low ends it; the maskable pending flags are
cleared. -/
def stopTurn (s : State) : State :=
  if s.once.request || !s.irq.de then s.acknowledge
  else if s.irq.pins.getLsbD 0 then s
  else s.endHalt

/-- The core's next access or instruction: the accesses still to be made come first, one a step (20_memory R140; log 18). -/
def coreOr (f : State → Res) (s : State) : Res :=
  match s.ctl.late with
  | [] => f s
  | l :: r => .next ((s.withLate r).land l)

/-- Is a debug request to be acknowledged: between two instructions, all accesses made (61_debug R640)? -/
def State.debugDue (s : State) : Bool := s.once.request && s.ctl.late.isEmpty && !s.ctl.spilled

/-- The machine left to itself. In Debug mode the DMA goes on (DESIGN CHOICE, log 59). -/
def turn (s : State) : Res :=
  match s.ctl.phase with
  | .normal =>
    if s.debugDue then .next s.acknowledge else dmaOr (coreOr coreTurn) s
  | .reset => .next s
  | .wait => .next (waitTurn s)
  | .stop => .next (stopTurn s)
  | .debug => dmaOr (coreOr .next) s

/-! ## Reset (10_state R90; 70_reset R730, R731; 62_devices R721) -/

/-- Hardware reset: every value it gives is given; what it leaves unspecified keeps its value (log 1). SR[CE] going from 1 to 0,
the words of program RAM that were the cache are free (48_cache R541; U21; log 35). -/
def State.hardReset (s0 : State) : State :=
  let z := State.reset
  let s := if s0.ce then s0.scrambleCacheRam else s0
  { s with
    agu := { s.agu with m := z.agu.m }
    pcu := { s.pcu with sr := z.pcu.sr, omr := z.pcu.omr, vba := z.pcu.vba, sp := z.pcu.sp, sc := z.pcu.sc }
    port := z.port
    dma := { s.dma with
      ch := s.dma.ch.map fun c => { c with dcr := 0, trig := false, busy := false, stopping := false, upset := false }
      dtd := z.dma.dtd, last := z.dma.last, held := none }
    cache := s.cache.flush
    irq := { s.irq with iprc := 0, iprp := 0, pend := 0, oldMask := 0, window := 0 }
    ctl := { s.ctl with
      phase := .reset, ctx := none, rep := none, fresh := 0, written := 0, late := [], spilled := false, hist := z.ctl.hist
      echo := [], pdb := [] }
    once := { s.once with
      ocr := 0, oscr := 0, obcr := 0, ombc := 0, otc := 0, seen0 := false, seen1 := false, request := false
      asked := 0, later := false, cause := 0, armed := false, tracePtr := 0, tagPtr := 0 } }

/-- RESET deasserted with the mode pins at `mode`: Debug if DE is held low (61_debug R640), else Normal. -/
def State.leaveReset (s : State) (mode : BitVec 4) : State :=
  let t := ((s.withOmr ((s.pcu.omr &&& 0xFFFFF0#24) ||| mode.setWidth 24)).withPc (Config.resetVector mode)).withPhase .normal
  if t.irq.de then t else t.enterDebug 0

/-! ## Pins and requests -/

/-- A DMA request source fires (62_devices R703, R707). In Wait an accepted trigger returns the core to Normal (60_exceptions
R581; D46); in Stop and Reset the DMA does not run; in Debug mode it does (DESIGN CHOICE, log 59). -/
def State.dmaRequest (s : State) (drs : BitVec 5) : State :=
  match s.ctl.phase with
  | .stop => s
  | .reset => s
  | .wait => if s.acceptsTrigger drs then (s.dmaTrigger drs).withPhase .normal else s
  | .normal => s.dmaTrigger drs
  | .debug => s.dmaTrigger drs

/-- Pin IRQA to IRQD, 0 to 3, takes a level: a falling edge is latched where the pin is enabled and edge-triggered
(60_exceptions R563), and is a DMA request: 62_devices R703 says "edge-triggered", the falling edge is the model's choice
(DESIGN CHOICE, log 59). -/
def State.irqPin (s : State) (i : Fin 4) (high : Bool) : State :=
  let t := { s with irq := { s.irq with pins := setBit s.irq.pins i.val high } }
  if s.irq.pins.getLsbD i.val && !high && s.ctl.phase != .reset then
    (if irqLatches s.irq.iprc i.val then t.setPend (8 + i.val) true else t).dmaRequest (BitVec.ofNat 5 i.val)
  else t

/-- A debug request from a pin or from JTAG (61_debug R640); in Debug and Reset it asks for nothing. -/
def State.askDebug (s : State) : State :=
  match s.ctl.phase with
  | .debug => s
  | .reset => s
  | .normal => { s with once := { s.once with request := true } }
  | .wait => { s with once := { s.once with request := true } }
  | .stop => { s with once := { s.once with request := true } }

/-- A pin takes a level. DE asks for Debug mode on its falling edge (DESIGN CHOICE, log 57); in Wait and Stop `waitTurn` and
`stopTurn` look at its level (60_exceptions R581, R582). -/
def State.pinEvent (s : State) (p : Pin) (high : Bool) : State :=
  match p with
  | .irqa => s.irqPin 0 high
  | .irqb => s.irqPin 1 high
  | .irqc => s.irqPin 2 high
  | .irqd => s.irqPin 3 high
  | .nmi =>
    let t := { s with irq := { s.irq with nmi := high } }
    if s.irq.nmi && !high && s.ctl.phase != .reset then t.setPend 5 true else t
  | .de =>
    let t := { s with irq := { s.irq with de := high } }
    if s.irq.de && !high then t.askDebug else t

/-- A peripheral interrupt request appears or goes (60_exceptions R577); sources 18 to 127. -/
def State.peripheralEvent (s : State) (k : BitVec 7) (on : Bool) : State :=
  if k.toNat < 18 ∨ s.ctl.phase = .reset ∨ s.ctl.phase = .stop then s else s.setPend k.toNat on

/-- Another bus master writes external memory; the cache does not see it (48_cache R556; 62_devices R687). -/
def State.busWrite (s : State) (sp : Fin 3) (a w : Word) : State :=
  if sp = 0 then (if s.pExternal a then s.pRawWrite a w else s)
  else if sp = 1 then
    (if s.dataExternal .x a then s.withDataMem .x ((s.dataMem .x).write (s.dataKey .x a) w) else s)
  else (if s.dataExternal .y a then s.withDataMem .y ((s.dataMem .y).write (s.dataKey .y a) w) else s)

/-! ## The debug host: instructions in Debug mode (61_debug R641, R643, R644) -/

/-- The instruction that the latch forms with `w` as its second word. -/
def State.latched (s : State) (w : Word) : Instr :=
  if (orIllegal (decode s.once.opilr 0)).len = 1 then orIllegal (decode s.once.opilr 0)
  else orIllegal (decode s.once.opilr w)

/-- OSCR[HIT] after an injected instruction: after a MOVEM read, the valid bit of the word, if its sector is in the cache
(61_debug R643). -/
def State.noteHit (s : State) (i : Instr) (t : State) : State :=
  let note (a : Word) : State := { t with once := { t.once with oscr := setBit t.once.oscr 5 (s.cacheHit a) } }
  if s.ce then
    match i with
    | .movemEa .write e _ => note (s.ea e).addr
    | .movemAa .write a _ => note (aaAddr a)
    | _ => t
  else t

/-- The accesses of an injected instruction seen by the breakpoint logic (61_debug R635); in Debug mode an event asks for
nothing. -/
def State.observeInjected (b : State) (i : Instr) (t : State) : State :=
  let u := t.watchAll (b.allAccesses i t t)
  { u with once := { u.once with
    request := t.once.request, asked := t.once.asked, later := t.once.later, dePulses := t.once.dePulses + 1 } }

/-- Has one of the words that are to be executed from the latch and the program data bus, the latch's and `w`, been fetched from a
place of program memory that was written too lately (70_reset R749)? A word that the host has put there itself, other than the one
at its address, was not fetched (log 57), nor is a REP's target that is in the instruction register. -/
def State.latchTooSoon (s : State) (w : Word) (len : Nat) : Bool :=
  !(s.ctl.rep.any fun r => r.latch.isSome) &&
    (s.tooSoon s.once.opabex 0 && s.once.opilr == s.readP s.once.opabex ||
      len == 2 && s.tooSoon s.once.opabdr 1 && w == s.readP s.once.opabdr)

/-- An injected instruction: it is executed with its full effect, but not fetched from the PC, and the core is back in
Debug mode after it, with a pulse on DE (61_debug R641, R645). The echoes of core registers fade as after any instruction
(20_memory R141, R142). After WAIT and STOP too; a REP repeats the program's next instruction; a jump, or a call, which makes the
long entry, ends the interrupt in whose vector the core stands (DESIGN CHOICE, log 57). -/
def runInjected (i : Instr) (s0 : State) : Res :=
  let s := s0.landAll
  let b := { s with ctl := { s.ctl with fresh := s.ctl.written, written := 0 } }
  if b.misusesExtension i then .refused .stackExtensionMisuse
  else
    match exec i b with
    | .fault f => .fault f
    | .refused f => .refused f
    | .next t =>
      if b.busDenied i t t then .fault .externalAccessWithBusDisabled
      else
        match b.badResult t with
        | some r => .refused r
        | none => .next (b.deferLast i t (b.notePWrites i ((b.observeInjected i (s.noteHit i t)).withPhase .debug).fade))

/-- OPDBR written with GO and no EX: `w` completes a two-word instruction in the latch, or is an instruction of its own
(61_debug R641). Where it is the first word of two and none was put in the latch before it, it is taken for the second word as
well, since it is what the program data bus holds (DESIGN CHOICE, log 40). -/
def inject (w : Word) (s : State) : Res :=
  let two : Bool := s.once.armed && (orIllegal (decode s.once.opilr 0)).len != 1
  let t := { s with once := { s.once with opilr := if two then s.once.opilr else w, opdbr := w, armed := false } }
  runInjected (t.latched w) t


/-- Debug mode is left for good (61_debug R644): the cause bits and the tag pointer are cleared, and what the host has put
back goes on: the instruction latch is executed, at the address it was filled from, and `w`, on the program data bus, is
the word after it. In a vector or a REP the latch holds the vector word, or the target, where the core stopped; a target not
fetched before is fetched from there. A breakpoint still to be acknowledged after the next instruction stays so (R640). A word
of the program written too lately is refused here as at a fetch (70_reset R749; U44). -/
def leaveDebug (w : Word) (s0 : State) : Res :=
  let s := s0.landAll
  let o := s.once
  let t := ({ s with once := { o with
    opdbr := w, cause := 0, tagPtr := 0, request := false, asked := 0, armed := false } } : State).withPdb
      [] |>.withPhase .normal
  let p := t.withPdb [(o.opabdr, w)]
  match s.ctl.ctx, s.ctl.rep with
  | some c, _ =>
    if c.words.length = 2 then .next (t.withCtx (some { c with words := [o.opilr, w] }))
    else .next (p.withCtx (some { c with words := [o.opilr] }))
  | none, some ⟨n, some _⟩ => .next (p.withRep (some ⟨n, some o.opilr⟩))
  | none, some ⟨_, none⟩ => .next (t.withPdb [(o.opabex, o.opilr), (o.opabdr, w)])
  | none, none =>
    let i := t.latched w
    if t.latchTooSoon w i.len then .refused .executedTooSoon
    else runInstr i ((if i.len = 1 then p else t).withPc o.opabex)

/-- A GO command with the data word `w` (61_debug R631): ignored outside Debug mode. Without EX the instruction in the latch is
executed and the core stays in Debug mode (R641): a word of the program written too lately is refused here too (70_reset R749;
U44). -/
def onceGo (ex : Bool) (w : Word) (s : State) : Res :=
  if s.ctl.phase ≠ .debug then .next s
  else if ex then leaveDebug w s
  else if s.landAll.latchTooSoon w (s.latched w).len then .refused .executedTooSoon
  else runInjected (s.latched w) s

/-- The data word of a write command (61_debug R632, R641). -/
def onceData (rs : BitVec 5) (go ex : Bool) (w : Word) (s : State) : Res :=
  match s.onceWrite rs w with
  | none => .refused .reservedOnceCode
  | some t =>
    if rs = 10#5 ∧ s.ctl.phase = .debug then
      (if go then (if ex then leaveDebug w t else inject w s)
       else .next { t with once := { t.once with opilr := w, armed := true } })
    else if rs = 12#5 ∧ go ∧ ex then onceGo true w t
    else .next t

/-- An 8-bit command (61_debug R630, R631): with no register selected a GO is executed, else a data scan follows, with
the register's value in the shifter for a read. -/
def onceCommand (cmd : BitVec 8) (s : State) : Res :=
  let t := { s with once := { s.once with ocr := cmd } }
  let rs := cmd.extractLsb' 0 5
  if rs = 31#5 then (if cmd.getLsbD 6 then onceGo (cmd.getLsbD 5) s.once.opdbr t else .next t)
  else if cmd.getLsbD 7 then
    match t.onceRead rs with
    | none => .refused .reservedOnceCode
    | some v => .next { t with jtag := { t.jtag with dr := v, dataScan := true } }
  else
    match t.onceWrite rs 0 with
    | none => .refused .reservedOnceCode
    | some _ => .next { t with jtag := { t.jtag with dataScan := true } }

/-! ## The TAP controller (61_debug R621 to R624) -/

/-- The data registers (61_debug R621). -/
inductive DataReg | boundary | ident | bypass | once | instruction
deriving DecidableEq, Repr

/-- The data register an instruction selects; the reserved code 0101 selects Bypass (log 19). -/
def selected (ir : BitVec 4) : DataReg :=
  match ir.toNat with
  | 0 => .boundary
  | 1 => .boundary
  | 2 => .ident
  | 6 => .once
  | 7 => .instruction
  | _ => .bypass

/-- What Capture-IR loads: OS1 OS0 0 1 (61_debug R621). -/
def State.irCapture (s : State) : BitVec 4 := s.coreStatus ++ 0b01#2

/-- Capture-DR. The OnCE shifter keeps what a read command loaded. With DEBUG_REQUEST current, which connects the
instruction registers, they capture what Capture-IR loads (DESIGN CHOICE, log 58). -/
def State.captureDr (s : State) : Jtag :=
  match selected s.jtag.ir with
  | .ident => { s.jtag with dr := jtagId }
  | .bypass => { s.jtag with dr := 0 }
  | .boundary => s.jtag
  | .once => s.jtag
  | .instruction => { s.jtag with irShift := s.irCapture }

/-- A shift register of `n` bits takes a bit at its top. -/
def shiftIn (n : Nat) (dr : BitVec 32) (tdi : Bool) : BitVec 32 := setBit (dr >>> 1) (n - 1) tdi

/-- The length of the OnCE scan: a command, a data word, or the trace buffer (61_debug R630). -/
def State.onceLength (s : State) : Nat :=
  if s.jtag.dataScan then (if s.once.ocr.extractLsb' 0 5 = 18#5 then 25 else 24) else 8

/-- Shift-DR. -/
def State.shiftDr (s : State) (tdi : Bool) : Jtag :=
  match selected s.jtag.ir with
  | .ident => { s.jtag with dr := shiftIn 32 s.jtag.dr tdi }
  | .bypass => { s.jtag with dr := shiftIn 1 s.jtag.dr tdi }
  | .boundary => s.jtag
  | .once => { s.jtag with dr := shiftIn s.onceLength s.jtag.dr tdi }
  | .instruction => { s.jtag with irShift := setBit (s.jtag.irShift >>> 1) 3 tdi }

/-- The bit at TDO in Shift-DR. -/
def State.drOut (s : State) (j : Jtag) : Bool :=
  match selected j.ir with
  | .boundary => Config.boundaryScanBit s.ctl.freeCtr
  | .instruction => j.irShift.getLsbD 0
  | .ident => j.dr.getLsbD 0
  | .bypass => j.dr.getLsbD 0
  | .once => j.dr.getLsbD 0

/-- A new JTAG instruction takes effect: EXTEST, CLAMP and HI-Z hold the core in Reset, leaving them lets it go,
DEBUG_REQUEST asks for Debug mode (61_debug R622). A OnCE command whose data scan has not come is given up (DESIGN CHOICE,
log 65). -/
def State.setIr (s : State) (ir : BitVec 4) : State :=
  let t := { s with jtag := { s.jtag with ir := ir, dataScan := false } }
  let u := if jtagHoldsReset ir then t.hardReset
    else if jtagHoldsReset s.jtag.ir && s.irq.rst then t.leaveReset s.irq.pins
    else t
  if ir = 0b0111#4 then u.askDebug else u

/-- Update-DR: only the OnCE registers act. -/
def updateDr (s : State) : Res :=
  if selected s.jtag.ir ≠ .once then .next s
  else if s.jtag.dataScan then
    let t := { s with jtag := { s.jtag with dataScan := false } }
    let rs := s.once.ocr.extractLsb' 0 5
    if s.once.ocr.getLsbD 7 then .next (t.onceAfterRead rs)
    else onceData rs (s.once.ocr.getLsbD 6) (s.once.ocr.getLsbD 5) (s.jtag.dr.extractLsb' 0 24) t
  else onceCommand (s.jtag.dr.extractLsb' 0 8) s

/-- What the current state of the controller does on the rising edge of TCK. -/
def State.tapAction (s : State) (tdi : Bool) : Jtag :=
  match s.jtag.tap with
  | .captureDr => s.captureDr
  | .shiftDr => s.shiftDr tdi
  | .captureIr => { s.jtag with irShift := s.irCapture }
  | .shiftIr => { s.jtag with irShift := setBit (s.jtag.irShift >>> 1) 3 tdi }
  | .testLogicReset => s.jtag
  | .runTestIdle => s.jtag
  | .selectDr => s.jtag
  | .exit1Dr => s.jtag
  | .pauseDr => s.jtag
  | .exit2Dr => s.jtag
  | .updateDr => s.jtag
  | .selectIr => s.jtag
  | .exit1Ir => s.jtag
  | .pauseIr => s.jtag
  | .exit2Ir => s.jtag
  | .updateIr => s.jtag

/-- One clock of TCK: the action of the current state, the move to the next, and what the falling edge does there. -/
def tckEvent (tms tdi : Bool) (s : State) : Res :=
  let j := s.tapAction tdi
  let n := tapNext s.jtag.tap tms
  let t := { s with jtag := { j with tap := n } }
  match n with
  | .updateIr => .next (t.setIr j.irShift)
  | .updateDr => updateDr t
  | .testLogicReset => .next (t.setIr 0b0010#4)
  | .shiftDr => .next { t with jtag := { t.jtag with tdo := s.drOut j } }
  | .shiftIr => .next { t with jtag := { t.jtag with tdo := j.irShift.getLsbD 0 } }
  | .runTestIdle => .next t
  | .selectDr => .next t
  | .captureDr => .next t
  | .exit1Dr => .next t
  | .pauseDr => .next t
  | .exit2Dr => .next t
  | .selectIr => .next t
  | .captureIr => .next t
  | .exit1Ir => .next t
  | .pauseIr => .next t
  | .exit2Ir => .next t

/-! ## Events -/

/-- One event of the outside world (log 19). -/
def happen (e : Event) (s : State) : Res :=
  match e with
  | .pin p high => .next (s.pinEvent p high)
  | .resetLow =>
    let t := s.hardReset
    .next { t with irq := { t.irq with rst := false } }
  | .resetHigh mode =>
    let t := { s with irq := { s.irq with rst := true } }
    .next (if s.ctl.phase = .reset ∧ jtagHoldsReset s.jtag.ir = false then t.leaveReset mode else t)
  | .peripheral k on => .next (s.peripheralEvent k on)
  | .dmaRequest src => .next (if src.toNat < 10 then s else s.dmaRequest src)
  | .busWrite sp a w => .next (s.busWrite sp a w)
  | .tck tms tdi => tckEvent tms tdi s
  | .trst =>
    let t := { s with jtag := { s.jtag with tap := .testLogicReset } }
    .next (t.setIr 0b0010#4)
  | .quiet => turn s

/-- Is an access still to be made for which the external bus is locked (20_memory R112)? -/
def State.busLocked (s : State) : Bool :=
  s.ctl.late.any fun l => match l with | .store _ _ _ locked => locked | _ => false

/-- Does another bus master need the bus for the event? -/
def Event.takesBus : Event → Bool
  | .busWrite _ _ _ => true
  | _ => false

/-- One step of the world and the machine: the next event, or the machine's turn. While the core has the external bus locked
another bus master waits (20_memory R112). -/
def live (s : State) : Res :=
  match s.env with
  | [] => turn s
  | e :: rest => if s.busLocked && e.takesBus then turn s else happen e { s with env := rest }

/-- The next free value is another (log 4). -/
def State.tick (s : State) : State := { s with ctl := { s.ctl with freeCtr := s.ctl.freeCtr + 1 } }

end Sys2Proof.Machine
end

