-- ==== Sys2Proof/Machine/Step.lean ====
section
/-!
DEFINITION. One step of the machine, and the placing of an instruction where the next step fetches.
-/
namespace Sys2Proof.Machine

/-- One step: an event of the outside world, a DMA transfer, or an instruction (or the acceptance of an interrupt, or
one execution of a REP's target). -/
def step (s : State) : Host.Outcome State Fault Refusal :=
  match live s with
  | .next t => .next t.tick
  | .fault r => .fault r
  | .refused r => .refused r

/-- `s` with the instruction `w` (bits 23:0 the operation word, 47:24 the extension word, every bit from `nbits` on 0) at
the PC (log 6). No word waits on the program data bus for it, and none counts as written lately. -/
def State.withFetchWord (s : State) (nbits w : Nat) : State :=
  let v := w % 2 ^ nbits
  let s1 := s.pRawWrite s.pcu.pc (BitVec.ofNat 24 v)
  let s2 := s1.pRawWrite (s.pcu.pc + 1) (BitVec.ofNat 24 (v / 2 ^ 24))
  { s2 with ctl := { s2.ctl with pdb := [], hist := { s2.ctl.hist with pWrites := [] } } }

end Sys2Proof.Machine
end

