-- ==== Sys2Proof/Safety.lean ====
section
/-!
DEFINITION. The terms of the claims: the invariant of the machine, and what it means that a step goes on.
-/
namespace Sys2Proof.Machine

/-! ## The invariant -/

/-- No bit of the mask `m` is set in `v`. -/
abbrev Clear {n : Nat} (m v : BitVec n) : Prop := v &&& m = 0

/-- The reserved bits 18 and 12 of SR read as zero (10_state R30). -/
abbrev SrOk (sr : Word) : Prop := Clear 0x041000#24 sr

/-- Every OMR bit the device does not implement reads as zero (10_state R28, R29). -/
abbrev OmrOk (omr : Word) : Prop := Clear (~~~omrMask) omr

/-- The low byte of VBA is zero (10_state R37). -/
abbrev VbaOk (vba : Word) : Prop := Clear 0x0000FF#24 vba

/-- The LRU order names each of the eight sectors once (48_cache R541). -/
def LruOk (c : ICache) : Prop := c.lru.Perm sectors

/-- A pin that is disabled or level-sensitive holds no edge latch (60_exceptions R563), and the mask window is six
arbitrations at most (R578). -/
def IrqOk (i : Irq) : Prop := Clear (~~~irqKeep i.iprc) i.pend ∧ i.window.toNat ≤ 6

/-- At most two vector words are left to execute (60_exceptions R570). -/
def CtxOk (c : Option IntCtx) : Prop := ∀ x, c = some x → x.words.length ≤ 2

/-- What every step keeps. -/
structure Inv (s : State) : Prop where
  /-- Every memory is in its canonical form (log 3). -/
  mem : Memory.wf s = true
  sr : SrOk s.pcu.sr
  omr : OmrOk s.pcu.omr
  vba : VbaOk s.pcu.vba
  lru : LruOk s.cache
  irq : IrqOk s.irq
  ctx : CtxOk s.ctl.ctx
  /-- The trace buffer has twelve locations (61_debug R642). -/
  trace : s.once.trace.length ≤ 12

/-! ## Frames -/

/-- The whole content of a register as it stands. SR is framed bit by bit, SSH and SSL by `StackSame`. -/
def State.content (s : State) : Reg → AccWord
  | .d (.alu .x0) => s.alu.x0.setWidth 56
  | .d (.alu .x1) => s.alu.x1.setWidth 56
  | .d (.alu .y0) => s.alu.y0.setWidth 56
  | .d (.alu .y1) => s.alu.y1.setWidth 56
  | .d (.alu .a) => s.alu.a
  | .d (.alu .b) => s.alu.b
  | .d (.alu .a0) => (s.alu.a.extractLsb' 0 24).setWidth 56
  | .d (.alu .b0) => (s.alu.b.extractLsb' 0 24).setWidth 56
  | .d (.alu .a1) => (s.alu.a.extractLsb' 24 24).setWidth 56
  | .d (.alu .b1) => (s.alu.b.extractLsb' 24 24).setWidth 56
  | .d (.alu .a2) => (s.alu.a.extractLsb' 48 8).setWidth 56
  | .d (.alu .b2) => (s.alu.b.extractLsb' 48 8).setWidth 56
  | .d (.r n) => s.agu.r[n].setWidth 56
  | .d (.n n) => s.agu.n[n].setWidth 56
  | .c (.m n) => s.agu.m[n].setWidth 56
  | .c .ep => s.agu.ep.setWidth 56
  | .c .vba => s.pcu.vba.setWidth 56
  | .c .sc => s.pcu.sc.setWidth 56
  | .c .sz => s.pcu.sz.setWidth 56
  | .c .omr => s.pcu.omr.setWidth 56
  | .c .sp => s.pcu.sp.setWidth 56
  | .c .la => s.pcu.la.setWidth 56
  | .c .lc => s.pcu.lc.setWidth 56
  | .c .sr => 0
  | .c .ssh => 0
  | .c .ssl => 0

/-- Is `q` the whole accumulator that `r` is a part of? -/
def wholeOf (q r : Reg) : Bool :=
  match q, r with
  | .d (.alu .a), .d e => partOf .a e
  | .d (.alu .b), .d e => partOf .b e
  | _, _ => false

/-- Have two registers a bit in common? -/
def clash (q r : Reg) : Bool := q == r || wholeOf q r || wholeOf r q

/-- No location of the system stack changed. -/
def StackSame (s t : State) : Prop := t.pcu.ssh = s.pcu.ssh ∧ t.pcu.ssl = s.pcu.ssl

/-- Every location of X and Y memory reads as before but those that hold the data addresses `stores`. -/
def DataSame (s t : State) (stores : List (Space × Word)) : Prop :=
  ∀ (sp : Space) (k : Nat), (∀ p ∈ stores, p.1 = sp → s.dataKey sp p.2 ≠ k) → (t.dataMem sp).read k = (s.dataMem sp).read k

/-- Program memory and the instruction cache are as before. -/
def ProgramSame (s t : State) : Prop := t.mem.p = s.mem.p ∧ t.mem.pExt = s.mem.pExt ∧ t.cache = s.cache

/-- The memory-mapped registers, the interrupt flags and the debug registers are as before, unless one of `stores` is an
I/O address. -/
def DevicesSame (s t : State) (stores : List (Space × Word)) : Prop :=
  (∀ p ∈ stores, s.internalIo p.1 p.2 = false) → t.port = s.port ∧ t.dma = s.dma ∧ t.irq = s.irq ∧ t.once = s.once

/-- What an instruction leaves alone that writes at most the registers `regs`, the bits `sr` of SR and the data addresses
`stores`. The PC may change. -/
structure Frame (s t : State) (regs : List Reg) (sr : Word) (stores : List (Space × Word)) : Prop where
  regs : ∀ r, (∀ q ∈ regs, clash q r = false) → t.content r = s.content r
  sr : t.pcu.sr &&& ~~~sr = s.pcu.sr &&& ~~~sr
  stack : StackSame s t
  data : DataSame s t stores
  program : ProgramSame s t
  devices : DevicesSame s t stores
  /-- The processing state, an interrupt's or a REP's context, and the counter of free values. -/
  control : t.ctl.phase = s.ctl.phase ∧ t.ctl.ctx = s.ctl.ctx ∧ t.ctl.rep = s.ctl.rep ∧ t.ctl.freeCtr = s.ctl.freeCtr
  outside : t.jtag = s.jtag ∧ t.env = s.env

/-- The registers a parallel move writes. -/
def movedRegs (p : Plan) : List Reg := p.upds.map (fun u => .d (.r u.1)) ++ p.regs.map (fun u => .d u.1)

/-- The data addresses a parallel move stores to. -/
def moveStores (p : Plan) : List (Space × Word) := p.mems.map fun m => (m.1, m.2.1)

/-- An accumulator as a register. -/
def accAsReg (d : Acc) : Reg := .d (.alu (accReg d))

/-- The registers that each Data ALU instruction, transfer, LUA and LRA writes besides those of its parallel move; `none`
for every other instruction. -/
def dests : Instr → Option (List Reg)
  | .tfrAcc d _ => some [accAsReg d]
  | .tfrReg _ d _ => some [accAsReg d]
  | .addr d _ => some [accAsReg d]
  | .subr d _ => some [accAsReg d]
  | .addAcc d _ => some [accAsReg d]
  | .addXY _ d _ => some [accAsReg d]
  | .addReg _ d _ => some [accAsReg d]
  | .rnd d _ => some [accAsReg d]
  | .addl d _ => some [accAsReg d]
  | .clr d _ => some [accAsReg d]
  | .subAcc d _ => some [accAsReg d]
  | .subXY _ d _ => some [accAsReg d]
  | .subReg _ d _ => some [accAsReg d]
  | .subl d _ => some [accAsReg d]
  | .not d _ => some [accAsReg d]
  | .adc _ d _ => some [accAsReg d]
  | .asr d _ => some [accAsReg d]
  | .lsr d _ => some [accAsReg d]
  | .sbc _ d _ => some [accAsReg d]
  | .abs d _ => some [accAsReg d]
  | .ror d _ => some [accAsReg d]
  | .asl d _ => some [accAsReg d]
  | .lsl d _ => some [accAsReg d]
  | .neg d _ => some [accAsReg d]
  | .rol d _ => some [accAsReg d]
  | .or _ d _ => some [accAsReg d]
  | .eor _ d _ => some [accAsReg d]
  | .and _ d _ => some [accAsReg d]
  | .mpy _ d _ _ => some [accAsReg d]
  | .mpyr _ d _ _ => some [accAsReg d]
  | .mac _ d _ _ => some [accAsReg d]
  | .macr _ d _ _ => some [accAsReg d]
  | .addShort _ d => some [accAsReg d]
  | .addImm d _ => some [accAsReg d]
  | .andShort _ d => some [accAsReg d]
  | .andImm d _ => some [accAsReg d]
  | .aslNum _ _ d => some [accAsReg d]
  | .aslBy _ _ d => some [accAsReg d]
  | .asrNum _ _ d => some [accAsReg d]
  | .asrBy _ _ d => some [accAsReg d]
  | .clb _ d => some [accAsReg d]
  | .dec d => some [accAsReg d]
  | .inc d => some [accAsReg d]
  | .div _ d => some [accAsReg d]
  | .dmac _ _ d _ => some [accAsReg d]
  | .eorShort _ d => some [accAsReg d]
  | .eorImm d _ => some [accAsReg d]
  | .extractBy _ _ d => some [accAsReg d]
  | .extractNum _ d _ => some [accAsReg d]
  | .extractuBy _ _ d => some [accAsReg d]
  | .extractuNum _ d _ => some [accAsReg d]
  | .insertBy _ _ d => some [accAsReg d]
  | .insertNum _ d _ => some [accAsReg d]
  | .lslNum _ d => some [accAsReg d]
  | .lslBy _ d => some [accAsReg d]
  | .lsrNum _ d => some [accAsReg d]
  | .lsrBy _ d => some [accAsReg d]
  | .macNum _ _ d _ => some [accAsReg d]
  | .macSu _ _ d _ => some [accAsReg d]
  | .maci _ d _ _ => some [accAsReg d]
  | .macrNum _ _ d _ => some [accAsReg d]
  | .macri _ d _ _ => some [accAsReg d]
  | .merge _ d => some [accAsReg d]
  | .mpyNum _ _ d _ => some [accAsReg d]
  | .mpySu _ _ d _ => some [accAsReg d]
  | .mpyi _ d _ _ => some [accAsReg d]
  | .mpyrNum _ _ d _ => some [accAsReg d]
  | .mpyri _ d _ _ => some [accAsReg d]
  | .normf _ d => some [accAsReg d]
  | .orShort _ d => some [accAsReg d]
  | .orImm d _ => some [accAsReg d]
  | .subShort _ d => some [accAsReg d]
  | .subImm d _ => some [accAsReg d]
  | .tccD _ _ d => some [accAsReg d]
  | .maxm _ => some [accAsReg .b]
  | .max _ => some [accAsReg .b]
  | .tst _ _ => some []
  | .cmpAcc _ _ => some []
  | .cmpReg _ _ _ => some []
  | .cmpmAcc _ _ => some []
  | .cmpmReg _ _ _ => some []
  | .cmpShort _ _ => some []
  | .cmpImm _ _ => some []
  | .cmpu _ _ => some []
  | .moveParallel _ => some []
  | .moveImm _ _ => some []
  | .moveReg _ _ => some []
  | .moveUpd _ _ => some []
  | .moveXEa _ _ _ => some []
  | .moveXAa _ _ _ => some []
  | .moveYEa _ _ _ => some []
  | .moveYAa _ _ _ => some []
  | .moveXR1 _ _ _ _ _ => some []
  | .moveXR2 _ _ => some []
  | .moveRY1 _ _ _ _ _ => some []
  | .moveRY2 _ _ => some []
  | .moveLEa _ _ _ => some []
  | .moveLAa _ _ _ => some []
  | .moveXY _ _ _ _ _ _ _ _ => some []
  | .moveNone => some []
  | .tccDR _ _ d _ u => some [accAsReg d, .d (.r u)]
  | .tccR _ _ u => some [.d (.r u)]
  | .norm n d => some [accAsReg d, .d (.r n)]
  | .luaEa _ _ d => some [.d d]
  | .luaDisp _ _ d => some [.d (aguDReg d)]
  | .lraReg _ d => some [.d d]
  | .lraLong d _ => some [.d d]
  | _ => none

/-! ## Data ALU results -/

/-- A Data ALU operation as an instruction without a parallel move. -/
def alone : AluOp → Instr
  | .move => .moveNone
  | .tfrAcc d => .tfrAcc d .none
  | .tfrReg s d => .tfrReg s d .none
  | .addr d => .addr d .none
  | .tst d => .tst d .none
  | .cmpAcc d => .cmpAcc d .none
  | .cmpReg s d => .cmpReg s d .none
  | .subr d => .subr d .none
  | .cmpmAcc d => .cmpmAcc d .none
  | .cmpmReg s d => .cmpmReg s d .none
  | .addAcc d => .addAcc d .none
  | .addXY s d => .addXY s d .none
  | .addReg s d => .addReg s d .none
  | .rnd d => .rnd d .none
  | .addl d => .addl d .none
  | .clr d => .clr d .none
  | .subAcc d => .subAcc d .none
  | .subXY s d => .subXY s d .none
  | .subReg s d => .subReg s d .none
  | .maxm => .maxm .none
  | .max => .max .none
  | .subl d => .subl d .none
  | .not d => .not d .none
  | .adc s d => .adc s d .none
  | .asr d => .asr d .none
  | .lsr d => .lsr d .none
  | .sbc s d => .sbc s d .none
  | .abs d => .abs d .none
  | .ror d => .ror d .none
  | .asl d => .asl d .none
  | .lsl d => .lsl d .none
  | .neg d => .neg d .none
  | .rol d => .rol d .none
  | .or s d => .or s d .none
  | .eor s d => .eor s d .none
  | .and s d => .and s d .none
  | .mpy q d neg => .mpy q d neg .none
  | .mpyr q d neg => .mpyr q d neg .none
  | .mac q d neg => .mac q d neg .none
  | .macr q d neg => .macr q d neg .none

/-- The parallel move of `i` writes no part of `d` (46_move R420: duplicate destinations are not allowed). -/
def Spares (s : State) (i : Instr) (d : Acc) : Prop := ∀ p ∈ (s.plan (parallelPart i)).regs, partOf d p.1 = false

/-- The parallel move of `i` writes no bit of the logical word of `d`, at most its other parts (40_alu_common R245). -/
def SparesWord (s : State) (i : Instr) (d : Acc) : Prop :=
  ∀ p ∈ (s.plan (parallelPart i)).regs, partOf d p.1 = true → partMask p.1 &&& 0x00FFFFFF000000#56 = 0

/-- E and U of the result `r` under a scaling mode (40_alu_common R201, R202). -/
def ExtUnn (t : State) (r : AccWord) : Scaling → Prop
  | .none => t.srBit 5 = !(r.extractLsb' 47 9 == 0 || r.extractLsb' 47 9 == 0x1FF#9) ∧
      t.srBit 4 = (r.getLsbD 47 == r.getLsbD 46)
  | .down => t.srBit 5 = !(r.extractLsb' 48 8 == 0 || r.extractLsb' 48 8 == 0xFF#8) ∧
      t.srBit 4 = (r.getLsbD 48 == r.getLsbD 47)
  | .up => t.srBit 5 = !(r.extractLsb' 46 10 == 0 || r.extractLsb' 46 10 == 0x3FF#10) ∧
      t.srBit 4 = (r.getLsbD 46 == r.getLsbD 45)
  | .reserved => True

/-- E, U, N, Z of the result `r` (40_alu_common R201 to R204). -/
def FlagsOf (s t : State) (r : AccWord) : Prop :=
  ExtUnn t r s.scaling ∧ t.srBit 3 = r.msb ∧ t.srBit 2 = (r == 0)

/-- L and S after `i`: sticky, L by the overflow `v` and by a limiting read of the move, S by the move alone
(40_alu_common R207, R208). -/
def Stickies (s t : State) (i : Instr) (v : Bool) : Prop :=
  t.srBit 6 = (s.srBit 6 || v || (s.plan (parallelPart i)).lTerm) ∧
  t.srBit 7 = (s.srBit 7 || (s.plan (parallelPart i)).sTerm)

/-- The pattern that the exact result `x` leaves in an accumulator without saturation: modulo 2^56, or in Sixteen-bit
Arithmetic mode modulo 2^40, in the bits 55:32 and 23:8 (40_alu_common R205, R230, R232). -/
def wrapped (sa : Bool) (x : Int) : AccWord :=
  if sa then (BitVec.ofInt 40 x).extractLsb' 16 24 ++ 0#8 ++ (BitVec.ofInt 40 x).extractLsb' 0 16 ++ 0#8
  else BitVec.ofInt 56 x

/-- Does the exact result leave the range of the accumulator (40_alu_common R205)? -/
def outOfRange (sa : Bool) (x : Int) : Bool :=
  if sa then decide (x < -(2 ^ 39) ∨ 2 ^ 39 ≤ x) else decide (x < -(2 ^ 55) ∨ 2 ^ 55 ≤ x)

/-- The three bits that the saturation logic compares differ (40_alu_common R225). -/
def threeBitsDiffer (r : AccWord) : Bool :=
  !(r.extractLsb' 55 1 == r.extractLsb' 48 1 && r.extractLsb' 48 1 == r.extractLsb' 47 1)

/-- The saturation constants (40_alu_common R225); those of a rounding instruction have no low part. -/
def clipConst (sa rounding : Bool) (r : AccWord) : AccWord :=
  if r.msb then 0xFF800000000000#56
  else match sa, rounding with
    | false, false => 0x007FFFFFFFFFFF#56
    | false, true => 0x007FFFFF000000#56
    | true, false => 0x007FFF00FFFF00#56
    | true, true => 0x007FFF00000000#56

/-- What Arithmetic Saturation mode makes of the result `r` with the overflow `v`, and V (40_alu_common R205, R225). -/
def clipped (s : State) (rounding : Bool) (r : AccWord) (v : Bool) : AccWord × Bool :=
  if s.srBit 20 then (if threeBitsDiffer r then clipConst s.sa rounding r else r, threeBitsDiffer r) else (r, v)

/-- The stored result and V for the exact result `x`; `sm` says whether the instruction obeys Arithmetic Saturation mode
(40_alu_common R205, R225, R226). -/
def stored (s : State) (sm : Bool) (x : Int) : AccWord × Bool :=
  if sm then clipped s false (wrapped s.sa x) (outOfRange s.sa x) else (wrapped s.sa x, outOfRange s.sa x)

/-- The pattern of an operand as an unsigned number of 56 or 40 bits (40_alu_common R206). -/
def unsignedOf (sa : Bool) (x : Int) : Int := if sa then x % 2 ^ 40 else x % 2 ^ 56

/-- A 24-bit word as a signed or unsigned number; in Sixteen-bit Arithmetic mode its sixteen MSBs
(40_alu_common R232; 42_arithmetic_b R300). -/
def wordValue (sa signed : Bool) (w : Word) : Int :=
  if sa then (if signed then (w.extractLsb' 8 16).toInt else ((w.extractLsb' 8 16).toNat : Int))
  else (if signed then w.toInt else (w.toNat : Int))

/-- Twice the product of two words, negated by the minus sign (42_arithmetic_b R300). -/
def twiceProduct (sa : Bool) (a b : Word) (sgA sgB minus : Bool) : Int :=
  (if minus then -1 else 1) * (2 * (wordValue sa sgA a * wordValue sa sgB b))

/-- The terms of a sum or difference: `a + b + cin`, or `a - b - cin` if `minus`, into the accumulator `d`. -/
structure Terms where
  d : Acc
  a : Int
  b : Int
  minus : Bool
  cin : Bool

/-- The exact result. -/
def Terms.exact (T : Terms) : Int :=
  if T.minus then T.a - T.b - (if T.cin then 1 else 0) else T.a + T.b + (if T.cin then 1 else 0)

/-- The carry or borrow out of the top bit (40_alu_common R206). -/
def Terms.carry (sa : Bool) (T : Terms) : Bool :=
  let c : Int := if T.cin then 1 else 0
  if T.minus then decide (unsignedOf sa T.a < unsignedOf sa T.b + c)
  else decide ((if sa then 2 ^ 40 else 2 ^ 56) ≤ unsignedOf sa T.a + unsignedOf sa T.b + c)

/-- The terms of each addition and subtraction (41_arithmetic_a R251, R252, R254, R261, R264, R271, R272, R274). -/
def sumTerms (s : State) : Instr → Option Terms
  | .addAcc d _ => some ⟨d, s.accSrc d, s.accSrc (otherAcc d), false, false⟩
  | .addXY r d _ => some ⟨d, s.accSrc d, s.longSrc r, false, false⟩
  | .addReg r d _ => some ⟨d, s.accSrc d, s.wordSrc r, false, false⟩
  | .adc r d _ => some ⟨d, s.accSrc d, s.longSrc r, false, s.srBit 0⟩
  | .addr d _ => some ⟨d, s.accSrc d / 2, s.accSrc (otherAcc d), false, false⟩
  | .addShort i d => some ⟨d, s.accSrc d, s.immSrc (i.setWidth 24), false, false⟩
  | .addImm d w => some ⟨d, s.accSrc d, s.immSrc w, false, false⟩
  | .inc d => some ⟨d, s.accSrc d, 1, false, false⟩
  | .subAcc d _ => some ⟨d, s.accSrc d, s.accSrc (otherAcc d), true, false⟩
  | .subXY r d _ => some ⟨d, s.accSrc d, s.longSrc r, true, false⟩
  | .subReg r d _ => some ⟨d, s.accSrc d, s.wordSrc r, true, false⟩
  | .sbc r d _ => some ⟨d, s.accSrc d, s.longSrc r, true, s.srBit 0⟩
  | .subr d _ => some ⟨d, s.accSrc d / 2, s.accSrc (otherAcc d), true, false⟩
  | .subShort i d => some ⟨d, s.accSrc d, s.immSrc (i.setWidth 24), true, false⟩
  | .subImm d w => some ⟨d, s.accSrc d, s.immSrc w, true, false⟩
  | .dec d => some ⟨d, s.accSrc d, 1, true, false⟩
  | _ => none

/-- The terms of ADDL and SUBL, whose destination is first shifted left by one (41_arithmetic_a R253, R273). -/
def doubledTerms (s : State) : Instr → Option Terms
  | .addl d _ => some ⟨d, accInt s.sa (wrapped s.sa (2 * s.accSrc d)), s.accSrc (otherAcc d), false, false⟩
  | .subl d _ => some ⟨d, accInt s.sa (wrapped s.sa (2 * s.accSrc d)), s.accSrc (otherAcc d), true, false⟩
  | _ => none

/-- The terms of a comparison, which stores nothing (41_arithmetic_a R258, R259). -/
def compareTerms (s : State) : Instr → Option Terms
  | .cmpAcc d _ => some ⟨d, s.accSrc d, s.accSrc (otherAcc d), true, false⟩
  | .cmpReg r d _ => some ⟨d, s.accSrc d, s.wordSrc r, true, false⟩
  | .cmpShort i d => some ⟨d, s.accSrc d, s.immSrc (i.setWidth 24), true, false⟩
  | .cmpImm d w => some ⟨d, s.accSrc d, s.immSrc w, true, false⟩
  | .cmpmAcc d _ => some ⟨d, (s.accSrc d).natAbs, (s.accSrc (otherAcc d)).natAbs, true, false⟩
  | .cmpmReg r d _ => some ⟨d, (s.accSrc d).natAbs, (s.wordSrc r).natAbs, true, false⟩
  | _ => none

/-- A shift left by one changes bit 55 (41_arithmetic_a R253). -/
def signMoves (r : AccWord) : Bool := r.getLsbD 55 != r.getLsbD 54

/-- Bit `k` of an accumulator as an operand: of its 56 bits, or in Sixteen-bit Arithmetic mode of its virtual 40
(40_alu_common R230). -/
def operandBit (sa : Bool) (a : AccWord) (k : Nat) : Bool :=
  if sa then (a.extractLsb' 48 8 ++ a.extractLsb' 32 16 ++ a.extractLsb' 8 16 : BitVec 40).getLsbD k else a.getLsbD k

/-- The arithmetic shifts by a count: left or right, the count, source and destination (41_arithmetic_a R255, R256). -/
def countedShift (s : State) : Instr → Option (Bool × Nat × Acc × Acc)
  | .aslNum i src d => some (true, i.toNat, src, d)
  | .aslBy c src d => some (true, ((s.shiftSrc c).extractLsb' 0 6).toNat, src, d)
  | .asrNum i src d => some (false, i.toNat, src, d)
  | .asrBy c src d => some (false, ((s.shiftSrc c).extractLsb' 0 6).toNat, src, d)
  | _ => none

/-- How many bits an accumulator has as an operand (40_alu_common R230). -/
def operandWidth (sa : Bool) : Nat := if sa then 40 else 56

/-- Offset and width of the field that a control word names (43_logical R354). -/
def fieldAt (sa : Bool) (c : Word) : Nat × Nat :=
  if sa then ((c.extractLsb' 8 6).toNat, (c.extractLsb' 16 6).toNat) else ((c.extractLsb' 0 6).toNat, (c.extractLsb' 12 6).toNat)

/-- The 48 bits, or in Sixteen-bit Arithmetic mode the 32, of an accumulator without its extension, as an unsigned number
(41_arithmetic_a R260; 40_alu_common R230). -/
def unsignedLow (sa : Bool) (a : AccWord) : Nat :=
  if sa then (a.extractLsb' 32 16 ++ a.extractLsb' 8 16 : BitVec 32).toNat else (a.extractLsb' 0 48).toNat

/-- EXTRACT (signed) and EXTRACTU: control word, source, destination (43_logical R354, R355). -/
def extraction (s : State) : Instr → Option (Bool × Word × Acc × Acc)
  | .extractBy c src d => some (true, s.shiftSrc c, src, d)
  | .extractNum src d w => some (true, w, src, d)
  | .extractuBy c src d => some (false, s.shiftSrc c, src, d)
  | .extractuNum src d w => some (false, w, src, d)
  | _ => none

/-- INSERT: control word, source, destination (43_logical R356). -/
def insertion (s : State) : Instr → Option (Word × Word × Acc)
  | .insertBy c r d => some (s.shiftSrc c, s.insSrc r, d)
  | .insertNum r d w => some (w, s.insSrc r, d)
  | _ => none

/-! ## Products -/

/-- Is Double-Precision Multiply mode in force (40_alu_common R240, R232)? -/
def doubleMode (s : State) : Bool := s.srBit 14 && !s.sa

/-- The exact result of each multiplication that does not round, its accumulator, and whether Arithmetic Saturation mode
applies (42_arithmetic_b R300 to R303, R306 to R308, R311). In Double-Precision Multiply mode MPY and MAC are not here. -/
def productTerms (s : State) : Instr → Option (Acc × Bool × Int)
  | .mpy q d k _ =>
    if doubleMode s then none
    else some (d, true, twiceProduct s.sa (s.xy (pairRegs q).1) (s.xy (pairRegs q).2) true true k)
  | .mac q d k _ =>
    if doubleMode s then none
    else some (d, true, s.accSrc d + twiceProduct s.sa (s.xy (pairRegs q).1) (s.xy (pairRegs q).2) true true k)
  | .mpyNum r n d k => some (d, true, twiceProduct s.sa (s.immWord (mulConst n)) (s.xy r) true true k)
  | .macNum r n d k => some (d, true, s.accSrc d + twiceProduct s.sa (s.immWord (mulConst n)) (s.xy r) true true k)
  | .mpyi r d k w => some (d, true, twiceProduct s.sa (s.immWord w) (s.xy r) true true k)
  | .maci r d k w => some (d, true, s.accSrc d + twiceProduct s.sa (s.immWord w) (s.xy r) true true k)
  | .mpySu sg q d k => some (d, false, twiceProduct s.sa (s.xy q.s1) (s.xy q.s2) (sg == .su) false k)
  | .macSu sg q d k => some (d, false, s.accSrc d + twiceProduct s.sa (s.xy q.s1) (s.xy q.s2) (sg == .su) false k)
  | .dmac sg q d k =>
    some (d, sg == .ss, s.accSrc d / 2 ^ (if s.sa then 16 else 24) +
      twiceProduct s.sa (s.xy q.s1) (s.xy q.s2) (sg != .uu) (sg == .ss) k)
  | _ => none

/-- The exact results of MPY and MAC in Double-Precision Multiply mode (40_alu_common R240): four register pairs have
their own meaning, every other pair its ordinary one. -/
def doubleModeTerms (s : State) : Instr → Option (Acc × Int)
  | .mpy .y0x0 d k _ => some (d, twiceProduct false s.alu.y0 s.alu.x0 false false k)
  | .mpy q d k _ => some (d, twiceProduct false (s.xy (pairRegs q).1) (s.xy (pairRegs q).2) true true k)
  | .mac .x1y0 d k _ => some (d, (s.acc d).toInt / 2 ^ 24 + twiceProduct false s.alu.x1 s.alu.y0 true false k)
  | .mac .x0y1 d k _ => some (d, (s.acc d).toInt + twiceProduct false s.alu.x0 s.alu.y1 false true k)
  | .mac .y1x1 d k _ => some (d, (s.acc d).toInt / 2 ^ 24 + twiceProduct false s.alu.y1 s.alu.x1 true true k)
  | .mac q d k _ =>
    some (d, (s.acc d).toInt + twiceProduct false (s.xy (pairRegs q).1) (s.xy (pairRegs q).2) true true k)
  | _ => none

/-- The exact value that a rounding instruction rounds, and its accumulator (41_arithmetic_a R270; 42_arithmetic_b R304,
R305, R309, R310). -/
def roundTerms (s : State) : Instr → Option (Acc × Int)
  | .rnd d _ => some (d, s.accSrc d)
  | .mpyr q d k _ => some (d, twiceProduct s.sa (s.xy (pairRegs q).1) (s.xy (pairRegs q).2) true true k)
  | .macr q d k _ => some (d, s.accSrc d + twiceProduct s.sa (s.xy (pairRegs q).1) (s.xy (pairRegs q).2) true true k)
  | .mpyrNum r n d k => some (d, twiceProduct s.sa (s.immWord (mulConst n)) (s.xy r) true true k)
  | .macrNum r n d k => some (d, s.accSrc d + twiceProduct s.sa (s.immWord (mulConst n)) (s.xy r) true true k)
  | .mpyri r d k w => some (d, twiceProduct s.sa (s.immWord w) (s.xy r) true true k)
  | .macri r d k w => some (d, s.accSrc d + twiceProduct s.sa (s.immWord w) (s.xy r) true true k)
  | _ => none

/-- How many low bits a rounding clears: the rounding position and what is right of it (40_alu_common R222). -/
def clearedBits (sa : Bool) : Scaling → Nat
  | .none => if sa then 16 else 24
  | .down => if sa then 17 else 25
  | .up => if sa then 15 else 23
  | .reserved => if sa then 16 else 24

/-- `x` rounded to a multiple of 2^c, exact halves upwards or, if `even`, to the even neighbour (40_alu_common R222). -/
def roundedTo (c : Nat) (even : Bool) (x : Int) : Int :=
  let q := (2 * x + 2 ^ c) / (2 * 2 ^ c)
  if even && (2 * x + 2 ^ c) % (2 * 2 ^ c) == 0 && q % 2 == 1 then (q - 1) * 2 ^ c else q * 2 ^ c

/-- The stored result and V of a rounding of the exact value `x`: the value is brought into the accumulator, rounded, and
saturated; V is the overflow of the exact sum with the rounding constant (40_alu_common R205, R222, R225; 42_arithmetic_b
R300). RM is bit 21 of SR. -/
def roundedStored (s : State) (x : Int) : AccWord × Bool :=
  let r := accInt s.sa (wrapped s.sa x)
  let c := clearedBits s.sa s.scaling
  clipped s true (wrapped s.sa (roundedTo c (!s.srBit 21) r))
    (outOfRange s.sa (x + 2 ^ (c - 1)))

/-! ## Logical results -/

/-- The bits of an accumulator that logical operations work on: 47 to 24, or 47 to 32 in Sixteen-bit Arithmetic mode
(43_logical, preamble). -/
def logicLow (sa : Bool) : Nat := if sa then 32 else 24

/-- `t` is the accumulator `a` with its logical word replaced by the bits `f` (43_logical, preamble). -/
def LogicWord (sa : Bool) (a t : AccWord) (f : Nat → Bool) : Prop :=
  ∀ k < 56, t.getLsbD k = if logicLow sa ≤ k ∧ k < 48 then f k else a.getLsbD k

/-- N and Z of a logical result, V cleared, E and U as before (43_logical, preamble). -/
def LogicFlags (s t : State) (f : Nat → Bool) : Prop :=
  t.srBit 3 = f 47 ∧ (t.srBit 2 = true ↔ ∀ k, logicLow s.sa ≤ k → k < 48 → f k = false) ∧ t.srBit 1 = false ∧
  t.srBit 4 = s.srBit 4 ∧ t.srBit 5 = s.srBit 5

/-- The accumulator and the bits of the logical word that AND, OR, EOR and NOT leave there (43_logical R350, R353, R360,
R361). -/
def logicTerms (s : State) : Instr → Option (Acc × (Nat → Bool))
  | .and r d _ => some (d, fun k => (s.acc d).getLsbD k && (s.xy r).getLsbD (k - 24))
  | .or r d _ => some (d, fun k => (s.acc d).getLsbD k || (s.xy r).getLsbD (k - 24))
  | .eor r d _ => some (d, fun k => (s.acc d).getLsbD k ^^ (s.xy r).getLsbD (k - 24))
  | .not d _ => some (d, fun k => !(s.acc d).getLsbD k)
  | .andShort i d => some (d, fun k => (s.acc d).getLsbD k && (s.immWord (i.setWidth 24)).getLsbD (k - 24))
  | .orShort i d => some (d, fun k => (s.acc d).getLsbD k || (s.immWord (i.setWidth 24)).getLsbD (k - 24))
  | .eorShort i d => some (d, fun k => (s.acc d).getLsbD k ^^ (s.immWord (i.setWidth 24)).getLsbD (k - 24))
  | .andImm d w => some (d, fun k => (s.acc d).getLsbD k && (s.immWord w).getLsbD (k - 24))
  | .orImm d w => some (d, fun k => (s.acc d).getLsbD k || (s.immWord w).getLsbD (k - 24))
  | .eorImm d w => some (d, fun k => (s.acc d).getLsbD k ^^ (s.immWord w).getLsbD (k - 24))
  | _ => none

/-- A logical shift or rotate: accumulator, count, the bits of the new word, and C (43_logical R357, R358, R363, R364). -/
structure ShiftTerms where
  d : Acc
  count : Nat
  bits : Nat → Bool
  carry : Bool

/-- The bits of a word of `a` shifted left by `n`. -/
def leftBits (sa : Bool) (a : AccWord) (n : Nat) (k : Nat) : Bool := decide (logicLow sa + n ≤ k) && a.getLsbD (k - n)
/-- The bits of a word of `a` shifted right by `n`. -/
def rightBits (a : AccWord) (n : Nat) (k : Nat) : Bool := decide (k + n < 48) && a.getLsbD (k + n)

@[inherit_doc ShiftTerms] def shiftTerms (s : State) : Instr → Option ShiftTerms
  | .lsl d _ => some ⟨d, 1, leftBits s.sa (s.acc d) 1, (s.acc d).getLsbD 47⟩
  | .lslNum i d => some ⟨d, i.toNat, leftBits s.sa (s.acc d) i.toNat, i != 0 && (s.acc d).getLsbD (48 - i.toNat)⟩
  | .lslBy c d =>
    let n := (s.shiftSrc c).toNat
    some ⟨d, n, leftBits s.sa (s.acc d) n, n != 0 && (s.acc d).getLsbD (48 - n)⟩
  | .lsr d _ => some ⟨d, 1, rightBits (s.acc d) 1, (s.acc d).getLsbD (logicLow s.sa)⟩
  | .lsrNum i d =>
    some ⟨d, i.toNat, rightBits (s.acc d) i.toNat, i != 0 && (s.acc d).getLsbD (logicLow s.sa + i.toNat - 1)⟩
  | .lsrBy c d =>
    let n := (s.shiftSrc c).toNat
    some ⟨d, n, rightBits (s.acc d) n, n != 0 && (s.acc d).getLsbD (logicLow s.sa + n - 1)⟩
  | .rol d _ =>
    some ⟨d, 1, fun k => if k = logicLow s.sa then s.srBit 0 else (s.acc d).getLsbD (k - 1), (s.acc d).getLsbD 47⟩
  | .ror d _ =>
    some ⟨d, 1, fun k => if k = 47 then s.srBit 0 else (s.acc d).getLsbD (k + 1), (s.acc d).getLsbD (logicLow s.sa)⟩
  | _ => none

/-! ## Registers as destinations -/

/-- The word that a register takes from the bus word `w`: in Sixteen-bit Arithmetic mode its sixteen low bits, as the sixteen
high ones (40_alu_common R231; 92_eei_decisions D12). -/
def taken (sa : Bool) (w : Word) : Word := if sa then w <<< 8 else w

/-- The content of a register after the bus word `w` was moved into it (40_alu_common R212, R213, R231; 46_move R440). -/
def landed (s : State) (d : DReg) (w : Word) : AccWord :=
  let p := taken s.sa w
  match d with
  | .alu .a => (p ++ 0#24 : BitVec 48).signExtend 56
  | .alu .b => (p ++ 0#24 : BitVec 48).signExtend 56
  | .alu .a2 => (w &&& 0x0000FF#24).setWidth 56
  | .alu .b2 => (w &&& 0x0000FF#24).setWidth 56
  | .alu _ => p.setWidth 56
  | .r _ => (if s.sc then w &&& 0x00FFFF#24 else w).setWidth 56
  | .n _ => (if s.sc then w &&& 0x00FFFF#24 else w).setWidth 56

/-- What a full accumulator scales to, as a number in which 2^24 is one unit of the word read, or 1 of the long word
read (40_alu_common R215): the content, its half or its double. -/
def scaled (m : Scaling) (x : Int) (unit : Nat) : Int :=
  match m with
  | .none => x / 2 ^ unit
  | .down => x / 2 ^ (unit + 1)
  | .up => 2 * x / 2 ^ unit
  | .reserved => 0

/-- `q` limited to `n` bits (40_alu_common R215). -/
def limitedTo (n : Nat) (q : Int) : BitVec n :=
  if q < -(2 ^ (n - 1)) then BitVec.intMin n
  else if 2 ^ (n - 1) ≤ q then BitVec.intMax n
  else BitVec.ofInt n q

/-- What moving `w` into a control register leaves in `t`, from `s` (46_move R440; 10_state R28, R30, R37, R62). -/
def ControlLanded (s t : State) (c : CReg) (w : Word) : Prop :=
  let v : Word := if s.sc then w &&& 0x00FFFF#24 else w
  match c with
  | .m n => t.agu.m[n] = v
  | .ep => t.agu.ep = v
  | .vba => t.pcu.vba = v &&& 0xFFFF00#24
  | .sc => s.sen = false → t.pcu.sc = w.extractLsb' 0 5
  | .sz => t.pcu.sz = v
  | .sr => ∀ k < 24, t.srBit k = (k != 18 && k != 12 && if s.sc && decide (16 ≤ k) then s.srBit k else w.getLsbD k)
  | .omr => ∀ k < 24, t.omrBit k = (omrMask.getLsbD k && if s.sc && decide (16 ≤ k) then s.omrBit k else w.getLsbD k)
  | .sp => t.pcu.sp = v
  | .ssh => t.ssh = v ∧ t.pcu.ssl = s.pcu.ssl ∧ (s.sen = true → t.pcu.sp = s.pcu.sp + 1)
  | .ssl => t.ssl = v ∧ t.pcu.sp = s.pcu.sp ∧ t.pcu.ssh = s.pcu.ssh
  | .la => t.pcu.la = v
  | .lc => t.pcu.lc = v

/-! ## Moves -/

/-- The stack location `k` entries above the top, or below it for a negative `k`. -/
def slotAt (s : State) (k : Int) : Fin 16 := Fin.ofNat 16 ((s.pcu.sp.toNat + k) % 16).toNat

/-- What a move reads or writes besides a register: a word of data memory, one of program memory, or immediate data. -/
inductive Loc
  | data (sp : Space) (a : Word)
  | prog (a : Word)
  | word (w : Word)
deriving DecidableEq, Repr

/-- The word there. -/
def Loc.value (s : State) : Loc → Word
  | .data sp a => s.readData sp a
  | .prog a => s.readP a
  | .word w => w

/-- A word put there. -/
def Loc.put (s : State) (v : Word) : Loc → State
  | .data sp a => s.writeData sp a v
  | .prog a => s.writeP a v
  | .word _ => s

/-- The data addresses a store to it writes. -/
def Loc.stores : Loc → List (Space × Word)
  | .data sp a => [(sp, a)]
  | .prog _ => []
  | .word _ => []

/-- Where an effective address of a load (`load`) or a store leads (20_memory R116). -/
def eaLoc (s : State) (sp : Space) (load : Bool) (e : Ea) : Loc :=
  match load, e with
  | true, .imm d => .word d
  | _, _ => .data sp (s.ea e).addr

/-- A move between one register and one place: into the register or out of it, with an address register update. -/
structure Transfer where
  reg : Reg
  load : Bool
  loc : Loc
  upd : Option (Fin 8 × Word)

/-- The moves between a register and memory, parallel or not (46_move R425, R427, R433 to R436). The W bit tells whether
the register is the destination; of MOVEP, whether the peripheral is. -/
def transfer (s : State) : Instr → Option Transfer
  | .moveXEa d w e => some ⟨.d d, w == .write, eaLoc s .x (w == .write) e, (s.ea e).upd⟩
  | .moveXAa d w a => some ⟨.d d, w == .write, .data .x (a.setWidth 24), none⟩
  | .moveYEa d w e => some ⟨.d d, w == .write, eaLoc s .y (w == .write) e, (s.ea e).upd⟩
  | .moveYAa d w a => some ⟨.d d, w == .write, .data .y (a.setWidth 24), none⟩
  | .moveXLong n w r d => some ⟨r, w == .write, .data .x (s.upd .updX 0 n d false), none⟩
  | .moveYLong n w r d => some ⟨r, w == .write, .data .y (s.upd .updX 0 n d false), none⟩
  | .moveXShort d n w r => some ⟨.d (.alu r), w == .write, .data .x (s.upd .updX 0 n (d.signExtend 24) false), none⟩
  | .moveYShort d n w r => some ⟨.d (.alu r), w == .write, .data .y (s.upd .updX 0 n (d.signExtend 24) false), none⟩
  | .movecEa w sp e r => some ⟨.c r, w == .write, eaLoc s sp (w == .write) e, (s.ea e).upd⟩
  | .movecAa w sp a r => some ⟨.c r, w == .write, .data sp (a.setWidth 24), none⟩
  | .movemEa w e r => some ⟨r, w == .write, .prog (s.ea e).addr, (s.ea e).upd⟩
  | .movemAa w a r => some ⟨r, w == .write, .prog (a.setWidth 24), none⟩
  | .movepPpReg ps w r p => some ⟨r, w == .read, .data ps (s.movepAddr (ppAddr p)), none⟩
  | .movepXqqReg w r q => some ⟨r, w == .read, .data .x (s.movepAddr (qqAddr q)), none⟩
  | .movepYqqReg w r q => some ⟨r, w == .read, .data .y (s.movepAddr (qqAddr q)), none⟩
  | _ => none

/-- The data addresses a transfer stores to. -/
def Transfer.stores (T : Transfer) : List (Space × Word) := if T.load then [] else T.loc.stores

/-- The registers a transfer writes. -/
def Transfer.dests (T : Transfer) : List Reg :=
  (if T.load then [T.reg] else []) ++ T.upd.toList.map fun u => .d (.r u.1)

/-- The registers whose move does more than move their content: SR, OMR, SC, SSH and SSL (46_move R440). -/
def movesMore : Reg → Bool
  | .c .sr => true
  | .c .omr => true
  | .c .sc => true
  | .c .ssh => true
  | .c .ssl => true
  | _ => false

/-- The registers that a move of SSH or SC changes besides: SSH as an operand pushes or pulls, and the stack extension moves an
entry (10_state R62, R64). -/
def Transfer.besides (s : State) (T : Transfer) : List Reg :=
  (if T.reg = .c .ssh then [.c .sp, .c .sc] else []) ++
  (if s.sen = true ∧ (T.reg = .c .ssh ∨ T.load = true ∧ T.reg = .c .sc) then [.c .ep, .c .omr] else [])

/-- The stack counter that a load of SSH or SC leaves before the stack extension acts (10_state R62, R64). -/
def Transfer.counter (s : State) (T : Transfer) : Option Nat :=
  match T.load, T.reg with
  | true, .c .ssh => some (s.pcu.sc + 1).toNat
  | true, .c .sc => some ((T.loc.value s).extractLsb' 0 5).toNat
  | _, _ => none

/-- The data addresses of the entry that such a load spills (10_state R64). -/
def Transfer.spills (s : State) (T : Transfer) : List (Space × Word) :=
  if s.sen = true ∧ ∃ c, T.counter s = some c ∧ 14 < c then [(s.xys, s.agu.ep), (s.xys, s.agu.ep + 1)] else []

/-- The stack location that a load of SC or a read of SSH refills (10_state R64). -/
def Transfer.refills (s : State) (T : Transfer) : List (Fin 16) :=
  match T.load, T.reg with
  | true, .c .sc =>
    let c := ((T.loc.value s).extractLsb' 0 5).toNat
    if s.sen = true ∧ c < 2 ∧ c < s.pcu.sp.toNat then [slotAt s (-c)] else []
  | false, .c .ssh =>
    if s.sen = true ∧ (s.pcu.sc - 1).toNat < 2 ∧ (s.pcu.sc - 1).toNat < (s.pcu.sp - 1).toNat then [slotAt s (-s.pcu.sc.toNat)]
    else []
  | _, _ => []

/-- The stack locations whose high half, and those whose low half, a transfer changes (10_state R62, R64). -/
def Transfer.highs (s : State) (T : Transfer) : List (Fin 16) :=
  (if T.load = true ∧ T.reg = .c .ssh then [slotAt s 1] else []) ++ T.refills s
@[inherit_doc Transfer.highs] def Transfer.lows (s : State) (T : Transfer) : List (Fin 16) :=
  (if T.load = true ∧ T.reg = .c .ssl then [slotAt s 0] else []) ++ T.refills s

/-- The bits of SR that a transfer may change: all by a load of SR, S and L by reading a register of the five-bit code. -/
def Transfer.srBits (T : Transfer) : Word :=
  match T.load, T.reg with
  | true, .c .sr => 0xFFFFFF#24
  | false, .d _ => 0x0000C0#24
  | _, _ => 0

/-- What program memory and the cache keep: all but the place that a transfer stores to, and the words of the cache where a load
of SR leaves Cache mode (48_cache R541, R545, R556). -/
def ProgramKept (s t : State) (T : Transfer) : Prop :=
  match T.load, T.loc with
  | false, .prog a => (∀ b : Word, s.pPlace b ≠ s.pPlace a → t.readP b = s.readP b) ∧ t.cache.tag = s.cache.tag ∧
      t.cache.lock = s.cache.lock ∧ t.cache.lru = s.cache.lru
  | _, _ =>
    if T.reg = .c .sr ∧ s.ce = true ∧ t.ce = false then
      t.mem.pExt = s.mem.pExt ∧ t.cache.data = s.cache.data ∧
        ∀ k, (k < Config.icacheStart.val ∨ Config.icacheStart.val + 1024 ≤ k) → t.mem.p.read k = s.mem.p.read k
    else ProgramSame s t

/-- What a transfer leaves alone, those of SR, OMR, SC, SSH and SSL and the stores to program memory among them. The PC may
change. -/
structure TransferFrame (s t : State) (T : Transfer) : Prop where
  regs : ∀ r, (∀ q ∈ T.dests ++ T.besides s, clash q r = false) → t.content r = s.content r
  sr : t.pcu.sr &&& ~~~T.srBits = s.pcu.sr &&& ~~~T.srBits
  /-- Only a load of OMR changes other bits of it than EOV, EUN and WRP. -/
  omr : ¬(T.load = true ∧ T.reg = .c .omr) → t.pcu.omr &&& 0xF1FFFF#24 = s.pcu.omr &&& 0xF1FFFF#24
  high : ∀ j : Fin 16, j ∉ T.highs s → t.pcu.ssh[j] = s.pcu.ssh[j]
  low : ∀ j : Fin 16, j ∉ T.lows s → t.pcu.ssl[j] = s.pcu.ssl[j]
  data : DataSame s t (T.stores ++ T.spills s)
  program : ProgramKept s t T
  /-- Without a store to an I/O address: clearing OMR[EBD] may make a refresh, SSH may request the Stack Error. -/
  devices : (∀ p ∈ T.stores ++ T.spills s, s.internalIo p.1 p.2 = false) →
    t.dma = s.dma ∧ t.once = s.once ∧ t.port = { s.port with dcr := t.port.dcr } ∧ t.irq = { s.irq with pend := t.irq.pend } ∧
    (¬(T.load = true ∧ T.reg = .c .omr) → t.port = s.port) ∧
    ∀ k < 128, (k ≠ 1 ∨ T.reg ≠ .c .ssh) → t.irq.pend.getLsbD k = s.irq.pend.getLsbD k
  control : t.ctl.phase = s.ctl.phase ∧ t.ctl.ctx = s.ctl.ctx ∧ t.ctl.rep = s.ctl.rep ∧ t.ctl.freeCtr = s.ctl.freeCtr
  outside : t.jtag = s.jtag ∧ t.env = s.env

/-- MOVEP between a peripheral and memory: source, destination, address register update (46_move R436). -/
def blockMove (s : State) : Instr → Option (Loc × Loc × Option (Fin 8 × Word))
  | .movepPpEa ps .write sp e p => some (eaLoc s sp true e, .data ps (s.movepAddr (ppAddr p)), (s.ea e).upd)
  | .movepPpEa ps .read sp e p => some (.data ps (s.movepAddr (ppAddr p)), eaLoc s sp false e, (s.ea e).upd)
  | .movepXqqEa .write sp e q => some (eaLoc s sp true e, .data .x (s.movepAddr (qqAddr q)), (s.ea e).upd)
  | .movepXqqEa .read sp e q => some (.data .x (s.movepAddr (qqAddr q)), eaLoc s sp false e, (s.ea e).upd)
  | .movepYqqEa .write sp e q => some (eaLoc s sp true e, .data .y (s.movepAddr (qqAddr q)), (s.ea e).upd)
  | .movepYqqEa .read sp e q => some (.data .y (s.movepAddr (qqAddr q)), eaLoc s sp false e, (s.ea e).upd)
  | .movepPpP ps .write e p => some (.prog (s.ea e).addr, .data ps (s.movepAddr (ppAddr p)), (s.ea e).upd)
  | .movepPpP ps .read e p => some (.data ps (s.movepAddr (ppAddr p)), .prog (s.ea e).addr, (s.ea e).upd)
  | .movepQqP .write e ps q => some (.prog (s.ea e).addr, .data ps (s.movepAddr (qqAddr q)), (s.ea e).upd)
  | .movepQqP .read e ps q => some (.data ps (s.movepAddr (qqAddr q)), .prog (s.ea e).addr, (s.ea e).upd)
  | _ => none

/-- `t` has the memory and the memory-mapped registers of `s` after the stores `l`, in order. -/
def Stored (s t : State) (l : List (Space × Word × Word)) : Prop :=
  t.mem = (s.applyMems l).mem ∧ t.port = (s.applyMems l).port ∧ t.dma = (s.applyMems l).dma ∧
  t.irq = (s.applyMems l).irq ∧ t.once = (s.applyMems l).once

/-- The S term of a read of a full accumulator (40_alu_common R207). -/
def readTermS (a : AccWord) : Scaling → Bool
  | .none => a.getLsbD 46 != a.getLsbD 45
  | .down => a.getLsbD 47 != a.getLsbD 46
  | .up => a.getLsbD 45 != a.getLsbD 44
  | .reserved => false

/-- The number `q` does not fit into `n` bits: a read of that width is limited (40_alu_common R215). -/
def limits (n : Nat) (q : Int) : Bool := decide (q < -(2 ^ (n - 1)) ∨ 2 ^ (n - 1) ≤ q)

/-- S and L once the full accumulators `l` have been read by a move (40_alu_common R207, R208, R215, R233). -/
def ReadFlags (s t : State) (l : List Acc) : Prop :=
  s.scaling ≠ .reserved →
    t.srBit 7 = (s.srBit 7 || l.any fun d => readTermS (s.acc d) s.scaling) ∧
    t.srBit 6 = (s.srBit 6 || l.any fun d =>
      if s.sa then limits 16 (scaled s.scaling (s.accSrc d) 16) else limits 24 (scaled s.scaling (s.acc d).toInt 24))

/-- The full accumulator that a register of a move is, if it is one. -/
def fullAcc : AluReg → List Acc
  | .a => [.a]
  | .b => [.b]
  | _ => []

/-- The full accumulators that a long move reads (46_move R429). -/
def fullAccs : LongReg → List Acc
  | .a => [.a]
  | .b => [.b]
  | .ab => [.a, .b]
  | .ba => [.b, .a]
  | _ => []

/-- A move of two words has ended: the stores `l` made, the address register updated by `u`, S and L by the accumulators
`accs` read. -/
def PairMoved (s t : State) (u : Option (Fin 8 × Word)) (accs : List Acc) (l : List (Space × Word × Word)) : Prop :=
  Stored s t l ∧ t.agu = (s.applyUpd u).agu ∧ ReadFlags s t accs

/-- The destinations of a long load with the words `h` from X and `l` from Y, and what they hold then (46_move R429;
40_alu_common R231). -/
def longLanded (sa : Bool) (r : LongReg) (h l : Word) : List (AluReg × AccWord) :=
  let acc (w : Word) : AccWord := (taken sa w ++ 0#24 : BitVec 48).signExtend 56
  let wide : AccWord := (taken sa h ++ taken sa l : BitVec 48).signExtend 56
  let hi : AccWord := (taken sa h).setWidth 56
  let lo : AccWord := (taken sa l).setWidth 56
  match r with
  | .a10 => [(.a1, hi), (.a0, lo)]
  | .b10 => [(.b1, hi), (.b0, lo)]
  | .x => [(.x1, hi), (.x0, lo)]
  | .y => [(.y1, hi), (.y0, lo)]
  | .a => [(.a, wide)]
  | .b => [(.b, wide)]
  | .ab => [(.a, acc h), (.b, acc l)]
  | .ba => [(.b, acc h), (.a, acc l)]

/-- `w` is what an input register that holds `v` puts on the bus: in Sixteen-bit Arithmetic mode its sixteen MSBs, with zeros above
them unless the instruction before wrote the register, `fresh` (40_alu_common R231; U37). -/
def InputOnBus (s : State) (fresh : Bool) (v w : Word) : Prop :=
  if s.sa then w.extractLsb' 0 16 = v.extractLsb' 8 16 ∧ (fresh = false → w.extractLsb' 16 8 = 0) else w = v

/-- The two words of a long source (46_move R429; 40_alu_common R214, R215, R231, R233). -/
def longWords (s : State) (r : LongReg) : Word × Word :=
  let word (d : Acc) : Word :=
    if s.sa then (limitedTo 16 (scaled s.scaling (s.accSrc d) 16)).signExtend 24
    else limitedTo 24 (scaled s.scaling (s.acc d).toInt 24)
  let wide (d : Acc) : Word × Word :=
    if s.sa then
      let l : BitVec 32 := limitedTo 32 (scaled s.scaling (s.accSrc d) 0)
      ((l.extractLsb' 16 16).signExtend 24, (l.extractLsb' 0 16).setWidth 24)
    else
      let l : Long := limitedTo 48 (scaled s.scaling (s.acc d).toInt 0)
      (l.extractLsb' 24 24, l.extractLsb' 0 24)
  let part (w : Word) : Word := if s.sa then (w.extractLsb' 8 16).setWidth 24 else w
  match r with
  | .a10 => (part (s.alu.a.extractLsb' 24 24), part (s.alu.a.extractLsb' 0 24))
  | .b10 => (part (s.alu.b.extractLsb' 24 24), part (s.alu.b.extractLsb' 0 24))
  | .x => ((s.rdAlu .x1).w, (s.rdAlu .x0).w)
  | .y => ((s.rdAlu .y1).w, (s.rdAlu .y0).w)
  | .a => wide .a
  | .b => wide .b
  | .ab => (word .a, word .b)
  | .ba => (word .b, word .a)

/-! ## Addresses -/

/-- `v` is what address arithmetic makes of Rn by Rn's own modifier Mn and the offset `d`, subtracted if `minus`; where it
defines no result, any value, in Sixteen-bit Compatibility mode one of sixteen bits (20_memory R121, R131; U12, U13). -/
def Stepped (s : State) (n : Fin 8) (d : Word) (minus : Bool) (v : Word) : Prop :=
  match aguStep s.sc s.agu.m[n] s.agu.r[n] d minus with
  | some a => v = a
  | none => s.sc = true → v.toNat < 2 ^ 16

/-- The address `v` is Rn; with non-zero MSBs in Sixteen-bit Compatibility mode, any address (20_memory R116, R131; U12). -/
def Pointed (s : State) (n : Fin 8) (v : Word) : Prop := (s.sc = true → s.agu.r[n].toNat < 2 ^ 16) → v = s.agu.r[n]

/-- The address is Rn, whose new content is the step by `d`. -/
def PostStepped (s : State) (n : Fin 8) (d : Word) (minus : Bool) (o : EaOut) : Prop :=
  Pointed s n o.addr ∧ ∃ v, o.upd = some (n, v) ∧ Stepped s n d minus v

/-- Address and new Rn of each mode, each by its own register's Nn and Mn (20_memory R116). -/
def EaMeets (s : State) (o : EaOut) : Ea → Prop
  | .postDecN n => PostStepped s n s.agu.n[n] true o
  | .postIncN n => PostStepped s n s.agu.n[n] false o
  | .postDec n => PostStepped s n 1 true o
  | .postInc n => PostStepped s n 1 false o
  | .noUpd n => Pointed s n o.addr ∧ o.upd = none
  | .indexN n => Stepped s n s.agu.n[n] false o.addr ∧ o.upd = none
  | .preDec n => Stepped s n 1 true o.addr ∧ o.upd = some (n, o.addr)
  | .abs a => o = ⟨a, none⟩
  | .imm _ => o.upd = none

/-- The same of one address of an X:Y: move (46_move R430). -/
def XYMeets (s : State) (n : Fin 8) (o : EaOut) : XYMode → Prop
  | .noUpd => Pointed s n o.addr ∧ o.upd = none
  | .postIncN => PostStepped s n s.agu.n[n] false o
  | .postDec => PostStepped s n 1 true o
  | .postInc => PostStepped s n 1 false o

/-- The new Rn of each mode of an update alone (46_move R424, R437). -/
def UpdMeets (s : State) (n : Fin 8) (v : Word) : UpdMode → Prop
  | .postDecN => Stepped s n s.agu.n[n] true v
  | .postIncN => Stepped s n s.agu.n[n] false v
  | .postDec => Stepped s n 1 true v
  | .postInc => Stepped s n 1 false v

/-- Address and new Rn of each mode when every modifier is $FFFF (20_memory R116, R122). -/
def linearEa (s : State) : Ea → Word × Option (Fin 8 × Word)
  | .postDecN n => (s.agu.r[n], some (n, s.agu.r[n] - s.agu.n[n]))
  | .postIncN n => (s.agu.r[n], some (n, s.agu.r[n] + s.agu.n[n]))
  | .postDec n => (s.agu.r[n], some (n, s.agu.r[n] - 1))
  | .postInc n => (s.agu.r[n], some (n, s.agu.r[n] + 1))
  | .noUpd n => (s.agu.r[n], none)
  | .indexN n => (s.agu.r[n] + s.agu.n[n], none)
  | .preDec n => (s.agu.r[n] - 1, some (n, s.agu.r[n] - 1))
  | .abs a => (a, none)
  | .imm _ => (0, none)

/-! ## Bit instructions -/

/-- What a bit instruction does with its bit: change it, only test it, or jump to or call a target when it has a value. -/
inductive BitEffect
  | change (f : Bool → Bool)
  | test
  | jump (want : Bool) (target : Word)
  | call (want : Bool) (target : Word)

/-- A bit instruction: the number of the bit, the operand, the effect. -/
structure BitUse where
  n : BitVec 5
  opd : BitOpd
  eff : BitEffect

/-- Every bit instruction (44_bit_manipulation R391 to R394; 47_program_control R473, R474, R476, R478, R485, R488, R489,
R491). -/
def bitUse (s : State) : Instr → Option BitUse
  | .bchgEa n sp e => some ⟨n, .mem sp e, .change (fun b => !b)⟩
  | .bchgAa n sp a => some ⟨n, .io sp (a.setWidth 24), .change (fun b => !b)⟩
  | .bchgPp n sp a => some ⟨n, .io sp (ppAddr a), .change (fun b => !b)⟩
  | .bchgQq n sp a => some ⟨n, .io sp (qqAddr a), .change (fun b => !b)⟩
  | .bchgReg n r => some ⟨n, .reg r, .change (fun b => !b)⟩
  | .bclrEa n sp e => some ⟨n, .mem sp e, .change (fun _ => false)⟩
  | .bclrAa n sp a => some ⟨n, .io sp (a.setWidth 24), .change (fun _ => false)⟩
  | .bclrPp n sp a => some ⟨n, .io sp (ppAddr a), .change (fun _ => false)⟩
  | .bclrQq n sp a => some ⟨n, .io sp (qqAddr a), .change (fun _ => false)⟩
  | .bclrReg n r => some ⟨n, .reg r, .change (fun _ => false)⟩
  | .bsetEa n sp e => some ⟨n, .mem sp e, .change (fun _ => true)⟩
  | .bsetAa n sp a => some ⟨n, .io sp (a.setWidth 24), .change (fun _ => true)⟩
  | .bsetPp n sp a => some ⟨n, .io sp (ppAddr a), .change (fun _ => true)⟩
  | .bsetQq n sp a => some ⟨n, .io sp (qqAddr a), .change (fun _ => true)⟩
  | .bsetReg n r => some ⟨n, .reg r, .change (fun _ => true)⟩
  | .btstEa n sp e => some ⟨n, .mem sp e, .test⟩
  | .btstAa n sp a => some ⟨n, .io sp (a.setWidth 24), .test⟩
  | .btstPp n sp a => some ⟨n, .io sp (ppAddr a), .test⟩
  | .btstQq n sp a => some ⟨n, .io sp (qqAddr a), .test⟩
  | .btstReg n r => some ⟨n, .reg r, .test⟩
  | .jclrEa n sp e w => some ⟨n, .mem sp e, .jump false w⟩
  | .jclrAa n sp a w => some ⟨n, .io sp (a.setWidth 24), .jump false w⟩
  | .jclrPp n sp a w => some ⟨n, .io sp (ppAddr a), .jump false w⟩
  | .jclrQq n sp a w => some ⟨n, .io sp (qqAddr a), .jump false w⟩
  | .jclrReg n r w => some ⟨n, .reg r, .jump false w⟩
  | .jsetEa n sp e w => some ⟨n, .mem sp e, .jump true w⟩
  | .jsetAa n sp a w => some ⟨n, .io sp (a.setWidth 24), .jump true w⟩
  | .jsetPp n sp a w => some ⟨n, .io sp (ppAddr a), .jump true w⟩
  | .jsetQq n sp a w => some ⟨n, .io sp (qqAddr a), .jump true w⟩
  | .jsetReg n r w => some ⟨n, .reg r, .jump true w⟩
  | .brclrEa n sp e w => some ⟨n, .mem sp e, .jump false (s.pcu.pc + w)⟩
  | .brclrAa n sp a w => some ⟨n, .io sp (a.setWidth 24), .jump false (s.pcu.pc + w)⟩
  | .brclrPp n sp a w => some ⟨n, .io sp (ppAddr a), .jump false (s.pcu.pc + w)⟩
  | .brclrQq n sp a w => some ⟨n, .io sp (qqAddr a), .jump false (s.pcu.pc + w)⟩
  | .brclrReg n r w => some ⟨n, .reg r, .jump false (s.pcu.pc + w)⟩
  | .brsetEa n sp e w => some ⟨n, .mem sp e, .jump true (s.pcu.pc + w)⟩
  | .brsetAa n sp a w => some ⟨n, .io sp (a.setWidth 24), .jump true (s.pcu.pc + w)⟩
  | .brsetPp n sp a w => some ⟨n, .io sp (ppAddr a), .jump true (s.pcu.pc + w)⟩
  | .brsetQq n sp a w => some ⟨n, .io sp (qqAddr a), .jump true (s.pcu.pc + w)⟩
  | .brsetReg n r w => some ⟨n, .reg r, .jump true (s.pcu.pc + w)⟩
  | .jsclrEa n sp e w => some ⟨n, .mem sp e, .call false w⟩
  | .jsclrAa n sp a w => some ⟨n, .io sp (a.setWidth 24), .call false w⟩
  | .jsclrPp n sp a w => some ⟨n, .io sp (ppAddr a), .call false w⟩
  | .jsclrQq n sp a w => some ⟨n, .io sp (qqAddr a), .call false w⟩
  | .jsclrReg n r w => some ⟨n, .reg r, .call false w⟩
  | .jssetEa n sp e w => some ⟨n, .mem sp e, .call true w⟩
  | .jssetAa n sp a w => some ⟨n, .io sp (a.setWidth 24), .call true w⟩
  | .jssetPp n sp a w => some ⟨n, .io sp (ppAddr a), .call true w⟩
  | .jssetQq n sp a w => some ⟨n, .io sp (qqAddr a), .call true w⟩
  | .jssetReg n r w => some ⟨n, .reg r, .call true w⟩
  | .bsclrEa n sp e w => some ⟨n, .mem sp e, .call false (s.pcu.pc + w)⟩
  | .bsclrAa n sp a w => some ⟨n, .io sp (a.setWidth 24), .call false (s.pcu.pc + w)⟩
  | .bsclrPp n sp a w => some ⟨n, .io sp (ppAddr a), .call false (s.pcu.pc + w)⟩
  | .bsclrQq n sp a w => some ⟨n, .io sp (qqAddr a), .call false (s.pcu.pc + w)⟩
  | .bsclrReg n r w => some ⟨n, .reg r, .call false (s.pcu.pc + w)⟩
  | .bssetEa n sp e w => some ⟨n, .mem sp e, .call true (s.pcu.pc + w)⟩
  | .bssetAa n sp a w => some ⟨n, .io sp (a.setWidth 24), .call true (s.pcu.pc + w)⟩
  | .bssetPp n sp a w => some ⟨n, .io sp (ppAddr a), .call true (s.pcu.pc + w)⟩
  | .bssetQq n sp a w => some ⟨n, .io sp (qqAddr a), .call true (s.pcu.pc + w)⟩
  | .bssetReg n r w => some ⟨n, .reg r, .call true (s.pcu.pc + w)⟩
  | _ => none

/-- The bit number exists: 0 to 23, or to 15 in Sixteen-bit Arithmetic mode (44_bit_manipulation R390). -/
def BitUse.numbered (s : State) (u : BitUse) : Prop := u.n.toNat < 24 ∧ (s.sa = true → u.n.toNat < 16)

/-- The operand word, and the state once it is read and its address register updated. -/
def bitSource (s : State) : BitOpd → Word × State
  | .mem sp e => (s.readData sp (s.ea e).addr, s.applyUpd (s.ea e).upd)
  | .io sp a => (s.readData sp a, s)
  | .reg r => s.rdReg r

/-- The operand replaced. `s` is the state before the instruction. -/
def bitDest (s t : State) (v : Word) : BitOpd → State
  | .mem sp e => t.writeData sp (s.ea e).addr v
  | .io sp a => t.writeData sp a v
  | .reg r => t.wrReg r v

/-- C replaced in SR. -/
def withCarry (t : State) (b : Bool) : State := t.withSr (if b then t.pcu.sr ||| 1 else t.pcu.sr &&& 0xFFFFFE#24)

/-! ## Changes of flow -/

/-- A jump or call: is it taken, its target, and the address register update that is made in any case. -/
structure Flow where
  taken : Bool
  target : Word
  upd : Option (Fin 8 × Word)

/-- The jumps and branches (47_program_control R471, R472, R484, R486; 20_memory R118). -/
def jumpOf (s : State) : Instr → Option Flow
  | .bccLong c d => some ⟨s.cond c, s.pcu.pc + d, none⟩
  | .bccShort c d => some ⟨s.cond c, s.pcu.pc + d.signExtend 24, none⟩
  | .bccReg c n => some ⟨s.cond c, s.pcu.pc + s.agu.r[n], none⟩
  | .braLong d => some ⟨true, s.pcu.pc + d, none⟩
  | .braShort d => some ⟨true, s.pcu.pc + d.signExtend 24, none⟩
  | .braReg n => some ⟨true, s.pcu.pc + s.agu.r[n], none⟩
  | .jccShort c a => some ⟨s.cond c, a.setWidth 24, none⟩
  | .jccEa c e => some ⟨s.cond c, (s.ea e).addr, (s.ea e).upd⟩
  | .jmpShort a => some ⟨true, a.setWidth 24, none⟩
  | .jmpEa e => some ⟨true, (s.ea e).addr, (s.ea e).upd⟩
  | _ => none

/-- The subroutine calls but those on a bit (47_program_control R475, R477, R487, R490; 20_memory R118). -/
def callOf (s : State) : Instr → Option Flow
  | .bsccLong c d => some ⟨s.cond c, s.pcu.pc + d, none⟩
  | .bsccShort c d => some ⟨s.cond c, s.pcu.pc + d.signExtend 24, none⟩
  | .bsccReg c n => some ⟨s.cond c, s.pcu.pc + s.agu.r[n], none⟩
  | .bsrLong d => some ⟨true, s.pcu.pc + d, none⟩
  | .bsrShort d => some ⟨true, s.pcu.pc + d.signExtend 24, none⟩
  | .bsrReg n => some ⟨true, s.pcu.pc + s.agu.r[n], none⟩
  | .jsccShort c a => some ⟨s.cond c, a.setWidth 24, none⟩
  | .jsccEa c e => some ⟨s.cond c, (s.ea e).addr, (s.ea e).upd⟩
  | .jsrShort a => some ⟨true, a.setWidth 24, none⟩
  | .jsrEa e => some ⟨true, (s.ea e).addr, (s.ea e).upd⟩
  | _ => none

/-- The conditions on the CCR bits (30_encoding R160). -/
def condTable (s : State) : Cond → Prop
  | .cc => s.srBit 0 = false
  | .ge => (s.srBit 3 ^^ s.srBit 1) = false
  | .ne => s.srBit 2 = false
  | .pl => s.srBit 3 = false
  | .nn => (s.srBit 2 || (!s.srBit 4 && !s.srBit 5)) = false
  | .ec => s.srBit 5 = false
  | .lc => s.srBit 6 = false
  | .gt => (s.srBit 2 || (s.srBit 3 ^^ s.srBit 1)) = false
  | .cs => s.srBit 0 = true
  | .lt => (s.srBit 3 ^^ s.srBit 1) = true
  | .eq => s.srBit 2 = true
  | .mi => s.srBit 3 = true
  | .nr => (s.srBit 2 || (!s.srBit 4 && !s.srBit 5)) = true
  | .es => s.srBit 5 = true
  | .ls => s.srBit 6 = true
  | .le => (s.srBit 2 || (s.srBit 3 ^^ s.srBit 1)) = true

/-! ## Loops -/

/-- The address of the operation word of an instruction of `len` words that the core executes: the PC, for one that the debug host
injects too (61_debug R641); in a vector, of which the words after it alone are left, counted from the vector's address (20_memory
R118; 60_exceptions R571). -/
def wordAddress (s : State) (len : Nat) : Word :=
  match s.ctl.ctx, s.ctl.phase with
  | none, _ => s.pcu.pc
  | some _, .debug => s.pcu.pc
  | some c, _ => c.base + BitVec.ofInt 24 (2 - c.words.length - len)

/-- The loop starts: LA, and the reading of the count from the state after the first push (45_loop R401, R403). -/
def loopStart (s : State) : Instr → Option (Word × (State → Word × State))
  | .doEa sp e la => some (la, fun t => (t.readData sp (t.ea e).addr, t.applyUpd (t.ea e).upd))
  | .doAa sp a la => some (la, fun t => (t.readData sp (a.setWidth 24), t))
  | .doNum n la => some (la, fun t => (n.setWidth 24, t))
  | .doReg r la => if r = .c .ssh then none else some (la, fun t => t.rdReg r)
  | .dorEa sp e d => some (wordAddress s 2 + d, fun t => (t.readData sp (t.ea e).addr, t.applyUpd (t.ea e).upd))
  | .dorAa sp a d => some (wordAddress s 2 + d, fun t => (t.readData sp (a.setWidth 24), t))
  | .dorNum n d => some (wordAddress s 2 + d, fun t => (n.setWidth 24, t))
  | .dorReg r d => if r = .c .ssh then none else some (wordAddress s 2 + d, fun t => t.rdReg r)
  | _ => none

/-- REP's count and the state once it is read (45_loop R408). -/
def repeatCount (s : State) : Instr → Option (Word × State)
  | .repEa sp e => some (s.readData sp (s.ea e).addr, s.applyUpd (s.ea e).upd)
  | .repAa sp a => some (s.readData sp (a.setWidth 24), s)
  | .repNum n => some (n.setWidth 24, s)
  | .repReg r => some (s.rdReg r)
  | _ => none

/-- No stack extension, no stack error on record, and `n` entries at least above the top (10_state R60, R61). -/
structure RoomUp (s : State) (n : Nat) : Prop where
  plain : s.sen = false
  low : s.pcu.sp.toNat + n < 16

/-- No stack extension, no stack error on record, and `n` entries at least on the stack. -/
structure RoomDown (s : State) (n : Nat) : Prop where
  plain : s.sen = false
  low : s.pcu.sp.toNat < 16
  high : n ≤ s.pcu.sp.toNat

/-! ## Requests and processing states -/

/-- `t` is `s` with interrupt source `k` pending (60_exceptions R562). -/
def Requested (s t : State) (k : Nat) : Prop :=
  t = { s with irq := { s.irq with pend := s.irq.pend ||| (1#128 <<< k) } }

/-- Is source `k` eligible under the mask `i` (60_exceptions R566)? -/
def eligible (s : State) (i : Nat) (k : Nat) : Prop := s.requesting k = true ∧ (s.levelOf k = 3 ∨ (i < 3 ∧ i ≤ s.levelOf k))

/-- Nothing from outside, no DMA transfer, no debug request, no access still to be made: the core takes the next step
(60_exceptions R560). -/
structure CoreNext (s : State) : Prop where
  env : s.env = []
  phase : s.ctl.phase = .normal
  debug : s.once.request = false
  dma : s.dmaActive = none
  late : s.ctl.late = []
  spilled : s.ctl.spilled = false

/-- The core is between two instructions of a program, with no interrupt to take, and the debug host has left no word on
the program data bus. -/
structure Ready (s : State) : Prop extends CoreNext s where
  rep : s.ctl.rep = none
  ctx : s.ctl.ctx = none
  irq : s.arbitrate = none
  pdb : s.ctl.pdb = []

/-- `u` has the registers, memories, cache, DMA and processing state of `t`. -/
structure SameMachine (t u : State) : Prop where
  alu : u.alu = t.alu
  agu : u.agu = t.agu
  pcu : u.pcu = t.pcu
  mem : u.mem = t.mem
  port : u.port = t.port
  dma : u.dma = t.dma
  cache : u.cache = t.cache
  phase : u.ctl.phase = t.ctl.phase
  ctx : u.ctl.ctx = t.ctl.ctx
  pend : u.irq.pend = t.irq.pend

/-- The words that would read as the instruction `i` at the PC have been fetched, `s1` is the state then (30_encoding R154). -/
def FetchesInstr (s : State) (i : Instr) (s1 : State) : Prop :=
  ∃ w s0, s.fetch s.pcu.pc = some (w, s0) ∧
    ((decode w 0 = .ok i ∧ i.len = 1 ∧ s1 = s0) ∨
     (i.len = 2 ∧ (∃ j, decode w 0 = .ok j ∧ j.len = 2) ∧ ∃ x, s0.fetch (s.pcu.pc + 1) = some (x, s1) ∧ decode w x = .ok i))

/-- The core is about to execute `i`, which neither its place nor the bus nor its result forbids: `s1` is the state after
its fetch, `t` what its meaning leaves, before the end of a loop that it ends. -/
structure Runs (s : State) (i : Instr) (s1 t : State) : Prop where
  ready : Ready s
  fetched : FetchesInstr s i s1
  settled : s.wordsTooSoon s.pcu.pc i.len = false
  placed : (s1.begin s.pcu.pc).hazard i = none
  result : exec i (s1.begin s.pcu.pc) = .next t
  bus : (s1.begin s.pcu.pc).busDenied i t ((s1.begin s.pcu.pc).loopTest i t) = false
  good : (s1.begin s.pcu.pc).badResult ((s1.begin s.pcu.pc).loopTest i t) = none

/-- The words of an interrupt's vector that come next read as the instruction `i`; `rest` is left (60_exceptions R571). -/
def VectorInstr (words : List Word) (i : Instr) (rest : List Word) : Prop :=
  ∃ w, (words = w :: rest ∧ decode w 0 = .ok i ∧ i.len = 1) ∨
    (i.len = 2 ∧ (∃ j, decode w 0 = .ok j ∧ j.len = 2) ∧ ∃ x, words = w :: x :: rest ∧ decode w x = .ok i)

/-- The word of REP's target is at hand: repeated from the instruction register, or fetched the first time (45_loop R408). -/
def FetchesTarget (s : State) (r : Rep) (w : Word) (s1 : State) : Prop :=
  (r.latch = some w ∧ s1 = s) ∨
    (r.latch = none ∧ s.ctl.pdb = [] ∧ s.tooSoon s.pcu.pc 0 = false ∧ s.fetch s.pcu.pc = some (w, s1))

/-- The address of the memory-mapped core register $FFFF80 + `k` (10_state R65; 62_devices R670). -/
def coreAddr (k : Nat) : Word := BitVec.ofNat 24 (0xFFFF80 + k)

/-- The instructions that may change the processing state. -/
def changesPhase : Instr → Bool
  | .stop => true
  | .wait => true
  | .debug => true
  | .debugcc _ => true
  | _ => false

/-- What hardware reset leaves in the registers whose value the spec gives (10_state R90; 48_cache R542; 60_exceptions R580;
61_debug R631 to R636; 62_devices R674, R682, R684, R685, R710, R721): of PCTL, bits 19 (COD), 17 (PSTP) and 14 to 12 (DF). -/
structure AfterReset (t : State) : Prop where
  sr : t.pcu.sr = 0xC00300#24
  omr : t.pcu.omr &&& 0xFFFFF0#24 = 0x000300#24
  vba : t.pcu.vba = 0
  sp : t.pcu.sp = 0
  sc : t.pcu.sc = 0
  m : ∀ n : Fin 8, t.agu.m[n] = 0xFFFFFF#24
  iprc : t.irq.iprc = 0
  iprp : t.irq.iprp = 0
  pend : t.irq.pend = 0
  tags : ∀ j : Fin 8, t.cache.tag[j] = 0x1FFFF#17 ∧ t.cache.valid[j] = 0
  unlocked : t.cache.lock = 0
  order : t.cache.lru = sectors
  channels : ∀ n : Fin 6, t.dma.ch[n].dcr = 0 ∧ t.dma.ch[n].trig = false
  done : t.dma.dtd = 0x3F#6
  pctl : t.port.pctl &&& 0x0A7000#24 = 0
  bcr : t.port.bcr = 0x1FFFFF#24
  aar : ∀ n : Fin 4, t.port.aar[n] = 0
  dram : t.port.dcr = 0
  debug : t.once.ocr = 0 ∧ t.once.oscr = 0 ∧ t.once.obcr = 0 ∧ t.once.ombc = 0 ∧ t.once.otc = 0

/-- The cache commands on a sector: the address, whether its sector is locked or unlocked, the address register update
(48_cache R553 to R555, R557). -/
def cacheLock (s : State) : Instr → Option (Word × Bool × Option (Fin 8 × Word))
  | .plock e => some ((s.ea e).addr, true, (s.ea e).upd)
  | .plockr d => some (wordAddress s 2 + d, true, none)
  | .punlock e => some ((s.ea e).addr, false, (s.ea e).upd)
  | .punlockr d => some (wordAddress s 2 + d, false, none)
  | _ => none

/-- The lock of sector `j` is `b`, the others are as before, and `j` is the most recently used. -/
def LockedAt (s t : State) (j : Fin 8) (b : Bool) : Prop :=
  (∀ k : Fin 8, t.cache.lock.getLsbD k.val = if k = j then b else s.cache.lock.getLsbD k.val) ∧
  t.cache.lru = j :: s.cache.lru.filter fun k => k != j

/-- Data memory answers at the address, whatever OMR[EBD] is: no I/O address, no ROM, no hole, not the disabled bus. -/
structure PlainData (s : State) (sp : Space) (a : Word) : Prop where
  io : s.internalIo sp a = false
  rom : s.inRom sp a = false
  void : s.inVoid sp a = false
  bus : (s.ebd && s.dataExternal sp a) = false

/-! ## The DMA -/

/-- The code of a space in DSS and DDS (62_devices R701). -/
def spaceCode : DmaSpace → BitVec 2
  | .data .x => 0b00#2
  | .data .y => 0b01#2
  | .program => 0b10#2

/-- Memory answers a DMA access at the address: no I/O address, no ROM, no hole, not the disabled bus. -/
def PlainPlace (s : State) : DmaSpace → Word → Prop
  | .data sp, a => PlainData s sp a
  | .program, a => s.pInModules a = false ∧ (s.ebd && s.pExternal a) = false

/-- The word that the memory of a space holds at an address, past the cache (48_cache R556). -/
def heldAt (s : State) : DmaSpace → Word → Word
  | .data sp, a => (s.dataMem sp).read (s.dataKey sp a)
  | .program, a => s.pRaw a

/-- Do two addresses name one word? -/
def samePlace (s : State) : DmaSpace × Word → DmaSpace × Word → Prop
  | (.data sp, a), (.data sq, b) => sp = sq ∧ s.dataKey sp a = s.dataKey sq b
  | (.program, a), (.program, b) => s.pPlace a = s.pPlace b
  | _, _ => False

/-- The address generation codes of source and destination, by Table 10-7, and the widths of the counter's fields L and M: with
D3D = 0 DAM[2:0], DAM[5:3] and counter mode B or A, with D3D = 1 DAM[5:3] and the three-dimensional code of the side that DAM[2]
names, and counter mode C, D or E (62_devices R704, R705). `none`: a reserved code. -/
def dmaCodes (dcr : Word) : Option (Nat × Nat × Nat × Nat) :=
  let hi := dcr.toNat / 2 ^ 7 % 8
  let lo := dcr.toNat / 2 ^ 4 % 8
  match dcr.getLsbD 10, lo / 4, lo % 4 with
  | false, _, _ => if 6 ≤ lo ∨ 6 ≤ hi then none else if lo < 4 ∨ hi < 4 then some (lo, hi, 12, 0) else some (lo, hi, 24, 0)
  | true, _, 3 => none
  | true, 0, c => some (6, hi, if c = 2 then 12 else 6, if c = 1 then 12 else 6)
  | true, _, c => some (hi, 7, if c = 2 then 12 else 6, if c = 1 then 12 else 6)

/-- The fields L, M and H of a counter (62_devices R706). -/
def dmaFields (l m : Nat) (w : Word) : Nat × Nat × Nat :=
  (w.toNat % 2 ^ l, w.toNat / 2 ^ l % 2 ^ m, w.toNat / 2 ^ l / 2 ^ m)

/-- The level of a word: which field steps down, 3 if all are zero; mode B has no level 2 (62_devices R706). -/
def levelAt (m : Nat) : Nat × Nat × Nat → Nat
  | (0, 0, 0) => 3
  | (0, 0, _) => if m = 0 then 1 else 2
  | (0, _, _) => 1
  | _ => 0

/-- The fields after a word: that one steps down, those below it are reloaded, at the end all are (62_devices R706). -/
def fieldsAfter (m : Nat) (f pre : Nat × Nat × Nat) : Nat × Nat × Nat :=
  match levelAt m f with
  | 0 => (f.1 - 1, f.2.1, f.2.2)
  | 1 => if m = 0 then (pre.1, 0, f.2.2 - 1) else (pre.1, f.2.1 - 1, f.2.2)
  | 2 => (pre.1, pre.2.1, f.2.2 - 1)
  | _ => pre

/-- The address after a word of level `level`: the offset replaces the +1 (62_devices R706). -/
def addressAfter (dor : Vector Word 4) (code level : Nat) (a : Word) : Word :=
  match code with
  | 4 => a
  | 5 => a + 1
  | 6 => a + (match level with | 0 => 1 | 1 => dor[0] | _ => dor[1])
  | 7 => a + (match level with | 0 => 1 | 1 => dor[2] | _ => dor[3])
  | k => a + (match level with | 0 => 1 | _ => dor[Fin.ofNat 4 k])

/-- Does the unit of transfer that a trigger asks for end with a word of level `level`: a word, a line, a block (62_devices
R702)? -/
def unitEnds (dtm level : Nat) : Bool := dtm == 1 || dtm == 5 || (dtm == 2 && level != 0) || level == 3

/-! ## The instruction cache -/

/-- Sector `j` answers for the address: the lowest whose tag is the address's (48_cache R541, R543). -/
def TagHit (c : ICache) (a : Word) (j : Fin 8) : Prop :=
  c.tag[j] = a.extractLsb' 7 17 ∧ ∀ k : Fin 8, k < j → c.tag[k] ≠ a.extractLsb' 7 17

/-- No sector has the tag of `a`, and sector `j` is the one to be replaced: not locked, and every sector used less recently is
locked (48_cache R543). -/
def Replaced (c : ICache) (a : Word) (j : Fin 8) : Prop :=
  (∀ k : Fin 8, c.tag[k] ≠ a.extractLsb' 7 17) ∧ c.lock.getLsbD j.val = false ∧
    ∃ before after : List (Fin 8), c.lru = before ++ j :: after ∧ ∀ k ∈ after, c.lock.getLsbD k.val = true

/-- The cache after sector `j`, whose valid bits were `old`, has been filled for a fetch of `a`: its tag, the valid bits and the
words of one request or, in a burst, of four less the two low bits of `a`, the sector most recently used, and all else as in
`c` (48_cache R543, Table 8-1). -/
structure Filled (s : State) (c : ICache) (old : BitVec 128) (a : Word) (j : Fin 8) (d : ICache) : Prop where
  tag : ∀ k : Fin 8, d.tag[k] = if k = j then a.extractLsb' 7 17 else c.tag[k]
  lock : d.lock = c.lock
  lru : d.lru = j :: c.lru.filter fun k => k != j
  valid : let n := if s.omrBit 10 then 4 - a.toNat % 4 else 1
    (∀ v < 128, d.valid[j].getLsbD v = (old.getLsbD v || decide (a.toNat % 128 ≤ v ∧ v < a.toNat % 128 + n))) ∧
    ∀ k : Fin 8, k ≠ j → d.valid[k] = c.valid[k]
  data : let n := if s.omrBit 10 then 4 - a.toNat % 4 else 1
    (∀ i < n, d.data.read (128 * j.val + a.toNat % 128 + i) = s.pRaw (a + BitVec.ofNat 24 i)) ∧
    ∀ k, (k < 128 * j.val + a.toNat % 128 ∨ 128 * j.val + a.toNat % 128 + n ≤ k) → d.data.read k = c.data.read k

end Sys2Proof.Machine
end

