-- ==== Sys2Proof/Certificates/Slice0/Obligations.lean ====
section
/-!
DEFINITION. The statements for the provers. A statement about a free value holds for every value of the counter that
draws it; a statement that rests on a choice of the model says so and names its log entry.
-/
open Sys2Proof Sys2Proof.Machine

/-! ## Encoding -/

/-- Words of the spec's worked examples (95_test_vectors), one or more of each family, decode to the instructions they
stand for; the second word, where the instruction has one, is its extension word. -/
def Obligations.Decode_words : Prop :=
  decode 0xF098D2#24 0 = .ok (.mac .y0x0 .a false (.xy .write .postInc .x0 .y0 .write 0 .postInc 0)) ∧
  decode 0x2000FA#24 0 = .ok (.mac .y1x1 .b false .none) ∧
  decode 0x202AD0#24 0 = .ok (.ifcc .eq (.mpy .y0x0 .a false)) ∧
  decode 0x018040#24 0 = .ok (.div .x0 .a) ∧
  decode 0x0C1E69#24 0 = .ok (.asrBy .x0 .a .b) ∧
  decode 0x037142#24 0 = .ok (.tccDR .gt (.reg .x0) .a 1 2) ∧
  decode 0x0C1B46#24 0 = .ok (.insertBy .b1 .x0 .a) ∧
  decode 0x0000B9#24 0 = .ok (.andi 0 .ccr) ∧
  decode 0x0A2040#24 0 = .ok (.bclrAa 0 .y 0x20#6) ∧
  decode 0x060380#24 0x000103#24 = .ok (.doNum 3 0x000103#24) ∧
  decode 0x0604A0#24 0 = .ok (.repNum 4) ∧
  decode 0x45F900#24 0 = .ok (.moveXEa (.alu .x1) .write (.preDec 1)) ∧
  decode 0x02F8D4#24 0 = .ok (.moveXShort 63 0 .write .x0) ∧
  decode 0x4A1000#24 0 = .ok (.moveLAa .ab .read 0x10#6) ∧
  decode 0x08F4BF#24 0x000123#24 = .ok (.movepPpEa .x .write .x (.imm 0x000123#24) 0x3F#6) ∧
  decode 0x044EB9#24 0 = .ok (.movecReg .read (.d (.alu .a)) .sr) ∧
  decode 0x044811#24 0 = .ok (.luaEa .postIncN 0 (.r 1)) ∧
  decode 0x0AE5AA#24 0 = .ok (.jccEa .eq (.noUpd 5)) ∧
  decode 0x05A410#24 0 = .ok (.bccShort .eq 0x010#9) ∧
  decode 0x0A6080#24 0x000200#24 = .ok (.jclrEa 0 .x (.noUpd 0) 0x000200#24) ∧
  decode 0x0BF081#24 0x010000#24 = .ok (.plock (.abs 0x010000#24)) ∧
  decode 0x00000C#24 0 = .ok .rts

/-- Decoding the words of a well-formed instruction gives the instruction back. -/
def Obligations.Decode_encode : Prop :=
  ∀ (i : Instr) (x : Word), i.wf = true → decode i.opWord (i.extWords.headD x) = .ok i

/-! ## Reset and the invariant -/

/-- The registers whose reset value the spec gives hold it after reset, and after a step in which RESET is asserted: SR,
OMR, VBA, SP, SC, the modifiers, IPRC, IPRP, the pending flags, the cache, the DMA channels and DTD, PCTL's PSTP, COD and
DF, BCR, the AARs, the DRAM control register, and the OnCE control registers. -/
def Obligations.Reset_values : Prop :=
  AfterReset State.reset ∧
  ∀ (s : State) (rest : List Event), s.env = .resetLow :: rest →
    ∃ t, step s = .next t ∧ AfterReset t ∧ t.ctl.phase = .reset ∧ t.env = rest

/-- The invariant holds after reset. -/
def Obligations.Inv_reset : Prop := Inv State.reset

/-- Every step from a state with the invariant leads to one with it: memories in canonical form, reserved bits of SR, OMR
and VBA zero, an LRU order that names each sector once, no edge latched for a pin that takes none. -/
def Obligations.Inv_step : Prop := ∀ (s t : State), Inv s → step s = .next t → Inv t

/-! ## Memory -/

/-- A data write is read back where memory takes it, and no other word of either space reads differently. A write changes
nothing where no memory answers: in a data ROM module or where a module is absent (log 7, DESIGN CHOICE), and in external
memory with OMR[EBD] = 1, where `step` stops at the instruction (log 20). External memory answers at every external address
(log 33, DESIGN CHOICE). Two addresses name one word only if they are one address, or differ in address lines that the device has
not (92_eei_decisions D23), or in Sixteen-bit Compatibility mode, both in internal RAM, in their eight MSBs (D8). -/
def Obligations.Data_memory : Prop :=
  (∀ (s : State) (sp : Space) (a w : Word), s.internalIo sp a = false →
    if s.inRom sp a = true ∨ s.inVoid sp a = true ∨ (s.ebd = true ∧ s.dataExternal sp a = true) then s.writeData sp a w = s
    else
      (s.writeData sp a w).readData sp a = w ∧
      ∀ (sq : Space) (b : Word), (sq ≠ sp ∨ s.dataKey sq b ≠ s.dataKey sp a) →
        (s.writeData sp a w).readData sq b = s.readData sq b) ∧
  ∀ (s : State) (sp : Space) (a b : Word), s.dataKey sp a = s.dataKey sp b ↔
    a = b ∨
    (Config.extAddrLines24 = false ∧ s.dataExternal sp a = true ∧ s.dataExternal sp b = true ∧ a.toNat % 2 ^ 18 = b.toNat % 2 ^ 18) ∨
    (s.sc = true ∧ s.inRam sp a = true ∧ s.inRam sp b = true ∧ a.toNat % 2 ^ 16 = b.toNat % 2 ^ 16)

/-- A write of program memory by a move is read back by a move and by an instruction fetch, cached or not, and no word of
another place reads differently. A write changes nothing in $FF0000 to $FFFFFF, which is ROM or absent (log 7, DESIGN
CHOICE), and in external memory with OMR[EBD] = 1, where `step` stops (log 20). External memory answers always (log 33). Two
addresses name one place only if they are one address, or differ in address lines that the device has not (92_eei_decisions D23),
or in Sixteen-bit Compatibility mode, both in internal RAM, in their eight MSBs (D8). -/
def Obligations.Program_memory : Prop :=
  (∀ (s : State) (a w : Word),
    if s.pInModules a = true ∨ (s.ebd = true ∧ s.pExternal a = true) then s.writeP a w = s
    else
      (s.writeP a w).readP a = w ∧ (∀ v t, (s.writeP a w).fetch a = some (v, t) → v = w) ∧
      ∀ b : Word, s.pPlace b ≠ s.pPlace a → (s.writeP a w).readP b = s.readP b) ∧
  ∀ (s : State) (a b : Word), s.pPlace a = s.pPlace b ↔
    a = b ∨
    (Config.extAddrLines24 = false ∧ s.pExternal a = true ∧ s.pExternal b = true ∧ a.toNat % 2 ^ 18 = b.toNat % 2 ^ 18) ∨
    (s.sc = true ∧ s.pInRam a = true ∧ s.pInRam b = true ∧ a.toNat % 2 ^ 16 = b.toNat % 2 ^ 16)

/-! ## Registers -/

/-- A move into a register of the five-bit code: its new content, and every register that has no bit in common with it,
the program control unit, memory and devices as before. -/
def Obligations.Data_register_write : Prop :=
  ∀ (s : State) (d : DReg) (w : Word),
    (s.wrD d w).content (.d d) = landed s d w ∧
    (∀ r, clash (.d d) r = false → (s.wrD d w).content r = s.content r) ∧
    (s.wrD d w).pcu = s.pcu ∧ (s.wrD d w).mem = s.mem ∧ (s.wrD d w).irq = s.irq ∧ (s.wrD d w).dma = s.dma

/-- A full accumulator read by a move: scaled, then limited to the range of the word or long word, which is reported; S by
two bits of the content. In Sixteen-bit Arithmetic mode the word and the long word have sixteen and thirty-two bits, the
high word extended with its sign, the low word with zeros. Its parts are read as they are, the extension with its sign. -/
def Obligations.Accumulator_read : Prop :=
  ∀ (s : State) (d : Acc),
    (s.scaling ≠ .reserved →
      (s.rdAcc d).sTerm = readTermS (s.acc d) s.scaling ∧ (s.rdAccLong d).1.sTerm = readTermS (s.acc d) s.scaling) ∧
    (s.sa = false → s.scaling ≠ .reserved →
      let q := scaled s.scaling (s.acc d).toInt 24
      let l := scaled s.scaling (s.acc d).toInt 0
      (s.rdAcc d).w = limitedTo 24 q ∧ (s.rdAcc d).lTerm = limits 24 q ∧
      (s.rdAccLong d).1.w ++ (s.rdAccLong d).2 = (limitedTo 48 l : Long) ∧ (s.rdAccLong d).1.lTerm = limits 48 l) ∧
    (s.sa = true → s.scaling ≠ .reserved →
      let q := scaled s.scaling (s.accSrc d) 16
      let l : BitVec 32 := limitedTo 32 (scaled s.scaling (s.accSrc d) 0)
      (s.rdAcc d).w = (limitedTo 16 q).signExtend 24 ∧ (s.rdAcc d).lTerm = limits 16 q ∧
      (s.rdAccLong d).1.w = (l.extractLsb' 16 16).signExtend 24 ∧ (s.rdAccLong d).2 = (l.extractLsb' 0 16).setWidth 24 ∧
      (s.rdAccLong d).1.lTerm = limits 32 (scaled s.scaling (s.accSrc d) 0)) ∧
    (∀ r : AluReg, ∀ v : Word,
      (r, v) ∈ [(.a1, s.alu.a.extractLsb' 24 24), (.b1, s.alu.b.extractLsb' 24 24), (.a0, s.alu.a.extractLsb' 0 24),
        (.b0, s.alu.b.extractLsb' 0 24)] → (s.rdAlu r).w = if s.sa then (v.extractLsb' 8 16).setWidth 24 else v) ∧
    (s.rdAlu .a2).w.toInt = (s.alu.a.extractLsb' 48 8).toInt ∧ (s.rdAlu .b2).w.toInt = (s.alu.b.extractLsb' 48 8).toInt

/-- A move into a control register: what it holds then, the PC as before, and, SC and SSH apart, every other register and
every location of the stack but the one written as before. -/
def Obligations.Control_register_write : Prop :=
  ∀ (s : State) (c : CReg) (w : Word),
    let t := s.wrC c w
    ControlLanded s t c w ∧ t.pcu.pc = s.pcu.pc ∧
    (c ≠ .sc → c ≠ .ssh → (∀ r, r ≠ .c c → t.content r = s.content r) ∧ t.mem.x = s.mem.x ∧ t.mem.y = s.mem.y ∧
      (c ≠ .sr → t.mem = s.mem ∧ t.cache = s.cache ∧ t.pcu.sr = s.pcu.sr) ∧ (c ≠ .ssl → StackSame s t) ∧
      (c = .ssl → t.pcu.ssh = s.pcu.ssh ∧ ∀ j : Fin 16, j ≠ slotAt s 0 → t.pcu.ssl[j] = s.pcu.ssl[j]))

/-- ANDI and ORI: the mask on one byte of SR or OMR, the other bytes as before, every reserved bit of the register zero. -/
def Obligations.Control_bytes : Prop :=
  ∀ (s : State) (i : BitVec 8),
    (∃ t u v w, exec (.andi i .mr) s = .next t ∧ exec (.andi i .ccr) s = .next u ∧ exec (.ori i .mr) s = .next v ∧
      exec (.ori i .ccr) s = .next w ∧
      (∀ x ∈ [t, u, v, w], x.srBit 18 = false ∧ x.srBit 12 = false) ∧
      ∀ k < 24, k ≠ 18 → k ≠ 12 →
        t.srBit k = (s.srBit k && (!decide (8 ≤ k ∧ k < 16) || i.getLsbD (k - 8))) ∧
        u.srBit k = (s.srBit k && (!decide (k < 8) || i.getLsbD k)) ∧
        v.srBit k = (s.srBit k || (decide (8 ≤ k ∧ k < 16) && i.getLsbD (k - 8))) ∧
        w.srBit k = (s.srBit k || i.getLsbD k)) ∧
    (∃ t u v w, exec (.andi i .eom) s = .next t ∧ exec (.andi i .com) s = .next u ∧ exec (.ori i .eom) s = .next v ∧
      exec (.ori i .com) s = .next w ∧
      (∀ x ∈ [t, u, v, w], ∀ k < 24, omrMask.getLsbD k = false → x.omrBit k = false) ∧
      ∀ k < 24, omrMask.getLsbD k = true →
        t.omrBit k = (s.omrBit k && (!decide (8 ≤ k ∧ k < 16) || i.getLsbD (k - 8))) ∧
        u.omrBit k = (s.omrBit k && (!decide (k < 8) || i.getLsbD k)) ∧
        v.omrBit k = (s.omrBit k || (decide (8 ≤ k ∧ k < 16) && i.getLsbD (k - 8))) ∧
        w.omrBit k = (s.omrBit k || i.getLsbD k))

/-! ## Addresses -/

/-- The address and the update of every addressing mode, of each address of an X:Y: move, of an update alone and of a
displacement: Rn, and the sum of Rn and the offset under Rn's own modifier, in either mode. That sum: under linear arithmetic of
24 bits, in Sixteen-bit Compatibility mode of sixteen; under reverse-carry arithmetic the bits of both numbers reversed; modulo
and wrap-around are in `Modulo_addresses` and `Wrap_around_addresses`. The reverse-carry clauses, in Sixteen-bit Compatibility mode
above all (24 bits reversed, the offset cut to sixteen, minus as a reversed subtraction), are the model's reading (log 25, DEDUCED),
as R121's own is, "[derived: from the reverse-carry adder description]"; the arithmetic of a displacement is R117's "[derived: from
Table 4-1]"; where the rules define no result it is free, by the model's choice (log 24, DESIGN CHOICE). -/
def Obligations.Effective_addresses : Prop :=
  (∀ (s : State),
    (∀ e : Ea, EaMeets s (s.ea e) e) ∧ (∀ site m n, XYMeets s n (s.eaXY site m n) m) ∧
    (∀ site u n, UpdMeets s n (s.updMode site u n) u) ∧ (∀ n d, Stepped s n d false (s.indexAddr n d))) ∧
  (∀ (s : State) (e : Ea), s.sc = false → (∀ n : Fin 8, s.agu.m[n].extractLsb' 0 16 = 0xFFFF#16) →
    (s.ea e).addr = (linearEa s e).1 ∧ (s.ea e).upd = (linearEa s e).2) ∧
  (∀ (sc : Bool) (m r d : Word), m.extractLsb' 0 16 = 0#16 → (sc = true → r.toNat < 2 ^ 16) →
    let o : Word := if sc then d &&& 0x00FFFF#24 else d
    (aguStep sc m r d false).map BitVec.reverse = some (r.reverse + o.reverse) ∧
    (aguStep sc m r d true).map BitVec.reverse = some (r.reverse - o.reverse)) ∧
  (∀ (m r d : Word) (minus : Bool), m.extractLsb' 0 16 = 0xFFFF#16 → r.toNat < 2 ^ 16 →
    aguStep true m r d minus = some (BitVec.ofInt 24 ((if minus then (r.toNat : Int) - d.toNat else r.toNat + d.toNat) % 2 ^ 16)))

/-- Modulo arithmetic: inside its buffer the pointer moves round modulo M, and by a multiple of the block to another buffer. In
Sixteen-bit Compatibility mode Rn is of sixteen bits, and bit 15 is the sign of the offset. -/
def Obligations.Modulo_addresses : Prop :=
  ∀ (sc : Bool) (m r d : Word) (minus : Bool) (k : Nat), (sc = true → r.toNat < 2 ^ 16) →
    let M := (m.extractLsb' 0 16).toNat + 1
    2 ≤ M → M ≤ 2 ^ 15 → M ≤ 2 ^ k → 2 ^ k < 2 * M →
    let off := r.toNat % 2 ^ k
    let o : Word := if sc then (d.extractLsb' 0 16).signExtend 24 else d
    let x := (if minus then -o else o).toInt
    off < M →
    (x.natAbs ≤ M → aguStep sc m r d minus = some (BitVec.ofInt 24 (r.toNat - off + (off + x) % M))) ∧
    (M < x.natAbs → x % 2 ^ k = 0 →
      aguStep sc m r d minus = some (BitVec.ofInt 24 ((r.toNat + x) % 2 ^ (if sc then 16 else 24))))

/-- Multiple wrap-around modulo M = 2^k: base is Rn with its k low bits cleared, and the new value is base plus the sum of
those bits and the signed offset modulo 2^k: the low k bits wrap any number of times, the upper ones never change. -/
def Obligations.Wrap_around_addresses : Prop :=
  ∀ (sc : Bool) (m r d : Word) (minus : Bool) (k : Nat), 1 ≤ k → k ≤ 14 →
    (m.extractLsb' 0 16).toNat = 2 ^ 15 + (2 ^ k - 1) → (sc = true → r.toNat < 2 ^ 16) →
    let off := r.toNat % 2 ^ k
    let x := (if minus then -d else d).toInt
    aguStep sc m r d minus = some (BitVec.ofInt 24 (r.toNat - off + (off + x) % 2 ^ k))

/-- The sixteen condition codes, the condition on the CCR that each stands for, and that a code 1xxx is the complement of
the code 0xxx. -/
def Obligations.Conditions : Prop :=
  (List.range 16).map (fun k => Cond.ofBits (BitVec.ofNat 4 k)) =
    [.cc, .ge, .ne, .pl, .nn, .ec, .lc, .gt, .cs, .lt, .eq, .mi, .nr, .es, .ls, .le] ∧
  ∀ (s : State), (∀ c : Cond, s.cond c = true ↔ condTable s c) ∧
    ∀ k : BitVec 3, s.cond (Cond.ofBits (1#1 ++ k)) = !s.cond (Cond.ofBits (0#1 ++ k))

/-! ## Data ALU instructions -/

/-- Every Data ALU instruction, transfer, move with a parallel-move field, LUA and LRA answers a next state, goes on in
sequence, and leaves alone all but its destinations, those of its move, and the CCR (41_arithmetic_a to 43_logical,
46_move). -/
def Obligations.Alu_frame : Prop :=
  ∀ (s : State) (i : Instr) (l : List Reg), dests i = some l →
    ∃ t, exec i s = .next t ∧ t.pcu.pc = s.nextPc i.len ∧
      Frame s t (l ++ movedRegs (s.plan (parallelPart i))) 0x0000FF#24 (moveStores (s.plan (parallelPart i)))

/-- The move of a Data ALU instruction does what the same move does alone: every register the operation does not write,
all of memory, the memory-mapped registers, and S (46_move R420: all sources are read before anything is written). -/
def Obligations.Alu_move : Prop :=
  ∀ (s : State) (i : Instr) (l : List Reg), dests i = some l →
    ∃ t u, exec i s = .next t ∧ exec (.moveParallel (parallelPart i)) s = .next u ∧
      (∀ r, (∀ q ∈ l, clash q r = false) → t.content r = u.content r) ∧
      t.mem = u.mem ∧ t.port = u.port ∧ t.dma = u.dma ∧ t.irq = u.irq ∧ t.once = u.once ∧ t.srBit 7 = u.srBit 7

/-- The sums and differences: result, V, C, E, U, N, Z, L and S. For ADDL and SUBL, V also tells that the shift changed
bit 55; that it does so beside the saturation in Arithmetic Saturation mode is the model's reading (log 29, DEDUCED). -/
def Obligations.Sums : Prop :=
  (∀ (s : State) (i : Instr) (T : Terms), sumTerms s i = some T →
     ∃ t, exec i s = .next t ∧ (Spares s i T.d → t.acc T.d = (stored s true T.exact).1) ∧
       t.srBit 1 = (stored s true T.exact).2 ∧ t.srBit 0 = T.carry s.sa ∧
       FlagsOf s t (stored s true T.exact).1 ∧ Stickies s t i (stored s true T.exact).2) ∧
  (∀ (s : State) (i : Instr) (T : Terms), doubledTerms s i = some T →
     ∃ t, exec i s = .next t ∧ (Spares s i T.d → t.acc T.d = (stored s true T.exact).1) ∧
       t.srBit 1 = ((stored s true T.exact).2 || signMoves (s.acc T.d)) ∧ t.srBit 0 = T.carry s.sa ∧
       FlagsOf s t (stored s true T.exact).1 ∧ Stickies s t i (t.srBit 1))

/-- CMP and CMPM: the flags of the exact difference; nothing is stored. CMPU: an unsigned comparison of bits 47:0, in
Sixteen-bit Arithmetic mode of the 32 bits below the extension; N, Z and C of the difference, V cleared, the other bits of SR as
before. -/
def Obligations.Comparisons : Prop :=
  (∀ (s : State) (i : Instr) (T : Terms), compareTerms s i = some T →
     ∃ t, exec i s = .next t ∧ t.srBit 1 = (stored s true T.exact).2 ∧ t.srBit 0 = T.carry s.sa ∧
       FlagsOf s t (wrapped s.sa T.exact) ∧ Stickies s t i (stored s true T.exact).2 ∧
       (Spares s i .a → t.acc .a = s.acc .a) ∧ (Spares s i .b → t.acc .b = s.acc .b)) ∧
  (∀ (s : State) (g : AccOrReg) (d : Acc),
     let a := unsignedLow s.sa (s.acc d)
     let b := match g with
       | .other => unsignedLow s.sa (s.acc (otherAcc d))
       | .reg r => if s.sa then ((s.xy r).extractLsb' 8 16).toNat * 2 ^ 16 else (s.xy r).toNat * 2 ^ 24
     ∃ t, exec (.cmpu g d) s = .next t ∧ t.srBit 0 = decide (a < b) ∧ t.srBit 1 = false ∧ t.srBit 2 = decide (a = b) ∧
       t.srBit 3 = decide (a < b) ∧ (∀ k, 4 ≤ k → t.srBit k = s.srBit k) ∧ t.acc .a = s.acc .a ∧ t.acc .b = s.acc .b)

/-- TST: the flags of the accumulator, V cleared. CLR: zero, with E, N, V cleared, U and Z set. ABS and NEG: result and
flags. C is as before in all of them. -/
def Obligations.Single_operand : Prop :=
  (∀ (s : State) (d : Acc) (m : PMove),
     ∃ t, exec (.tst d m) s = .next t ∧ FlagsOf s t (wrapped s.sa (s.accSrc d)) ∧ t.srBit 1 = false ∧
       t.srBit 0 = s.srBit 0 ∧ Stickies s t (.tst d m) false ∧
       (Spares s (.tst d m) .a → t.acc .a = s.acc .a) ∧ (Spares s (.tst d m) .b → t.acc .b = s.acc .b)) ∧
  (∀ (s : State) (d : Acc) (m : PMove),
     ∃ t, exec (.clr d m) s = .next t ∧ (Spares s (.clr d m) d → t.acc d = 0) ∧ t.srBit 5 = false ∧ t.srBit 4 = true ∧
       t.srBit 3 = false ∧ t.srBit 2 = true ∧ t.srBit 1 = false ∧ t.srBit 0 = s.srBit 0 ∧ Stickies s t (.clr d m) false) ∧
  (∀ (s : State) (d : Acc) (m : PMove),
     (∃ t, exec (.abs d m) s = .next t ∧ (Spares s (.abs d m) d → t.acc d = (stored s true |s.accSrc d|).1) ∧
       t.srBit 1 = (stored s true |s.accSrc d|).2 ∧ t.srBit 0 = s.srBit 0 ∧
       FlagsOf s t (stored s true |s.accSrc d|).1 ∧ Stickies s t (.abs d m) (stored s true |s.accSrc d|).2) ∧
     (∃ t, exec (.neg d m) s = .next t ∧ (Spares s (.neg d m) d → t.acc d = (stored s true (-s.accSrc d)).1) ∧
       t.srBit 1 = (stored s true (-s.accSrc d)).2 ∧ t.srBit 0 = s.srBit 0 ∧
       FlagsOf s t (stored s true (-s.accSrc d)).1 ∧ Stickies s t (.neg d m) (stored s true (-s.accSrc d)).2))

/-- TFR: the source unshifted and unlimited; bits 5 to 0 of the CCR as before. Tcc: with a true condition both transfers are
made from the state before, with a false one nothing changes but the PC; SR as before in any case. That a transfer in
Sixteen-bit Arithmetic mode leaves the unused bits zero is the model's reading (log 54, DEDUCED). -/
def Obligations.Transfers : Prop :=
  (∀ (s : State) (d : Acc) (m : PMove),
     (∃ t, exec (.tfrAcc d m) s = .next t ∧
       (Spares s (.tfrAcc d m) d → t.acc d = wrapped s.sa (s.accSrc (otherAcc d))) ∧
       (∀ k < 6, t.srBit k = s.srBit k) ∧ Stickies s t (.tfrAcc d m) false) ∧
     (∀ r, ∃ t, exec (.tfrReg r d m) s = .next t ∧
       (Spares s (.tfrReg r d m) d → t.acc d = wrapped s.sa (s.wordSrc r)) ∧
       (∀ k < 6, t.srBit k = s.srBit k) ∧ Stickies s t (.tfrReg r d m) false)) ∧
  (∀ (s : State) (c : Cond) (g : AccOrReg) (d : Acc) (a b : Fin 8),
     let v := match g with
       | .other => wrapped s.sa (s.accSrc (otherAcc d))
       | .reg r => wrapped s.sa (s.wordSrc r)
     if s.cond c then
       (∃ t, exec (.tccD c g d) s = .next t ∧ t.acc d = v ∧ t.agu = s.agu ∧ t.pcu.sr = s.pcu.sr) ∧
       (∃ t, exec (.tccDR c g d a b) s = .next t ∧ t.acc d = v ∧ t.agu.r[b] = s.agu.r[a] ∧ t.pcu.sr = s.pcu.sr) ∧
       (∃ t, exec (.tccR c a b) s = .next t ∧ t.agu.r[b] = s.agu.r[a] ∧ t.alu = s.alu ∧ t.pcu.sr = s.pcu.sr)
     else
       exec (.tccD c g d) s = .next (s.advance 1) ∧ exec (.tccDR c g d a b) s = .next (s.advance 1) ∧
       exec (.tccR c a b) s = .next (s.advance 1))

/-- MAX and MAXM: A to B when B is not above A, by value or by magnitude; C says that it was not. That the transfer is
saturated with V as before in Arithmetic Saturation mode (log 29, DEDUCED) and leaves the unused bits zero in Sixteen-bit
Arithmetic mode (log 54, DEDUCED) is the model's reading. -/
def Obligations.Maximum : Prop :=
  ∀ (s : State) (m : PMove),
    (∃ t, exec (.max m) s = .next t ∧ t.srBit 0 = decide (s.accSrc .a < s.accSrc .b) ∧
      (∀ k, 1 ≤ k → k < 6 → t.srBit k = s.srBit k) ∧
      (Spares s (.max m) .b → t.acc .b =
        if s.accSrc .b ≤ s.accSrc .a then (clipped s false (wrapped s.sa (s.accSrc .a)) false).1 else s.acc .b)) ∧
    (∃ t, exec (.maxm m) s = .next t ∧ t.srBit 0 = decide (|s.accSrc .a| < |s.accSrc .b|) ∧
      (∀ k, 1 ≤ k → k < 6 → t.srBit k = s.srBit k) ∧
      (Spares s (.maxm m) .b → t.acc .b =
        if |s.accSrc .b| ≤ |s.accSrc .a| then (clipped s false (wrapped s.sa (s.accSrc .a)) false).1 else s.acc .b))

/-- The multiplications and multiply-accumulates that do not round, outside and in Double-Precision Multiply mode; C as
before. That Double-Precision Multiply mode changes no product while SR[SA] = 1 is the model's reading of a combination that the
spec does not support (log 17, DEDUCED; 40_alu_common R232). -/
def Obligations.Products : Prop :=
  (∀ (s : State) (i : Instr) (d : Acc) (sm : Bool) (x : Int), productTerms s i = some (d, sm, x) →
     ∃ t, exec i s = .next t ∧ (Spares s i d → t.acc d = (stored s sm x).1) ∧ t.srBit 1 = (stored s sm x).2 ∧
       t.srBit 0 = s.srBit 0 ∧ FlagsOf s t (stored s sm x).1 ∧ Stickies s t i (stored s sm x).2) ∧
  (∀ (s : State) (i : Instr) (d : Acc) (x : Int), doubleMode s = true → doubleModeTerms s i = some (d, x) →
     ∃ t, exec i s = .next t ∧ (Spares s i d → t.acc d = (stored s true x).1) ∧ t.srBit 1 = (stored s true x).2 ∧
       t.srBit 0 = s.srBit 0 ∧ FlagsOf s t (stored s true x).1 ∧ Stickies s t i (stored s true x).2)

/-- The rounding instructions under a scaling mode that is not reserved; C as before. -/
def Obligations.Rounded_results : Prop :=
  ∀ (s : State) (i : Instr) (d : Acc) (x : Int), roundTerms s i = some (d, x) → s.scaling ≠ .reserved →
    ∃ t, exec i s = .next t ∧ (Spares s i d → t.acc d = (roundedStored s x).1) ∧ t.srBit 1 = (roundedStored s x).2 ∧
      t.srBit 0 = s.srBit 0 ∧ FlagsOf s t (roundedStored s x).1 ∧ Stickies s t i (roundedStored s x).2

/-- ASL and ASR by one: C is the bit shifted out; V tells that the left shift changed bit 55; saturation never applies. By
a count, up to 55, or 40 in Sixteen-bit Arithmetic mode: C is the last bit shifted out, none for a zero count. -/
def Obligations.Arithmetic_shifts : Prop :=
  (∀ (s : State) (d : Acc) (m : PMove),
     (∃ t, exec (.asl d m) s = .next t ∧ (Spares s (.asl d m) d → t.acc d = wrapped s.sa (2 * s.accSrc d)) ∧
       t.srBit 0 = (s.acc d).getLsbD 55 ∧ t.srBit 1 = signMoves (s.acc d) ∧
       FlagsOf s t (wrapped s.sa (2 * s.accSrc d)) ∧ Stickies s t (.asl d m) (signMoves (s.acc d))) ∧
     (∃ t, exec (.asr d m) s = .next t ∧ (Spares s (.asr d m) d → t.acc d = wrapped s.sa (s.accSrc d / 2)) ∧
       t.srBit 0 = (s.acc d).getLsbD (if s.sa then 8 else 0) ∧ t.srBit 1 = false ∧
       FlagsOf s t (wrapped s.sa (s.accSrc d / 2)) ∧ Stickies s t (.asr d m) false)) ∧
  (∀ (s : State) (i : Instr) (left : Bool) (n : Nat) (src d : Acc), countedShift s i = some (left, n, src, d) →
     n ≤ (if s.sa then 40 else 55) →
     let x : Int := if left then s.accSrc src * 2 ^ n else s.accSrc src / 2 ^ n
     ∃ t, exec i s = .next t ∧ t.acc d = wrapped s.sa x ∧
       t.srBit 0 = (n != 0 && operandBit s.sa (s.acc src) (if left then (if s.sa then 40 - n else 56 - n) else n - 1)) ∧
       t.srBit 1 = (left && outOfRange s.sa x) ∧ FlagsOf s t (wrapped s.sa x) ∧
       t.srBit 6 = (s.srBit 6 || t.srBit 1) ∧ t.srBit 7 = s.srBit 7)

/-- NORMF by a count in its range: right for a count that is not negative, left else. NORM: the CCR before it decides
between a shift left with Rn less one, a shift right with Rn plus one, and neither; in 24-bit mode without Arithmetic Saturation
the shifts bit by bit. C as before. What Arithmetic Saturation mode makes of NORM's result and V is the model's reading (log 29,
DEDUCED), and that Sixteen-bit Arithmetic mode leaves the unused bits zero (log 54, DEDUCED). -/
def Obligations.Normalization : Prop :=
  (∀ (s : State) (c : ShiftSrc) (d : Acc), let k := (s.shiftSrc c).toInt
     (if s.sa then -39 ≤ k ∧ k ≤ 40 else -55 ≤ k ∧ k ≤ 56) →
     let x : Int := if 0 ≤ k then s.accSrc d / 2 ^ k.toNat else s.accSrc d * 2 ^ (-k).toNat
     ∃ t, exec (.normf c d) s = .next t ∧ t.acc d = wrapped s.sa x ∧ t.srBit 1 = outOfRange s.sa x ∧
       t.srBit 0 = s.srBit 0 ∧ FlagsOf s t (wrapped s.sa x) ∧ t.srBit 6 = (s.srBit 6 || t.srBit 1)) ∧
  (∀ (s : State) (n : Fin 8) (d : Acc),
     let f (x : Int) : AccWord × Bool := clipped s false (wrapped s.sa x) false
     ∃ t, exec (.norm n d) s = .next t ∧ t.srBit 0 = s.srBit 0 ∧ t.srBit 6 = (s.srBit 6 || t.srBit 1) ∧ t.srBit 7 = s.srBit 7 ∧
       if s.srBit 5 = false ∧ s.srBit 4 = true ∧ s.srBit 2 = false then
         t.acc d = (f (2 * s.accSrc d)).1 ∧ t.agu.r[n] = s.agu.r[n] - 1 ∧
           t.srBit 1 = (signMoves (s.acc d) || (f (2 * s.accSrc d)).2) ∧ FlagsOf s t (f (2 * s.accSrc d)).1
       else if s.srBit 5 = true then
         t.acc d = (f (s.accSrc d / 2)).1 ∧ t.agu.r[n] = s.agu.r[n] + 1 ∧ t.srBit 1 = (f (s.accSrc d / 2)).2 ∧
           FlagsOf s t (f (s.accSrc d / 2)).1
       else t.acc d = s.acc d ∧ t.agu.r[n] = s.agu.r[n] ∧ t.srBit 1 = false ∧ FlagsOf s t (wrapped s.sa (s.accSrc d))) ∧
  (∀ (s : State) (n : Fin 8) (d : Acc), s.sa = false → s.srBit 20 = false →
     ∃ t, exec (.norm n d) s = .next t ∧ t.srBit 0 = s.srBit 0 ∧ FlagsOf s t (t.acc d) ∧
       t.srBit 6 = (s.srBit 6 || t.srBit 1) ∧
       if s.srBit 5 = false ∧ s.srBit 4 = true ∧ s.srBit 2 = false then
         t.acc d = s.acc d <<< 1 ∧ t.agu.r[n] = s.agu.r[n] - 1 ∧ t.srBit 1 = signMoves (s.acc d)
       else if s.srBit 5 = true then
         t.acc d = (s.acc d).sshiftRight 1 ∧ t.agu.r[n] = s.agu.r[n] + 1 ∧ t.srBit 1 = false
       else t.acc d = s.acc d ∧ t.agu.r[n] = s.agu.r[n] ∧ t.srBit 1 = false)

/-- DIV: the accumulator doubled with C shifted in, plus or minus the divisor as the signs say; C is the complement of the sign of
the sum, V tells that the shift changed bit 55. In 24-bit mode without Arithmetic Saturation one step of the division, bit by bit.
What Arithmetic Saturation mode makes of the result and V, and that C comes from the sum before it, is the model's reading (log 29,
DEDUCED), and that Sixteen-bit Arithmetic mode leaves the unused bits zero (log 54, DEDUCED). -/
def Obligations.Division_step : Prop :=
  (∀ (s : State) (r : XYReg) (d : Acc),
    let twice := accInt s.sa (wrapped s.sa (2 * s.accSrc d + (if s.srBit 0 then 1 else 0)))
    let sum := wrapped s.sa (if (s.acc d).msb != (s.xy r).msb then twice + s.wordSrc r else twice - s.wordSrc r)
    let v := signMoves (s.acc d) || (clipped s false sum false).2
    ∃ t, exec (.div r d) s = .next t ∧ t.acc d = (clipped s false sum false).1 ∧ t.srBit 0 = !sum.msb ∧ t.srBit 1 = v ∧
      t.srBit 6 = (s.srBit 6 || v) ∧ (∀ k, 2 ≤ k → k ≠ 6 → t.srBit k = s.srBit k)) ∧
  ∀ (s : State) (r : XYReg) (d : Acc), s.sa = false → s.srBit 20 = false →
    let shifted : AccWord := (s.acc d <<< 1) ||| (BitVec.ofBool (s.srBit 0)).setWidth 56
    let divisor : AccWord := (s.xy r ++ 0#24 : BitVec 48).signExtend 56
    let result := if (s.acc d).msb != (s.xy r).msb then shifted + divisor else shifted - divisor
    ∃ t, exec (.div r d) s = .next t ∧ t.acc d = result ∧ t.srBit 0 = !result.msb ∧ t.srBit 1 = signMoves (s.acc d) ∧
      t.srBit 6 = (s.srBit 6 || signMoves (s.acc d)) ∧ (∀ k, 2 ≤ k → k ≠ 6 → t.srBit k = s.srBit k)

/-- AND, OR, EOR, NOT: the logical word bit by bit, the rest of the accumulator as before, or as the move leaves it where the
move writes other parts of the accumulator alone; C as before. -/
def Obligations.Logic : Prop :=
  ∀ (s : State) (i : Instr) (d : Acc) (f : Nat → Bool), logicTerms s i = some (d, f) →
    ∃ t, exec i s = .next t ∧ (Spares s i d → LogicWord s.sa (s.acc d) (t.acc d) f) ∧
      (SparesWord s i d → (∀ k, logicLow s.sa ≤ k → k < 48 → (t.acc d).getLsbD k = f k) ∧
        ∀ p ∈ (s.plan (parallelPart i)).regs, partOf d p.1 = true → t.content (.d p.1) = landed s p.1 p.2) ∧
      LogicFlags s t f ∧ t.srBit 0 = s.srBit 0 ∧ Stickies s t i false

/-- LSL, LSR, ROL, ROR by a count that does not exceed the width of the logical word. -/
def Obligations.Logical_shifts : Prop :=
  ∀ (s : State) (i : Instr) (T : ShiftTerms), shiftTerms s i = some T → T.count ≤ 48 - logicLow s.sa →
    ∃ t, exec i s = .next t ∧ (Spares s i T.d → LogicWord s.sa (s.acc T.d) (t.acc T.d) T.bits) ∧
      LogicFlags s t T.bits ∧ t.srBit 0 = T.carry ∧ Stickies s t i false

/-- CLB: nine minus the number of leading bits equal to the sign, zero for zero, in the high word; N, Z, V alone change. In
Sixteen-bit Arithmetic mode it counts in the 40-bit number, its result in bits 47:24 (92_eei_decisions D15; log 54, DEDUCED).
MERGE: the low half of the source beside the low half of the word; C, E and U as before. -/
def Obligations.Count_and_merge : Prop :=
  (∀ (s : State) (src d : Acc),
     let W := operandWidth s.sa
     let b (k : Nat) : Bool := operandBit s.sa (s.acc src) k
     ∃ t, exec (.clb src d) s = .next t ∧
       ((∀ k < W, b k = false) → t.acc d = 0) ∧
       (∀ c, 1 ≤ c → c ≤ W → (∀ k < W, W - c ≤ k → b k = (s.acc src).msb) → (c < W → b (W - 1 - c) ≠ (s.acc src).msb) →
         (∃ k < W, b k = true) →
         t.acc d = BitVec.ofInt 56 ((9 - c) * 2 ^ 24)) ∧
       t.srBit 3 = (t.acc d).getLsbD 47 ∧ t.srBit 2 = (t.acc d == 0) ∧ t.srBit 1 = false ∧
       (∀ k, (k = 0 ∨ 4 ≤ k) → t.srBit k = s.srBit k)) ∧
  (∀ (s : State) (c : ShiftSrc) (d : Acc),
     let f : Nat → Bool := fun k =>
       if s.sa then (if 40 ≤ k then (s.shiftSrc c).getLsbD (k - 32) else (s.acc d).getLsbD k)
       else (if 36 ≤ k then (s.shiftSrc c).getLsbD (k - 36) else (s.acc d).getLsbD k)
     ∃ t, exec (.merge c d) s = .next t ∧ LogicWord s.sa (s.acc d) (t.acc d) f ∧ LogicFlags s t f ∧
       t.srBit 0 = s.srBit 0 ∧ t.srBit 6 = s.srBit 6 ∧ t.srBit 7 = s.srBit 7)

/-- EXTRACT and EXTRACTU of a field inside the accumulator: the field right-aligned, with its sign or with zeros above. INSERT of
such a field: the bits outside it as before. V and C cleared. In Sixteen-bit Arithmetic mode the bits are those of the 40-bit
number, the offset of INSERT counts from 16 (92_eei_decisions D16), and the unused bits are zero (log 54, DEDUCED). -/
def Obligations.Bit_fields : Prop :=
  (∀ (s : State) (i : Instr) (signed : Bool) (ctl : Word) (src d : Acc), extraction s i = some (signed, ctl, src, d) →
     let off := (fieldAt s.sa ctl).1
     let w := (fieldAt s.sa ctl).2
     off + w ≤ operandWidth s.sa → (signed = true → 0 < w) →
     ∃ t, exec i s = .next t ∧ FlagsOf s t (t.acc d) ∧ t.srBit 1 = false ∧ t.srBit 0 = false ∧ t.srBit 6 = s.srBit 6 ∧
       t.srBit 7 = s.srBit 7 ∧
       (s.sa = true → t.acc d &&& 0x000000FF0000FF#56 = 0) ∧
       ∀ k < operandWidth s.sa, operandBit s.sa (t.acc d) k =
         if k < w then operandBit s.sa (s.acc src) (off + k) else signed && operandBit s.sa (s.acc src) (off + w - 1)) ∧
  (∀ (s : State) (i : Instr) (ctl src : Word) (d : Acc), insertion s i = some (ctl, src, d) →
     let bias := if s.sa then 16 else 0
     let off := (fieldAt s.sa ctl).1 - bias
     let w := (fieldAt s.sa ctl).2
     bias ≤ (fieldAt s.sa ctl).1 → w ≤ (if s.sa then 16 else 24) → off + w ≤ operandWidth s.sa →
     ∃ t, exec i s = .next t ∧ FlagsOf s t (t.acc d) ∧ t.srBit 1 = false ∧ t.srBit 0 = false ∧ t.srBit 6 = s.srBit 6 ∧
       t.srBit 7 = s.srBit 7 ∧
       (s.sa = true → t.acc d &&& 0x000000FF0000FF#56 = 0) ∧
       ∀ k < operandWidth s.sa, operandBit s.sa (t.acc d) k =
         if off ≤ k ∧ k < off + w then src.getLsbD (k - off + (if s.sa then 8 else 0)) else operandBit s.sa (s.acc d) k)

/-- IFcc and IFcc.U: with a true condition the Data ALU operation alone, IFcc leaving SR as before; else nothing but the
PC. -/
def Obligations.Conditional_operation : Prop :=
  ∀ (s : State) (c : Cond) (op : AluOp),
    if s.cond c then
      exec (.ifccU c op) s = exec (alone op) s ∧
      ∃ u, exec (alone op) s = .next u ∧ exec (.ifcc c op) s = .next (u.withSr s.pcu.sr)
    else exec (.ifccU c op) s = .next (s.advance 1) ∧ exec (.ifcc c op) s = .next (s.advance 1)

/-! ## Moves -/

/-- The moves between a register and memory: after the address update the register takes the word; or the register is read,
with what its reading does, the address updated, and the word stored. -/
def Obligations.Loads_and_stores : Prop :=
  ∀ (s : State) (i : Instr) (T : Transfer), transfer s i = some T →
    exec i s = .next (if T.load then ((s.applyUpd T.upd).wrReg T.reg (T.loc.value s)).advance i.len
      else (T.loc.put ((s.rdReg T.reg).2.applyUpd T.upd) (s.rdReg T.reg).1).advance i.len)

/-- Such a move leaves alone every register but its destination and its address register, every byte of memory but what
it stores to, and SR but L and S. A store to program memory leaves every other place and the cache's tags, locks and order as they
were. A move of SR, OMR, SC, SSH or SSL changes besides only what its rules name: SSH pushes or pulls, and with the stack extension
an entry moves to or from data memory at EP (92_eei_decisions D5; log 23, DEDUCED; EP on all 24 bits: log 56, DESIGN CHOICE); a load
of SR that clears CE empties the cache. That a load of OMR that sets EOV or EUN requests no Stack Error interrupt is the model's
choice (log 63, DESIGN CHOICE, unsafe). -/
def Obligations.Load_store_frame : Prop :=
  ∀ (s : State) (i : Instr) (T : Transfer), transfer s i = some T →
    ∃ t, exec i s = .next t ∧ t.pcu.pc = s.nextPc i.len ∧ TransferFrame s t T ∧
      (movesMore T.reg = false → (T.load = true ∨ ∀ a, T.loc ≠ .prog a) → Frame s t T.dests 0x0000C0#24 T.stores)

/-- The moves of two words at once: X:R and R:Y, L:, X:Y:. The registers loaded, the words stored, the address registers, S and
L, in 24-bit and in Sixteen-bit Arithmetic mode, and what an input register puts on the bus there. Of an X:Y: move with both
addresses in the I/O space, the Y one internal, the X half is made, and the Y half is not: its load gives a free word and its store
is dropped (46_move R432; log 34, DESIGN CHOICE). A long load of A or B in Sixteen-bit Arithmetic mode takes sixteen bits of each
bus by the model's reading (log 54, DEDUCED). -/
def Obligations.Pair_moves : Prop :=
  ∀ (s : State),
    (∀ p ∈ [(AluReg.x0, 0, s.alu.x0), (.y0, 1, s.alu.y0), (.x1, 2, s.alu.x1), (.y1, 3, s.alu.y1)],
      InputOnBus s (s.ctl.fresh.getLsbD p.2.1) p.2.2 (s.rdAlu p.1).w ∧ (s.rdAlu p.1).sTerm = false ∧ (s.rdAlu p.1).lTerm = false) ∧
    (∀ xs s2 d2 e, ∃ t, exec (.moveXR1 xs s2 d2 .write e) s = .next t ∧
      t.content (.d (.alu (xSideReg xs))) = landed s (.alu (xSideReg xs)) ((eaLoc s .x true e).value s) ∧
      t.content (.d (.alu (y01Reg d2))) = landed s (.alu (y01Reg d2)) (s.rdAcc s2).w ∧ PairMoved s t (s.ea e).upd [s2] []) ∧
    (∀ xs s2 d2 e, ∃ t, exec (.moveXR1 xs s2 d2 .read e) s = .next t ∧
      t.content (.d (.alu (y01Reg d2))) = landed s (.alu (y01Reg d2)) (s.rdAcc s2).w ∧
      PairMoved s t (s.ea e).upd (s2 :: fullAcc (xSideReg xs)) [(.x, (s.ea e).addr, (s.rdAlu (xSideReg xs)).w)]) ∧
    (∀ d e, ∃ t, exec (.moveXR2 d e) s = .next t ∧
      t.acc d = ((if s.sa then s.alu.x0 &&& 0xFFFF00#24 else s.alu.x0) ++ 0#24 : BitVec 48).signExtend 56 ∧
      PairMoved s t (s.ea e).upd [d] [(.x, (s.ea e).addr, (s.rdAcc d).w)]) ∧
    (∀ s1 d1 ys e, ∃ t, exec (.moveRY1 s1 d1 ys .write e) s = .next t ∧
      t.content (.d (.alu (ySideReg ys))) = landed s (.alu (ySideReg ys)) ((eaLoc s .y true e).value s) ∧
      t.content (.d (.alu (x01Reg d1))) = landed s (.alu (x01Reg d1)) (s.rdAcc s1).w ∧ PairMoved s t (s.ea e).upd [s1] []) ∧
    (∀ s1 d1 ys e, ∃ t, exec (.moveRY1 s1 d1 ys .read e) s = .next t ∧
      t.content (.d (.alu (x01Reg d1))) = landed s (.alu (x01Reg d1)) (s.rdAcc s1).w ∧
      PairMoved s t (s.ea e).upd (s1 :: fullAcc (ySideReg ys)) [(.y, (s.ea e).addr, (s.rdAlu (ySideReg ys)).w)]) ∧
    (∀ d e, ∃ t, exec (.moveRY2 d e) s = .next t ∧
      t.acc d = ((if s.sa then s.alu.y0 &&& 0xFFFF00#24 else s.alu.y0) ++ 0#24 : BitVec 48).signExtend 56 ∧
      PairMoved s t (s.ea e).upd [d] [(.y, (s.ea e).addr, (s.rdAcc d).w)]) ∧
    (∀ l e, ∃ t, exec (.moveLEa l .write e) s = .next t ∧ PairMoved s t (s.ea e).upd [] [] ∧
      ∀ p ∈ longLanded s.sa l (s.readData .x (s.ea e).addr) (s.readData .y (s.ea e).addr), t.content (.d (.alu p.1)) = p.2) ∧
    (∀ l a, ∃ t, exec (.moveLAa l .write a) s = .next t ∧ PairMoved s t none [] [] ∧
      ∀ p ∈ longLanded s.sa l (s.readData .x (a.setWidth 24)) (s.readData .y (a.setWidth 24)), t.content (.d (.alu p.1)) = p.2) ∧
    (s.scaling ≠ .reserved →
      (∀ l e, ∃ t, exec (.moveLEa l .read e) s = .next t ∧ PairMoved s t (s.ea e).upd (fullAccs l)
        [(.x, (s.ea e).addr, (longWords s l).1), (.y, (s.ea e).addr, (longWords s l).2)]) ∧
      (∀ l a, ∃ t, exec (.moveLAa l .read a) s = .next t ∧ PairMoved s t none (fullAccs l)
        [(.x, a.setWidth 24, (longWords s l).1), (.y, a.setWidth 24, (longWords s l).2)])) ∧
    (∀ yw ym xs ys xw yn xm xn,
      let ex := s.eaXY .updX xm xn
      let ey := s.eaXY .updY ym (yRegOf xn yn)
      let half := s.inIo ex.addr && s.inIo ey.addr && s.internalIo .y ey.addr
      ∃ t y, exec (.moveXY yw ym xs ys xw yn xm xn) s = .next t ∧
        t.agu = ((s.applyUpd ex.upd).applyUpd ey.upd).agu ∧
        ReadFlags s t ((if xw = .read then fullAcc (xSideReg xs) else []) ++
          (if yw = .read then fullAcc (ySideReg ys) else [])) ∧
        (half = false → y = s.readData .y ey.addr) ∧
        (bothLoad xs ys xw yw = none →
          (xw = .write → t.content (.d (.alu (xSideReg xs))) = landed s (.alu (xSideReg xs)) (s.readData .x ex.addr)) ∧
          (yw = .write → t.content (.d (.alu (ySideReg ys))) = landed s (.alu (ySideReg ys)) y)) ∧
        Stored s t ((if xw = .read then [(.x, ex.addr, (s.rdAlu (xSideReg xs)).w)] else []) ++
          (if yw = .read ∧ half = false then [(.y, ey.addr, (s.rdAlu (ySideReg ys)).w)] else [])))

/-- The moves between registers, of immediate data and of computed addresses. LRA counts from the address of its own operation
word, in a vector word too (46_move R438, 20_memory R118), and from the PC where the debug host injects it, also between two vector
words (61_debug R641; log 57, DESIGN CHOICE). -/
def Obligations.Register_moves : Prop :=
  ∀ (s : State),
    (∀ i d, ∃ w, exec (.moveImm i d) s = .next ((s.wrD d w).advance 1) ∧
      (landed s d w).toInt = match d with
        | .alu .a => (i.toInt * 2 ^ 40 : Int)
        | .alu .b => i.toInt * 2 ^ 40
        | .alu .x0 => i.toNat * 2 ^ 16
        | .alu .x1 => i.toNat * 2 ^ 16
        | .alu .y0 => i.toNat * 2 ^ 16
        | .alu .y1 => i.toNat * 2 ^ 16
        | .alu .a0 => if s.sa then i.toNat * 2 ^ 8 else i.toNat
        | .alu .b0 => if s.sa then i.toNat * 2 ^ 8 else i.toNat
        | .alu .a1 => if s.sa then i.toNat * 2 ^ 8 else i.toNat
        | .alu .b1 => if s.sa then i.toNat * 2 ^ 8 else i.toNat
        | _ => i.toNat) ∧
    (∀ r d, exec (.moveReg r d) s = .next (((s.rdReg (.d r)).2.wrD d (s.rdD r).w).advance 1)) ∧
    (∀ u n, exec (.moveUpd u n) s = .next ((s.setR n (s.updMode .updX u n)).advance 1)) ∧
    exec .moveNone s = .next (s.advance 1) ∧
    (∀ r c, exec (.movecReg .write r c) s = .next (((s.rdReg r).2.wrC c (s.rdReg r).1).advance 1)) ∧
    (∀ r c, exec (.movecReg .read r c) s = .next (((s.rdReg (.c c)).2.wrReg r (s.rdReg (.c c)).1).advance 1)) ∧
    (∀ i c, exec (.movecImm i c) s = .next ((s.wrC c (i.setWidth 24)).advance 1)) ∧
    (∀ u n d, exec (.luaEa u n d) s = .next ((s.wrD d (s.updMode .updX u n)).advance 1)) ∧
    (∀ a n d, exec (.luaDisp a n (.r d)) s = .next ((s.wrD (.r d) (s.upd .updX 0 n (a.signExtend 24) false)).advance 1)) ∧
    (∀ a n d, exec (.luaDisp a n (.n d)) s = .next ((s.wrD (.n d) (s.upd .updX 0 n (a.signExtend 24) false)).advance 1)) ∧
    (∀ n d, exec (.lraReg n d) s = .next ((s.wrD d (wordAddress s 1 + s.agu.r[n])).advance 1)) ∧
    (∀ d a, exec (.lraLong d a) s = .next ((s.wrD d (wordAddress s 2 + a)).advance 2))

/-- MOVEP between a peripheral and memory, and VSL: the word read before the address update, then stored. -/
def Obligations.Memory_moves : Prop :=
  (∀ (s : State) (i : Instr) (src dst : Loc) (u : Option (Fin 8 × Word)), blockMove s i = some (src, dst, u) →
    exec i s = .next ((dst.put (s.applyUpd u) (src.value s)).advance i.len)) ∧
  (∀ (s : State) (d : Acc) (b : Bool) (e : Ea), ∃ t, exec (.vsl d b e) s = .next t ∧ t.pcu.pc = s.nextPc (Instr.len (.vsl d b e)) ∧
    t.agu = (s.applyUpd (s.ea e).upd).agu ∧ t.alu = s.alu ∧ t.pcu.sr = s.pcu.sr ∧
    Stored s t [(.x, (s.ea e).addr, (s.acc d).extractLsb' 24 24),
      (.y, (s.ea e).addr, ((s.acc d).extractLsb' 0 24 <<< 1) + (if b then 1 else 0))])

/-! ## Bit instructions -/

/-- BCHG, BCLR, BSET: the one bit replaced, every other bit of the operand as before; C takes the old bit unless the operand
is SR. A full accumulator as the operand is read limited and written back with its extension: the model's choice (log 14,
DESIGN CHOICE). -/
def Obligations.Bit_changes : Prop :=
  ∀ (s : State) (i : Instr) (u : BitUse) (f : Bool → Bool), bitUse s i = some u → u.eff = .change f → u.numbered s →
    let w := (bitSource s u.opd).1
    ∃ v : Word, (∀ k < 24, v.getLsbD k = if k = u.n.toNat then f (w.getLsbD k) else w.getLsbD k) ∧
      exec i s = .next ((if u.opd = .reg (.c .sr) then bitDest s (bitSource s u.opd).2 v u.opd
        else withCarry (bitDest s (bitSource s u.opd).2 v u.opd) (w.getLsbD u.n.toNat)).advance i.len)

/-- BTST loads C; the bit jumps and bit calls jump if the bit has the value they want. The operand's address register is
updated and SSH pulled in any case. A call taken in a vector word of an interrupt makes the long entry: the frozen PC and SR are
pushed, LF, SA, S1 and S0 are cleared, I is raised above the level of the interrupt. -/
def Obligations.Bit_tests : Prop :=
  ∀ (s : State) (i : Instr) (u : BitUse), bitUse s i = some u → u.numbered s →
    let b := (bitSource s u.opd).1.getLsbD u.n.toNat
    let t := (bitSource s u.opd).2
    match u.eff with
    | .change _ => True
    | .test => exec i s = .next ((withCarry t b).advance i.len)
    | .jump want target => exec i s = .next (if b = want then (t.withCtx none).withPc target else t.advance 2)
    | .call want target =>
      (b ≠ want → exec i s = .next (t.advance 2)) ∧
      (b = want → s.ctl.ctx = none → exec i s = .next ((t.push (s.nextPc 2) t.pcu.sr).withPc target)) ∧
      (b = want → ∀ c, s.ctl.ctx = some c →
        ∃ (u : State) (v : Word), exec i s = .next u ∧ u = (((t.push s.pcu.pc t.pcu.sr).withSr v).withCtx none).withPc target ∧
          (∀ k < 24, k ≠ 8 → k ≠ 9 → v.getLsbD k = (k != 17 && k != 15 && k != 11 && k != 10 && t.srBit k)) ∧
          u.ipl.toNat = max s.ipl.toNat (min (c.level.toNat + 1) 3))

/-! ## Changes of flow -/

/-- The jumps and branches: taken, the PC is the target and an interrupt's context is over; else the next instruction. The
address register is updated in any case, nothing else changes. The PC-relative targets: the displacement, sign-extended, or
Rn, added modulo 2^24 to the address of the instruction. -/
def Obligations.Jumps : Prop :=
  (∀ (s : State) (i : Instr) (F : Flow), jumpOf s i = some F →
    exec i s = .next (if F.taken then ((s.applyUpd F.upd).withCtx none).withPc F.target else (s.applyUpd F.upd).advance i.len)) ∧
  ∀ (s : State) (d : Word) (e : BitVec 9) (n : Fin 8),
    (∃ t, exec (.braLong d) s = .next t ∧ t.pcu.pc.toNat = (s.pcu.pc.toNat + d.toNat) % 2 ^ 24) ∧
    (∃ t, exec (.braShort e) s = .next t ∧ (t.pcu.pc.toNat : Int) = (s.pcu.pc.toNat + e.toInt) % 2 ^ 24) ∧
    (∃ t, exec (.braReg n) s = .next t ∧ t.pcu.pc.toNat = (s.pcu.pc.toNat + s.agu.r[n].toNat) % 2 ^ 24 ∧ t.agu = s.agu)

/-- The subroutine calls. In a program: the return address and SR are pushed. In a vector word of an interrupt: the long
entry, which pushes the frozen PC and SR, clears LF, SA, S1 and S0, and raises I above the level of the interrupt. -/
def Obligations.Calls : Prop :=
  ∀ (s : State) (i : Instr) (F : Flow), callOf s i = some F →
    (F.taken = false → exec i s = .next ((s.applyUpd F.upd).advance i.len)) ∧
    (F.taken = true → s.ctl.ctx = none →
      exec i s = .next (((s.applyUpd F.upd).push (s.nextPc i.len) s.pcu.sr).withPc F.target)) ∧
    (F.taken = true → ∀ c, s.ctl.ctx = some c →
      ∃ (t : State) (v : Word),
        exec i s = .next t ∧ t = ((((s.applyUpd F.upd).push s.pcu.pc s.pcu.sr).withSr v).withCtx none).withPc F.target ∧
        (∀ k < 24, k ≠ 8 → k ≠ 9 →
          v.getLsbD k = (k != 17 && k != 15 && k != 11 && k != 10 && s.srBit k)) ∧
        t.ipl.toNat = max s.ipl.toNat (min (c.level.toNat + 1) 3))

/-- RTS takes the PC from the stack, RTI the PC and SR; both pull one entry and end an interrupt's context. So a subroutine call
followed by RTS, or by RTI, comes back to the instruction after the call with the stack pointer, the older stack entries and SR as
they were. -/
def Obligations.Call_and_return : Prop :=
  (∀ (s : State),
    exec .rts s = .next ((s.pop.withCtx none).withPc s.ssh) ∧
    ∃ t, exec .rti s = .next t ∧ t.pcu.pc = s.ssh ∧ t.pcu.sr = s.ssl &&& 0xFBEFFF#24 ∧ t.ctl.ctx = none ∧
      t.pcu.sp = s.pop.pcu.sp ∧ t.pcu.ssh = s.pop.pcu.ssh ∧ t.pcu.ssl = s.pop.pcu.ssl ∧ t.alu = s.alu ∧
      t.mem.x = s.pop.mem.x ∧ t.mem.y = s.pop.mem.y ∧ (s.ce = false → t.mem.p = s.pop.mem.p ∧ t.cache = s.cache)) ∧
  ∀ (s : State) (i : Instr) (F : Flow), callOf s i = some F → F.taken = true → s.frozen = false → RoomUp s 1 → SrOk s.pcu.sr →
    ∃ t u v, exec i s = .next t ∧ t.pcu.pc = F.target ∧ exec .rts t = .next u ∧ exec .rti t = .next v ∧
      u.pcu.pc = s.pcu.pc + BitVec.ofNat 24 i.len ∧ v.pcu.pc = u.pcu.pc ∧ u.pcu.sp = s.pcu.sp ∧ v.pcu.sp = s.pcu.sp ∧
      u.pcu.sr = s.pcu.sr ∧ v.pcu.sr = s.pcu.sr ∧ u.pcu.sc = s.pcu.sc ∧ u.irq = s.irq ∧
      ∀ j : Fin 16, j ≠ slotAt s 1 → u.pcu.ssh[j] = s.pcu.ssh[j] ∧ u.pcu.ssl[j] = s.pcu.ssl[j]

/-! ## The system stack -/

/-- A push and a pull without the stack extension: SP as a six-bit counter, in its low four bits once SE is set; a Stack
Error is requested when SE becomes set. -/
def Obligations.Push_and_pull : Prop :=
  ∀ (s : State) (h l : Word), s.sen = false →
    let old := s.pcu.sp.toNat % 64
    let up := if s.pcu.sp.getLsbD 4 then old / 16 * 16 + (old + 1) % 16 else (old + 1) % 64
    let down := if s.pcu.sp.getLsbD 4 then old / 16 * 16 + (old + 15) % 16 else (old + 63) % 64
    let t := s.push h l
    let u := s.pop
    t.pcu.sp.toNat = s.pcu.sp.toNat - old + up ∧ t.ssh = h ∧ t.ssl = l ∧ t.pcu.sc = s.pcu.sc + 1 ∧
    (∀ j : Fin 16, j.val ≠ up % 16 → t.pcu.ssh[j] = s.pcu.ssh[j] ∧ t.pcu.ssl[j] = s.pcu.ssl[j]) ∧
    (∀ k < 128, t.irq.pend.getLsbD k = (s.irq.pend.getLsbD k || (k == 1 && (!s.pcu.sp.getLsbD 4 && old % 16 == 15)))) ∧
    u.pcu.sp.toNat = s.pcu.sp.toNat - old + down ∧ u.pcu.ssh = s.pcu.ssh ∧ u.pcu.ssl = s.pcu.ssl ∧ u.pcu.sc = s.pcu.sc - 1 ∧
    (∀ k < 128, u.irq.pend.getLsbD k = (s.irq.pend.getLsbD k || (k == 1 && (!s.pcu.sp.getLsbD 4 && old % 16 == 0)))) ∧
    t.mem = s.mem ∧ u.mem = s.mem ∧ t.agu = s.agu ∧ u.agu = s.agu ∧ t.pcu.omr = s.pcu.omr ∧ u.pcu.omr = s.pcu.omr

/-- A push and a pull with the stack extension: the overflow and underflow bits and the Stack Error; a full stack moves its
oldest entry to data memory at EP, an empty one takes an entry back from below EP. How many entries move, in which order,
and that EP counts up, are the model's reading (92_eei_decisions D5; log 23, DEDUCED); that EP counts on all 24 bits in
Sixteen-bit Compatibility mode too is its choice (log 56, DESIGN CHOICE). -/
def Obligations.Stack_extension : Prop :=
  ∀ (s : State) (h l : Word), s.sen = true → s.pcu.sc.toNat ≤ 14 →
    let t := s.push h l
    let u := s.pop
    (t.ssh = h ∧ t.ssl = l ∧ t.pcu.sp = s.pcu.sp + 1 ∧ t.omrBit 18 = (s.omrBit 18 || s.pcu.sp == s.pcu.sz) ∧
      t.irq.pend.getLsbD 1 = (s.irq.pend.getLsbD 1 || (s.pcu.sp == s.pcu.sz && !s.omrBit 18)) ∧
      (s.pcu.sc.toNat < 14 → t.agu = s.agu ∧ t.mem = s.mem ∧ t.pcu.sc = s.pcu.sc + 1 ∧ t.omrBit 19 = s.omrBit 19) ∧
      (s.pcu.sc.toNat = 14 → t.agu.ep = s.agu.ep + 2 ∧ t.pcu.sc = s.pcu.sc ∧ t.omrBit 19 = true ∧
        t.mem = (s.applyMems [(s.xys, s.agu.ep, s.pcu.ssh[slotAt s (-13)]),
          (s.xys, s.agu.ep + 1, s.pcu.ssl[slotAt s (-13)])]).mem)) ∧
    (u.pcu.sp = s.pcu.sp - 1 ∧ u.omrBit 17 = (s.omrBit 17 || s.pcu.sp == 0) ∧ u.mem = s.mem ∧
      u.irq.pend.getLsbD 1 = (s.irq.pend.getLsbD 1 || (s.pcu.sp == 0 && !s.omrBit 17)) ∧
      (3 ≤ s.pcu.sc.toNat → u.agu = s.agu ∧ u.pcu.sc = s.pcu.sc - 1 ∧ u.pcu.ssh = s.pcu.ssh ∧ u.pcu.ssl = s.pcu.ssl) ∧
      (1 ≤ s.pcu.sc.toNat → s.pcu.sc.toNat ≤ 2 → s.pcu.sc.toNat < s.pcu.sp.toNat →
        u.agu.ep = s.agu.ep - 2 ∧ u.pcu.sc = s.pcu.sc ∧
        u.pcu.ssh[slotAt s (-s.pcu.sc.toNat)] = s.readData s.xys (s.agu.ep - 2) ∧
        u.pcu.ssl[slotAt s (-s.pcu.sc.toNat)] = s.readData s.xys (s.agu.ep - 1)))

/-! ## Hardware loops -/

/-- DO and DOR: LA and LC are pushed, LC takes the count, the address after the instruction and SR are pushed, LA takes the
end address, LF is set and FV cleared. A zero count, outside Sixteen-bit Compatibility mode, goes on after the loop; where the
stack has room without its extension, SP, SC, LA, LC and SR are as before but for the S and L that reading the count sets,
the address register of the count is updated, and memory and the older stack entries are as before. DO FOREVER and DOR
FOREVER do as DO with FV set and no count. That LA takes all 24 bits in Sixteen-bit Compatibility mode too is the model's reading
(log 55, DEDUCED; 45_loop R401 against R407). A DOR or DOR FOREVER in a vector word of an interrupt stacks the frozen PC as the
loop's first address while its LA counts from its own address, by the model's choice (log 66, DESIGN CHOICE; R403 against
60_exceptions R571); one that the debug host injects counts from the PC (log 57, DESIGN CHOICE). -/
def Obligations.Loop_start : Prop :=
  (∀ (s : State) (i : Instr) (la : Word) (src : State → Word × State), loopStart s i = some (la, src) →
    let p := s.push s.pcu.la s.pcu.lc
    let n := (src p).1
    let q := (src p).2.withLc n
    ((n ≠ 0 ∨ s.sc = true) →
      exec i s = .next ((((q.push (s.nextPc 2) q.pcu.sr).withLa la).withSr ((q.pcu.sr ||| 0x008000#24) &&& 0xFEFFFF#24)).withPc
        (s.nextPc 2))) ∧
    (n = 0 → s.sc = false → ∃ t, exec i s = .next t ∧ t.pcu.pc = la + 1 ∧
      (RoomUp s 2 →
        t.pcu.sp = s.pcu.sp ∧ t.pcu.sc = s.pcu.sc ∧ t.pcu.la = s.pcu.la ∧ t.pcu.lc = s.pcu.lc ∧
        t.pcu.sr = q.pcu.sr ∧ (∀ k, k ≠ 6 → k ≠ 7 → t.srBit k = s.srBit k) ∧ t.agu = q.agu ∧ t.alu = s.alu ∧
        t.mem = s.mem ∧ t.irq = s.irq ∧ t.port = s.port ∧ t.dma = s.dma ∧
        ∀ j : Fin 16, j ≠ slotAt s 1 → j ≠ slotAt s 2 → t.pcu.ssh[j] = s.pcu.ssh[j] ∧ t.pcu.ssl[j] = s.pcu.ssl[j]))) ∧
  (∀ (s : State) (i : Instr) (la : Word), i = .doForever la ∨ (∃ d, i = .dorForever d ∧ la = wordAddress s 2 + d) →
    let p := s.push s.pcu.la s.pcu.lc
    exec i s = .next ((((p.push (s.nextPc 2) s.pcu.sr).withLa la).withSr (s.pcu.sr ||| 0x018000#24)).withPc (s.nextPc 2)))

/-- The end of a loop: an instruction ends it only if LF is set before and after it (before it too, so that an instruction that
sets LF itself ends no loop, by the model's choice: log 61, DESIGN CHOICE) and its last word, executed in sequence, is at LA; an
instruction that leaves LF, LA and the flow alone does whenever that holds. There, with LC not one or FV set, LC counts down and
the loop starts again at SSH, which stays; with LC one, and by ENDDO and a true BRKcc, LF and FV come back from the stacked SR,
then LA and LC, two entries being pulled. -/
def Obligations.Loop_exit : Prop :=
  (∀ (b t : State) (i : Instr), b.loopEnds i t = true →
    b.lf = true ∧ t.lf = true ∧ b.frozen = false ∧ t.pcu.pc = b.pcu.pc + BitVec.ofNat 24 i.len ∧
      b.pcu.pc + BitVec.ofNat 24 i.len = t.pcu.la + 1) ∧
  (∀ (b t : State) (i : Instr) (l : List Reg), dests i = some l → b.frozen = false → b.ctl.rep = none → exec i b = .next t →
    (b.loopEnds i t = true ↔ b.lf = true ∧ b.pcu.pc + BitVec.ofNat 24 i.len = b.pcu.la + 1)) ∧
  (∀ (b t : State) (i : Instr) (F : Flow), jumpOf b i = some F ∨ callOf b i = some F → F.taken = true →
    exec i b = .next t → b.loopEnds i t = false) ∧
  (∀ (s : State), (s.fv = true ∨ s.lcIsOne = false) →
    s.endOfLoop.pcu = { s.pcu with pc := s.ssh, lc := if s.sc then (s.pcu.lc - 1) &&& 0x00FFFF#24 else s.pcu.lc - 1 } ∧
    s.endOfLoop.alu = s.alu ∧ s.endOfLoop.agu = s.agu ∧ s.endOfLoop.mem = s.mem) ∧
  (∀ (s : State), RoomDown s 2 →
    let left (t : State) (pc : Word) : Prop :=
      t.pcu.pc = pc ∧ t.pcu.sp = s.pcu.sp - 2 ∧ t.pcu.la = s.pcu.ssh[slotAt s (-1)] ∧ t.pcu.lc = s.pcu.ssl[slotAt s (-1)] ∧
      (∀ k < 24, t.srBit k = if k = 15 ∨ k = 16 then s.ssl.getLsbD k else s.srBit k) ∧
      t.alu = s.alu ∧ t.agu = s.agu ∧ t.mem = s.mem ∧ t.irq = s.irq ∧ t.pcu.ssh = s.pcu.ssh ∧ t.pcu.ssl = s.pcu.ssl
    (s.fv = false → s.lcIsOne = true → left s.endOfLoop (s.pcu.la + 1)) ∧
    (∃ t, exec .enddo s = .next t ∧ left t (s.nextPc 1)) ∧
    (∀ c, s.cond c = true → ∃ t, exec (.brkcc c) s = .next t ∧ left t (s.pcu.la + 1))) ∧
  (∀ (s : State) (c : Cond), s.cond c = false → exec (.brkcc c) s = .next (s.advance 1)) ∧
  (∀ (s : State), s.lcIsOne = true ↔ (if s.sc then s.pcu.lc.extractLsb' 0 16 = 1 else s.pcu.lc = 1))

/-- REP loads LC and has its target, fetched once, executed until LC is one, counting LC down before each further execution
and giving LC its old value back after the last; a zero count skips the target. After the last execution of a target fetched
from external memory, a word moved under a Data ALU interlock is free, everything else as the target leaves it; the PC is at the
next instruction, unless the target stands at the end of an active loop: there, after its last execution, the end-of-loop rule
applies. Where a datum is free, a target at an external address that the cache has answered counts as fetched from external memory
by the model's choice (log 5, DESIGN CHOICE). -/
def Obligations.Repeat : Prop :=
  (∀ (s : State) (i : Instr) (n : Word) (q : State), repeatCount s i = some (n, q) →
    ((n ≠ 0 ∨ s.sc = true) → ∃ t, exec i s = .next t ∧ t.ctl.rep = some ⟨s.pcu.lc, none⟩ ∧ t.pcu.lc = n ∧
      t.pcu.pc = s.nextPc 1 ∧ t.alu = q.alu ∧ t.agu = q.agu ∧ t.mem = q.mem ∧ t.pcu.sr = q.pcu.sr ∧ t.pcu.sp = q.pcu.sp) ∧
    (n = 0 → s.sc = false → exec i s = .next (q.advance 2))) ∧
  (∀ (s s1 : State) (r : Rep) (w : Word) (i : Instr) (t : State), CoreNext s → s.ctl.rep = some r →
    FetchesTarget s r w s1 → decode w 0 = .ok i → repeatableInstr i = true →
    let b := (s1.begin s.pcu.pc).withRep none
    let v := b.corruptLast i t
    let x := if v.lcIsOne then v.withLc r.temp
      else ((v.withLc (if v.sc then (v.pcu.lc - 1) &&& 0x00FFFF#24 else v.pcu.lc - 1)).withPc s.pcu.pc).withRep (some ⟨r.temp, some w⟩)
    let y := if b.loopEnds i x then x.endOfLoop else x
    b.hazard i = none → exec i b = .next t → b.busDenied i x y = false → b.badResult y = none →
    (s.pExternal s.pcu.pc = false ∨ b.lcIsOne = false ∨ b.corrupted i = none → v = t) ∧ v.pcu.pc = b.nextPc 1 ∧
    (v.lcIsOne = false → b.loopEnds i x = false) ∧
    (∀ l, dests i = some l → v.lcIsOne = true →
      (b.loopEnds i x = true ↔ s.lf = true ∧ s.frozen = false ∧ s.pcu.pc = s.pcu.la)) ∧
    ∃ u, step s = .next u ∧ u.alu = y.alu ∧ u.agu = y.agu ∧ u.mem = y.mem ∧ u.pcu = y.pcu ∧ u.ctl.rep = y.ctl.rep)

/-! ## Requests, processing states, cache commands -/

/-- TRAP, TRAPcc, ILLEGAL and the two reserved patterns request their interrupt and go on in sequence; that a reserved
pattern is an illegal instruction of one word, without its move, is the model's choice (log 10, DESIGN CHOICE). NOP does
nothing more than that; RESET clears the interrupt priority registers and the maskable requests, and keeps those of level 3
(92_eei_decisions D41); STOP and WAIT enter their states, WAIT not while a channel has a word to move, a latched trigger included,
by the model's reading (log 49, DEDUCED); DEBUG enters Debug, or with OSCR[IME] requests an interrupt. -/
def Obligations.System_instructions : Prop :=
  ∀ (s : State),
    (∃ u, Requested s u 4 ∧ exec .trap s = .next (u.advance 1) ∧
      ∀ c, exec (.trapcc c) s = .next (if s.cond c then u.advance 1 else s.advance 1)) ∧
    (∃ u, Requested s u 2 ∧ exec .illegal s = .next (u.advance 1) ∧
      (∀ d m, exec (.reservedA d m) s = .next (u.advance (Instr.len (.reservedA d m)))) ∧
      (∀ m, exec (.reservedB m) s = .next (u.advance (Instr.len (.reservedB m))))) ∧
    exec .nop s = .next (s.advance 1) ∧
    (∃ t, exec .reset s = .next t ∧ t.pcu = (s.advance 1).pcu ∧ t.irq.iprc = 0 ∧ t.irq.iprp = 0 ∧
      (∀ k < 128, t.irq.pend.getLsbD k = (decide (k < 8) && s.irq.pend.getLsbD k)) ∧ t.alu = s.alu ∧ t.agu = s.agu ∧
      t.mem = s.mem ∧ t.port = s.port ∧ t.dma = s.dma ∧ t.cache = s.cache ∧ t.ctl = s.ctl) ∧
    (∃ t, exec .stop s = .next t ∧ t.ctl.phase = .stop ∧ t.pcu = (s.advance 1).pcu ∧ t.alu = s.alu ∧ t.agu = s.agu ∧
      t.mem = s.mem ∧ t.irq = s.irq ∧ ∀ n : Fin 6, t.dma.ch[n] = { s.dma.ch[n] with trig := false }) ∧
    (∃ t, exec .wait s = .next t ∧ t.ctl.phase = (if s.dmaActive.isSome then s.ctl.phase else .wait) ∧
      t.pcu = (s.advance 1).pcu ∧ t.alu = s.alu ∧ t.agu = s.agu ∧ t.mem = s.mem ∧ t.irq = s.irq ∧ t.dma = s.dma) ∧
    (s.ctl.phase = .normal →
      ∃ t, exec .debug s = .next t ∧ t.pcu = (s.advance 1).pcu ∧ t.alu = s.alu ∧ t.agu = s.agu ∧ t.mem = s.mem ∧
        (if s.once.oscr.getLsbD 1 then t.ctl.phase = .normal ∧ t.irq.pend.getLsbD 3 = true
         else t.ctl.phase = .debug ∧ t.irq = s.irq ∧ t.once.cause.getLsbD 0 = true) ∧
        ∀ c, exec (.debugcc c) s = .next (if s.cond c then t else s.advance 1))

/-- The cache commands. With the cache disabled each requests the Illegal Instruction interrupt and changes nothing else, its
address register neither, and takes both its words: the model's choice (log 45, DESIGN CHOICE). Enabled: PFLUSH, PFLUSHUN
and PFREE set the tags, valid bits, locks and LRU order they name; PLOCK, PLOCKR, PUNLOCK and PUNLOCKR write the lock of the
sector of the address, which is allocated if it is not in the cache and some sector is unlocked, and make it the most
recently used. PLOCKR and PUNLOCKR count from their own address, in a vector word too, and from the PC where the debug host injects
them (log 57, DESIGN CHOICE). -/
def Obligations.Cache_commands : Prop :=
  (∀ (s : State) (i : Instr), (cacheLock s i).isSome ∨ i = .pflush ∨ i = .pflushun ∨ i = .pfree → s.ce = false →
    ∃ u, Requested s u 2 ∧ exec i s = .next (u.advance i.len)) ∧
  (∀ (s : State), s.ce = true →
    (∃ t, exec .pflush s = .next t ∧ t = (s.withCache t.cache).advance 1 ∧ t.cache.lru = sectors ∧ t.cache.lock = 0 ∧
      t.cache.data = s.cache.data ∧ ∀ j : Fin 8, t.cache.tag[j] = 0x1FFFF#17 ∧ t.cache.valid[j] = 0) ∧
    (∃ t, exec .pflushun s = .next t ∧ t = (s.withCache t.cache).advance 1 ∧ t.cache.lru = sectors ∧
      t.cache.lock = s.cache.lock ∧ t.cache.data = s.cache.data ∧
      ∀ j : Fin 8, if s.cache.lock.getLsbD j.val then t.cache.tag[j] = s.cache.tag[j] ∧ t.cache.valid[j] = s.cache.valid[j]
        else t.cache.tag[j] = 0x1FFFF#17 ∧ t.cache.valid[j] = 0) ∧
    exec .pfree s = .next ((s.withCache { s.cache with lock := 0 }).advance 1)) ∧
  (∀ (s : State) (i : Instr) (a : Word) (b : Bool) (u : Option (Fin 8 × Word)), cacheLock s i = some (a, b, u) → s.ce = true →
    ∃ t, exec i s = .next t ∧ t = ((s.applyUpd u).withCache t.cache).advance i.len ∧ t.cache.data = s.cache.data ∧
      match s.cache.find a with
      | some j => t.cache.tag = s.cache.tag ∧ t.cache.valid = s.cache.valid ∧ LockedAt s t j b
      | none => match s.cache.victim with
        | none => t.cache = s.cache
        | some j => LockedAt s t j b ∧ t.cache.tag[j] = a.extractLsb' 7 17 ∧ t.cache.valid[j] = 0 ∧
          ∀ k : Fin 8, k ≠ j → t.cache.tag[k] = s.cache.tag[k] ∧ t.cache.valid[k] = s.cache.valid[k])

/-- An instruction fetch. Outside Cache mode, and of an internal address, it is memory's word, and no cache state changes. In Cache
mode, of an external address: a valid word of the sector that has its tag comes from the cache, whatever memory holds; else memory's
word is fetched, into that sector, or, where no sector has the tag, into the least recently used one that is not locked, which is
emptied first and takes the tag; with OMR[BE] the words up to the end of the group of four come with it. The sector becomes the most
recently used, the others keep their order. With all sectors locked nothing changes. A word that is not in the cache needs the bus,
which OMR[EBD] = 1 switches off (U14). -/
def Obligations.Cached_fetch : Prop :=
  (∀ (s : State) (a : Word), s.ce = false ∨ s.pExternal a = false →
    s.fetch a = if s.ebd && s.pExternal a then none else some (s.pRaw a, s)) ∧
  (∀ (s : State) (a : Word) (j : Fin 8), s.ce = true → s.pExternal a = true → TagHit s.cache a j →
    if s.cache.valid[j].getLsbD (a.toNat % 128) then
      s.fetch a = some (s.cache.data.read (128 * j.val + a.toNat % 128),
        s.withCache { s.cache with lru := j :: s.cache.lru.filter fun k => k != j })
    else if s.ebd then s.fetch a = none
    else ∃ t, s.fetch a = some (s.pRaw a, t) ∧ t = s.withCache t.cache ∧ Filled s s.cache s.cache.valid[j] a j t.cache) ∧
  (∀ (s : State) (a : Word) (j : Fin 8), s.ce = true → s.pExternal a = true → Replaced s.cache a j →
    if s.ebd then s.fetch a = none
    else ∃ t, s.fetch a = some (s.pRaw a, t) ∧ t = s.withCache t.cache ∧ Filled s s.cache 0 a j t.cache) ∧
  (∀ (s : State) (a : Word), s.ce = true → s.pExternal a = true → (∀ k : Fin 8, s.cache.tag[k] ≠ a.extractLsb' 7 17) →
    (∀ k : Fin 8, s.cache.lock.getLsbD k.val = true) → s.fetch a = if s.ebd then none else some (s.pRaw a, s))

/-! ## The machine -/

/-- A step of the core, with no interrupt to take, runs the instruction that its bytes at the PC decode to: what the
instruction leaves, then the end-of-loop rule where it applies. It stops where the instruction refuses, where its place, its
result or a word written too lately makes it UNDEFINED (U17, U18, U20, U44), and where a fetch or an access, the refills at the
end of a loop among them, needs the disabled bus (U14). That an undefined pattern, one word long, requests the Illegal
Instruction interrupt is the model's reading where only a field's value is reserved (log 9, DEDUCED). -/
def Obligations.Step_runs_the_instruction : Prop :=
  (∀ (s : State) (i : Instr) (s1 t : State), Runs s i s1 t →
    ∃ u, step s = .next u.tick ∧
      if (s1.begin s.pcu.pc).loopEnds i t then SameMachine t.endOfLoop u else SameMachine t u) ∧
  (∀ (s : State), Ready s →
    (∀ (i : Instr) (s1 : State), FetchesInstr s i s1 →
      let b := s1.begin s.pcu.pc
      if s.wordsTooSoon s.pcu.pc i.len then step s = .refused .executedTooSoon
      else match b.hazard i with
        | some r => step s = .refused r
        | none =>
          (∀ r, exec i b = .refused r → step s = .refused r) ∧
          (∀ t, exec i b = .next t → b.busDenied i t (b.loopTest i t) = true → step s = .fault .externalAccessWithBusDisabled) ∧
          (∀ t r, exec i b = .next t → b.busDenied i t (b.loopTest i t) = false → b.badResult (b.loopTest i t) = some r →
            step s = .refused r)) ∧
    (∀ (w : Word) (s1 : State) (e : DecodeError), s.fetch s.pcu.pc = some (w, s1) → decode w 0 = .error e → s.lf = false →
      s.tooSoon s.pcu.pc 0 = false →
      ∃ u, step s = .next u ∧ u.pcu.pc = s.pcu.pc + 1 ∧ u.irq.pend.getLsbD 2 = true ∧ u.alu = s.alu ∧ u.mem = s.mem) ∧
    (s.fetch s.pcu.pc = none → step s = .fault .fetchWithBusDisabled))

/-- Arbitration: of the sources that request and that the mask lets through, the one of the highest level, and among those
the one with the lowest vector address; none only if there is none. A DMA channel requests while its flag is set and both its enables
allow it, the level in IPRC and DIE in its DCR; that a flag latched before waits while DIE is 0 is the model's reading (log 67,
DEDUCED; 60_exceptions R564, R577). -/
def Obligations.Arbitration : Prop :=
  ∀ (s : State), (s.irq.window = 0 → s.arbitrate = s.arbitrateUnder s.ipl) ∧
    (∀ n : Fin 6, s.requesting (12 + n.val) =
      (s.irq.pend.getLsbD (12 + n.val) && s.levelField (12 + n.val) != 0 && s.dma.ch[n].dcr.getLsbD 22)) ∧
    ∀ i : BitVec 2, match s.arbitrateUnder i with
      | none => ∀ k < 128, ¬eligible s i.toNat k
      | some k => k < 128 ∧ eligible s i.toNat k ∧
        ∀ j < 128, eligible s i.toNat j → s.levelOf j < s.levelOf k ∨ (s.levelOf j = s.levelOf k ∧ k ≤ j)

/-- The pins: a falling edge of an enabled, edge-triggered IRQ pin, and of NMI, is latched as pending, no other edge is, and in the
Reset state none is, by the model's choice (log 19, DESIGN CHOICE); a
level-sensitive pin requests while it is low and enabled; a pin disabled or made level-sensitive by IPRC holds no latch. The bits
of IPRC that say so, 3i, 3i + 1 and 3i + 2 of pin i, are not given by the spec's sources (log 37, PRESUMED;
93_implementation_defined G7, U47). -/
def Obligations.Interrupt_pins : Prop :=
  (∀ (s : State) (rest : List Event) (high : Bool), ∀ q ∈ [(Pin.irqa, 0), (Pin.irqb, 1), (Pin.irqc, 2), (Pin.irqd, 3)],
    s.env = .pin q.1 high :: rest →
    let latch := s.irq.pins.getLsbD q.2 && !high && decide (s.ctl.phase ≠ .reset) && s.irq.iprc.getLsbD (3 * q.2 + 2) &&
      (s.irq.iprc.getLsbD (3 * q.2) || s.irq.iprc.getLsbD (3 * q.2 + 1))
    ∃ t, step s = .next t ∧ t.env = rest ∧ t.pcu = s.pcu ∧ t.alu = s.alu ∧ t.agu = s.agu ∧ t.mem = s.mem ∧
      (∀ j < 4, t.irq.pins.getLsbD j = if j = q.2 then high else s.irq.pins.getLsbD j) ∧
      ∀ k < 128, t.irq.pend.getLsbD k = (s.irq.pend.getLsbD k || (k == 8 + q.2 && latch))) ∧
  (∀ (s : State) (rest : List Event) (high : Bool), s.env = .pin .nmi high :: rest →
    ∃ t, step s = .next t ∧ t.irq.nmi = high ∧ t.pcu = s.pcu ∧
      ∀ k < 128, t.irq.pend.getLsbD k =
        (s.irq.pend.getLsbD k || (k == 5 && s.irq.nmi && !high && decide (s.ctl.phase ≠ .reset)))) ∧
  (∀ (s : State) (i : Nat), i < 4 →
    let on := s.irq.iprc.getLsbD (3 * i) || s.irq.iprc.getLsbD (3 * i + 1)
    s.requesting (8 + i) =
      (on && if s.irq.iprc.getLsbD (3 * i + 2) then s.irq.pend.getLsbD (8 + i) else !s.irq.pins.getLsbD i)) ∧
  (∀ (s : State) (w : Word),
    let t := s.writeData .x (coreAddr 0x7F) w
    t.irq.iprc = w ∧ ∀ k < 128, t.irq.pend.getLsbD k = (s.irq.pend.getLsbD k &&
      (decide (k < 8 ∨ 12 ≤ k) || (w.getLsbD (3 * (k - 8) + 2) && (w.getLsbD (3 * (k - 8)) || w.getLsbD (3 * (k - 8) + 1))))))

/-- An accepted interrupt of source k: both vector words are fetched, at VBA[23:8] : 2k and VBA[23:8] : 2k + 1, the PC, SR and
the stack stay, the flag of a source that is no peripheral's is cleared once both are fetched. While another master of the memory is
at work the second may be fetched in a step of its own, by the model's choice (log 18, DESIGN CHOICE). Then each vector instruction,
of one word or of both, runs with the PC frozen, unless it changes the flow or is a DOR, which a zero count takes past its loop. -/
def Obligations.Interrupts : Prop :=
  (∀ (s s1 s2 : State) (k : Nat) (w1 w2 : Word), CoreNext s → s.ctl.rep = none → s.ctl.ctx = none → s.arbitrate = some k →
    let v := s.pcu.vba.extractLsb' 8 16
    (s.withPdb []).fetch (v ++ BitVec.ofNat 8 (2 * k)) = some (w1, s1) →
    s1.fetch (v ++ BitVec.ofNat 8 (2 * k + 1)) = some (w2, s2) →
    ∃ t, step s = .next t ∧ t.pcu = s.pcu ∧ t.alu = s.alu ∧ t.agu = s.agu ∧ t.mem = s.mem ∧
      t.ctl.ctx = some ⟨BitVec.ofNat 7 k, BitVec.ofNat 2 (s.levelOf k), v ++ BitVec.ofNat 8 (2 * k), [w1, w2]⟩ ∧
      ∀ j < 128, t.irq.pend.getLsbD j = (s.irq.pend.getLsbD j && !(j == k && decide (k < 18)))) ∧
  (∀ (s s1 s2 : State) (k : Nat) (w1 w2 : Word), k < 128 →
    let a := s.pcu.vba.extractLsb' 8 16 ++ BitVec.ofNat 8 (2 * k)
    (s.withPdb []).fetch a = some (w1, s1) → s1.fetch (a + 1) = some (w2, s2) →
    ∃ (t : State) (words : List Word), accept k s = .next t ∧
      t.ctl.ctx = some ⟨BitVec.ofNat 7 k, BitVec.ofNat 2 (s.levelOf k), a, words⟩ ∧ t.pcu = s.pcu ∧
      (words = [w1, w2] ∧ t.ctl.late = s.ctl.late ∧
          (∀ j < 128, t.irq.pend.getLsbD j = (s.irq.pend.getLsbD j && !(j == k && decide (k < 18)))) ∨
        words = [w1] ∧ t.ctl.late = [.vector (a + 1)] ∧ t.irq = s.irq)) ∧
  (∀ (s s2 : State) (c : IntCtx) (a w : Word), s.env = [] → s.ctl.phase = .normal → s.dmaActive = none →
    s.ctl.late = [.vector a] → s.ctl.ctx = some c → (s.withLate []).fetch a = some (w, s2) →
    ∃ t, step s = .next t ∧ t.pcu = s.pcu ∧ t.alu = s.alu ∧ t.agu = s.agu ∧ t.mem = s.mem ∧ t.ctl.late = [] ∧
      t.ctl.ctx = some { c with words := c.words.take 1 ++ [w] } ∧
      ∀ j < 128, t.irq.pend.getLsbD j = (s.irq.pend.getLsbD j && !(j == c.src.toNat && decide (c.src.toNat < 18)))) ∧
  (∀ (s t : State) (c : IntCtx) (rest : List Word) (i : Instr), CoreNext s → s.ctl.rep = none →
    s.ctl.ctx = some c → VectorInstr c.words i rest → (kindOf i).inVector = true →
    let a := c.base + BitVec.ofInt 24 (2 - c.words.length)
    let b := (s.begin a).withCtx (some { c with words := rest })
    s.wordsTooSoon a i.len = false → b.hazard i = none → exec i b = .next t → b.busDenied i t t = false →
    b.badResult t = none →
    ∃ u, step s = .next u ∧ u.alu = t.alu ∧ u.agu = t.agu ∧ u.pcu = t.pcu ∧ u.mem = t.mem ∧
      (t.ctl.ctx ≠ none → kindOf i ≠ .loopStart true → u.pcu.pc = s.pcu.pc) ∧
      u.ctl.ctx = if t.ctl.ctx = none ∨ rest = [] then none else some { c with words := rest })

/-- With no event from outside (so without the DMA trigger that ends Wait, 60_exceptions R581), no debug request and DE high, the
Wait state ends when, and only when, an enabled and unmasked source requests, the Stop state when IRQA is low; the registers and
the PC stay as they are. A debug request, or DE low, ends both, in Debug mode, or with OSCR[IME] = 1 in the Normal state, the
Debug Request interrupt pending. Whatever ends Stop clears the maskable requests. That the request ends them with OSCR[IME] = 1
too, and what Stop clears at which exit, are the model's reading (logs 40 and 49, DEDUCED); that DE counts there by its level is
its choice (log 57, DESIGN CHOICE). A DMA request with DIE = 0 ends no Wait state (log 67, DEDUCED). -/
def Obligations.Wait_and_stop : Prop :=
  ∀ (s : State), s.env = [] →
    (s.once.request = false → s.irq.de = true →
      (s.ctl.phase = .wait →
        ∃ t, step s = .next t ∧ t.pcu = s.pcu ∧ t.alu = s.alu ∧ t.mem = s.mem ∧
          (t.ctl.phase = .wait ∧ (∀ k < 128, ¬eligible s s.ipl.toNat k) ∨
           t.ctl.phase = .normal ∧ ∃ k < 128, eligible s s.ipl.toNat k)) ∧
      (s.ctl.phase = .stop →
        ∃ t, step s = .next t ∧ t.pcu = s.pcu ∧ t.alu = s.alu ∧ t.mem = s.mem ∧
          t.ctl.phase = (if s.irq.pins.getLsbD 0 then .stop else .normal) ∧
          ∀ k < 128, t.irq.pend.getLsbD k = (s.irq.pend.getLsbD k && (decide (k < 8) || s.irq.pins.getLsbD 0)))) ∧
    (s.ctl.phase = .wait ∨ s.ctl.phase = .stop → s.once.request = true ∨ s.irq.de = false →
      ∃ t, step s = .next t ∧ t.pcu = s.pcu ∧ t.alu = s.alu ∧ t.mem = s.mem ∧
        (s.ctl.phase = .stop → ∀ k < 128, 8 ≤ k → t.irq.pend.getLsbD k = false) ∧
        if s.once.oscr.getLsbD 1 then t.ctl.phase = .normal ∧ t.irq.pend.getLsbD 3 = true else t.ctl.phase = .debug)

/-- One DMA word between X, Y and program memory, no access packed into bytes. Its read and its write are two steps, and while a
channel has a word to move a free bit says whether the next step is the DMA's or the core's: the model's choice (log 18, DESIGN
CHOICE). The read holds the word; the write stores it, in program memory past the cache, and steps both addresses: not at all, by
one, or, in two and three dimensions, by an offset where a line or a plane ends; the counter's lowest field that is not zero steps
down, and those below it are reloaded. A trigger is served at the end of its word, line or block. At its end the block sets DTD,
clears DE in the modes that do, fires the request of the channels that wait for it, and with DIE requests its interrupt; in the modes
that keep DE, DTD and the interrupt may fail to come. A reserved mode, address or space code is refused (U49). -/
def Obligations.Dma_word : Prop :=
  (∀ (s : State) (n : Fin 6) (ss ds : DmaSpace) (srcCode dstCode l m : Nat), s.env = [] → s.ctl.phase = .normal →
    s.once.request = false → s.dmaActive = some n →
    let c := s.dma.ch[n]
    let next (t : State) : Prop := dmaTransfer n s = .next t ∧
      step s = (if s.freeBit .dmaTurn 0 then .next t.tick
        else match coreOr coreTurn s with
          | .next u => .next u.tick
          | .fault f => .fault f
          | .refused r => .refused r)
    c.upset = false → c.stopping = false → (dcrDtm c.dcr).toNat < 6 → dmaCodes c.dcr = some (srcCode, dstCode, l, m) →
    c.dcr.extractLsb' 0 4 = spaceCode ds ++ spaceCode ss → (∀ j : Fin 4, s.port.aar[j] = 0) →
    let level := levelAt m (dmaFields l m c.dco)
    (s.dma.held = none → PlainPlace s ss c.dsr →
      next { s with dma := { s.dma with held := some (n, heldAt s ss c.dsr) } }) ∧
    (∀ v, s.dma.held = some (n, v) → PlainPlace s ds c.ddr →
      ∃ t, next t ∧ t.pcu = s.pcu ∧ t.alu = s.alu ∧ t.agu = s.agu ∧ t.cache = s.cache ∧ t.dma.held = none ∧
        heldAt t ds c.ddr = v ∧ (∀ sq b, ¬samePlace s (ds, c.ddr) (sq, b) → heldAt t sq b = heldAt s sq b) ∧
        t.dma.ch[n].dsr = addressAfter s.dma.dor srcCode level c.dsr ∧ t.dma.ch[n].ddr = addressAfter s.dma.dor dstCode level c.ddr ∧
        dmaFields l m t.dma.ch[n].dco = fieldsAfter m (dmaFields l m c.dco) (dmaFields l m c.preload) ∧
        t.dma.ch[n].trig = (c.trig && !unitEnds (dcrDtm c.dcr).toNat level) ∧
        t.dma.ch[n].busy = !unitEnds (dcrDtm c.dcr).toNat level ∧
        (∀ k : Fin 6, k ≠ n → t.dma.ch[k] = { s.dma.ch[k] with
          trig := s.dma.ch[k].trig || (level == 3 && dcrDe s.dma.ch[k].dcr && dcrDrs s.dma.ch[k].dcr == BitVec.ofNat 5 (4 + n.val)) }) ∧
        (level ≠ 3 → t.dma.dtd = s.dma.dtd ∧ t.irq = s.irq ∧ t.dma.ch[n].dcr = c.dcr) ∧
        (level = 3 → (dcrDtm c.dcr).toNat < 4 → t.dma.dtd.getLsbD n.val = true ∧ t.dma.ch[n].dcr = c.dcr &&& 0x7FFFFF#24 ∧
          (dcrDie c.dcr = true → t.irq.pend.getLsbD (12 + n.val) = true)) ∧
        (level = 3 → 4 ≤ (dcrDtm c.dcr).toNat → t.dma.ch[n].dcr = c.dcr ∧
          (t.dma.dtd.getLsbD n.val = true ∨ t.dma.dtd = s.dma.dtd) ∧
          ((dcrDie c.dcr = true ∧ t.irq.pend.getLsbD (12 + n.val) = true) ∨ t.irq = s.irq)))) ∧
  ∀ (s : State) (n : Fin 6), s.dma.ch[n].upset = false →
    (6 ≤ (dcrDtm s.dma.ch[n].dcr).toNat ∨ dmaCodes s.dma.ch[n].dcr = none ∨ s.dma.ch[n].dcr.extractLsb' 0 2 = 3#2 ∨
      s.dma.ch[n].dcr.extractLsb' 2 2 = 3#2) → dmaTransfer n s = .refused .reservedDmaCode

/-- The memory-mapped core registers as data: what each reads, with no read of a changed register outstanding, and what a
write of each changes. IPRC is in `Interrupt_pins`; the ID register and DSTR are read-only. That an earlier value may still be
read for some instructions after a write of DCRn, IDR, DSTR or the DRAM control register is a free choice (U45), and which bits
and how long is the model's reading (log 60, DEDUCED). The model's too are: BSTR clear at once after a
write (log 21, DESIGN CHOICE), DTD and the interrupt on clearing DE of an idle channel (log 46, DEDUCED), DACT open, and so not
stated, while a trigger is latched and its transfer not begun (log 46, DESIGN CHOICE), and the bit BLH that only some devices have in
BCR (log 7, DESIGN CHOICE). -/
def Obligations.Core_registers : Prop :=
  ∀ (s : State) (w : Word),
    let rd (k : Nat) : Word := s.readData .x (coreAddr k)
    let wr (k : Nat) : State := s.writeData .x (coreAddr k) w
    (s.ctl.echo = [] →
      rd 0x7F = s.irq.iprc ∧ rd 0x7E = s.irq.iprp ∧ rd 0x7D = s.port.pctl ∧ rd 0x7B = s.port.bcr ||| 0x200000#24 ∧
      rd 0x75 = Config.idr ∧ (Config.hasDramCtrl = true → rd 0x7A = s.port.dcr) ∧
      (∀ i : Fin 4, rd (0x79 - i.val) = s.port.aar[i] ∧ rd (0x73 - i.val) = s.dma.dor[i]) ∧
      (∀ n : Fin 6, rd (0x6F - 4 * n.val) = s.dma.ch[n].dsr ∧ rd (0x6E - 4 * n.val) = s.dma.ch[n].ddr ∧
        rd (0x6D - 4 * n.val) = s.dma.ch[n].dco ∧ rd (0x6C - 4 * n.val) = s.dma.ch[n].dcr) ∧
      (∀ k < 24, 12 ≤ k ∨ k = 6 ∨ k = 7 → (rd 0x74).getLsbD k = false) ∧ (rd 0x74).extractLsb' 0 6 = s.dma.dtd ∧
      (s.dmaInTransfer = true → (rd 0x74).getLsbD 8 = true) ∧ (s.dmaActive = none → (rd 0x74).getLsbD 8 = false) ∧
      (∀ n, s.dmaActive = some n → s.channelExternal n = false → (rd 0x74).getLsbD 8 = true →
        ((rd 0x74).extractLsb' 9 3).toNat = n.val)) ∧
    (∀ k, 0x58 ≤ k → k < 0x80 → ∀ j < 24, (rd k).getLsbD j = (s.coreReg k).getLsbD j ∨
      ∃ e ∈ s.ctl.echo, e.reg = k ∧ e.mask.getLsbD j = true ∧ (rd k).getLsbD j = e.value.getLsbD j) ∧
    wr 0x7C = { s with once := { s.once with ogdbr := w } } ∧
    wr 0x7E = { s with irq := { s.irq with iprp := w } } ∧ wr 0x7D = { s with port := { s.port with pctl := w } } ∧
    wr 0x7B = { s with port := { s.port with
      bcr := w &&& (if Config.hasBlh then 0xDFFFFF#24 else 0x9FFFFF#24) } } ∧
    (Config.hasDramCtrl = true → (wr 0x7A).port = { s.port with
      dcr := w &&& (if s.ebd then 0xFFFB0F#24 else 0xFFBB0F#24) } ∧ (wr 0x7A).pcu = s.pcu) ∧
    (∀ i : Fin 4, wr (0x79 - i.val) = { s with port := { s.port with aar := s.port.aar.set i w } } ∧
      wr (0x73 - i.val) = { s with dma := { s.dma with dor := s.dma.dor.set i w } }) ∧
    (∃ e, wr 0x75 = { s with ctl := { s.ctl with echo := e } }) ∧ (∃ e, wr 0x74 = { s with ctl := { s.ctl with echo := e } }) ∧
    (∀ n : Fin 6,
      (wr (0x6F - 4 * n.val)).dma.ch[n].dsr = w ∧ (wr (0x6E - 4 * n.val)).dma.ch[n].ddr = w ∧
      (wr (0x6D - 4 * n.val)).dma.ch[n].dco = w ∧ (wr (0x6D - 4 * n.val)).dma.ch[n].preload = w ∧
      (∀ f < 4, ∀ m : Fin 6, m ≠ n → (wr (0x6C - 4 * n.val + f)).dma.ch[m] = s.dma.ch[m]) ∧
      (∀ f < 4, let t := wr (0x6C - 4 * n.val + f); t.pcu = s.pcu ∧ t.alu = s.alu ∧ t.agu = s.agu ∧ t.mem = s.mem ∧
        t.port = s.port ∧ t.once = s.once) ∧
      let t := wr (0x6C - 4 * n.val)
      t.dma.ch[n].dcr = w ∧
      (dcrDe s.dma.ch[n].dcr = false → dcrDe w = true →
        t.dma.dtd.getLsbD n.val = false ∧ t.dma.ch[n].trig = false ∧ t.irq = s.irq) ∧
      (dcrDe s.dma.ch[n].dcr = true → dcrDe w = false → s.dma.ch[n].ready = false →
        t.dma.dtd.getLsbD n.val = true ∧
        (dcrDie w = true → s.dma.dtd.getLsbD n.val = false → t.irq.pend.getLsbD (12 + n.val) = true)))

/-- The debug port. The TAP controller (log 39, PRESUMED; G13); the OnCE registers a host writes and reads, a reserved register
select refused at the scan of the command (log 44, DESIGN CHOICE; U57); a debug request acknowledged between two instructions,
with its cause and the pulse on DE (log 40, DEDUCED), and what the latches hold (log 30, DEDUCED); one executed instruction seen
by the trace counter and by a breakpoint on its fetch; what the trace buffer takes of an instruction, that it reads out from the
oldest of its twelve entries to the newest, and that a read moves its pointer (log 41, DEDUCED); an instruction executed for the
host, which sees the PC of the halted program, bound by few of the sequence restrictions (log 57, DESIGN CHOICE) and with a pulse on
DE (log 40, DEDUCED); a GO that would execute a word of the program written too lately refused (70_reset R749; log 57). -/
def Obligations.Debug_port : Prop :=
  (∀ p : Tap, (List.replicate 5 true).foldl tapNext p = .testLogicReset) ∧
  (∀ (s : State) (rest : List Event) (tdi : Bool) (rs : BitVec 5), s.env = .tck true tdi :: rest → s.jtag.tap = .exit1Dr →
    s.jtag.ir = 0b0110#4 → s.jtag.dataScan = true → s.once.ocr = rs.setWidth 8 → rs ≠ 10#5 →
    match s.onceWrite rs (s.jtag.dr.extractLsb' 0 24) with
    | some t => ∃ u, step s = .next u ∧ u.once = t.once ∧ u.jtag.dataScan = false ∧ u.jtag.tap = .updateDr ∧ u.pcu = s.pcu
    | none => step s = .refused .reservedOnceCode) ∧
  (∀ (s : State) (rest : List Event) (tdi : Bool) (cmd : Byte), s.env = .tck true tdi :: rest → s.jtag.tap = .exit1Dr →
    s.jtag.ir = 0b0110#4 → s.jtag.dataScan = false → s.jtag.dr.extractLsb' 0 8 = cmd → cmd.extractLsb' 0 5 ≠ 31#5 →
    let rs := cmd.extractLsb' 0 5
    match s.onceRead rs, cmd.getLsbD 7 with
    | none, true => step s = .refused .reservedOnceCode
    | some v, true => ∃ u, step s = .next u ∧ u.jtag.dr = v ∧ u.jtag.dataScan = true ∧ u.once = { s.once with ocr := cmd } ∧
        u.pcu = s.pcu
    | _, false => if (s.onceWrite rs 0).isNone then step s = .refused .reservedOnceCode
        else ∃ u, step s = .next u ∧ u.jtag.dataScan = true ∧ u.once = { s.once with ocr := cmd } ∧ u.pcu = s.pcu) ∧
  (∀ (s : State) (w : Word),
    (∀ rs ∈ [1#5, 5#5, 6#5, 10#5, 13#5], ∃ t, s.onceWrite rs w = some t ∧ t.onceRead rs = some (w.setWidth 32)) ∧
    (∃ t, s.onceWrite 2#5 w = some t ∧ t.onceRead 2#5 = some ((w &&& 0x000FFF#24).setWidth 32)) ∧
    (∃ t v, s.onceWrite 0#5 w = some t ∧ t.onceRead 0#5 = some v ∧ v.extractLsb' 0 2 = w.extractLsb' 0 2 ∧
      v.extractLsb' 2 3 = s.once.cause ∧ v.extractLsb' 6 2 = s.coreStatus ∧ v.extractLsb' 8 24 = 0) ∧
    (∀ rs ∈ [9#5, 11#5, 15#5, 16#5, 17#5, 18#5], s.onceWrite rs w = some s) ∧
    (∀ rs : BitVec 5, rs.toNat ∈ [3, 4, 7, 8, 14, 19, 20, 21, 22, 23, 24, 25, 26, 27, 28, 29, 30] →
      s.onceWrite rs w = none ∧ s.onceRead rs = none)) ∧
  (∀ (s : State), s.env = [] → s.ctl.phase = .normal → s.once.request = true → s.ctl.late = [] → s.ctl.spilled = false →
    ∃ t, step s = .next t ∧ t.alu = s.alu ∧ t.agu = s.agu ∧ t.pcu = s.pcu ∧ t.mem = s.mem ∧ t.once.request = false ∧
      if s.once.oscr.getLsbD 1 then t.ctl.phase = .normal ∧ t.irq.pend.getLsbD 3 = true
      else t.ctl.phase = .debug ∧ t.irq = s.irq ∧ t.once.dePulses = s.once.dePulses + 1 ∧ t.once.tracePtr = 0 ∧
        t.once.trace = s.once.trace ∧ (∀ k < 3, t.once.cause.getLsbD k = (s.once.cause.getLsbD k || s.once.asked.getLsbD k ||
          (k == 2 && s.once.oscr.getLsbD 0 && s.once.otc == 0))) ∧
        (s.ctl.ctx = none → s.ctl.rep = none → s.ctl.pdb = [] → t.once.opabex = s.pcu.pc ∧ t.once.opilr = s.readP s.pcu.pc ∧
          t.once.opabdr = s.pcu.pc + 1 ∧ t.once.opdbr = s.readP (s.pcu.pc + 1) ∧ t.once.opabfr = s.pcu.pc + 2)) ∧
  (∀ (s : State) (i : Instr) (s1 t : State) (l : List Reg), Runs s i s1 t → dests i = some l → s.once.later = false →
    (s.once.oscr.getLsbD 0 = true → s.once.obcr.extractLsb' 0 2 = 0 →
      ∃ u, step s = .next u ∧
        if s.once.otc = 0 then u.once.request = true ∧ u.once.asked.getLsbD 2 = true
        else u.once.request = false ∧ u.once.otc = s.once.otc - 1) ∧
    (s.once.oscr.getLsbD 0 = false → s.once.obcr = 0x000419#24 → s.once.omlr0 = s.pcu.pc →
      ∃ u, step s = .next u ∧ u.once.seen0 = true ∧
        if s.once.ombc = 0 then u.once.request = true ∧ u.once.asked.getLsbD 1 = true
        else u.once.request = false ∧ u.once.ombc = s.once.ombc - 1)) ∧
  (∀ (s : State) (i : Instr) (s1 t : State), Runs s i s1 t →
    (∀ F, jumpOf (s1.begin s.pcu.pc) i = some F ∨ callOf (s1.begin s.pcu.pc) i = some F →
      ∃ u, step s = .next u ∧ u.once.lastPc = s.pcu.pc ∧ u.once.trace =
        ((if F.taken then [F.target ++ 0#1, s.pcu.pc ++ 0#1] else [s.pcu.pc ++ 1#1]) ++ s.once.trace).take 12) ∧
    (∀ l, dests i = some l → ∃ u, step s = .next u ∧ u.once.lastPc = s.pcu.pc ∧ u.once.trace = s.once.trace)) ∧
  (∀ (s : State), s.once.tracePtr = 0 →
    let after (n : Nat) : State := n.repeat (fun t => t.onceAfterRead 18#5) s
    (after 12).once.tracePtr = 0 ∧ ∀ n < 12, n ≤ s.once.trace.length →
      (after (11 - n)).onceRead 18#5 = (((s.once.lastPc ++ 0#1) :: s.once.trace)[n]?).map fun e => e.setWidth 32) ∧
  (∀ (s : State) (rest : List Event) (tdi : Bool), s.env = .tck true tdi :: rest → s.jtag.tap = .exit1Dr →
    s.jtag.ir = 0b0110#4 → s.jtag.dataScan = true → s.once.ocr = 0x92#8 → ∃ u, step s = .next u ∧ u.jtag.dataScan = false ∧
      u.once = { s.once with tracePtr := BitVec.ofNat 4 ((s.once.tracePtr.toNat + 1) % 12) } ∧ u.pcu = s.pcu) ∧
  (∀ (s t : State) (i : Instr), s.ctl.phase = .debug → s.ctl.late = [] → s.dmaActive = none → s.env = [] →
    let b := { s with ctl := { s.ctl with fresh := s.ctl.written, written := 0 } }
    b.misusesExtension i = false → exec i b = .next t → b.busDenied i t t = false → b.badResult t = none →
    (∃ u, runInjected i s = .next u ∧ u.alu = t.alu ∧ u.agu = t.agu ∧ u.pcu = t.pcu ∧ u.mem = t.mem ∧ u.ctl.phase = .debug ∧
      u.once.dePulses = t.once.dePulses + 1) ∧
    (∀ F, jumpOf b i = some F → F.taken = true → t.pcu.pc = F.target) ∧
    (∀ d, i = .braLong d → t.pcu.pc = s.pcu.pc + d) ∧ ∀ d, i = .lraLong (.r 0) d → s.sc = false → t.agu.r[(0 : Fin 8)] = s.pcu.pc + d) ∧
  (∀ (s : State) (w : Word), s.ctl.phase = .debug → s.ctl.late = [] →
    onceGo false w s = if s.latchTooSoon w (s.latched w).len then .refused .executedTooSoon else runInjected (s.latched w) s)

/-- No instruction but STOP, WAIT, DEBUG and DEBUGcc changes the processing state, and none touches the JTAG port, the
outside world or the counter of free values. -/
def Obligations.Processing_state : Prop :=
  ∀ (s t : State) (i : Instr), exec i s = .next t →
    (changesPhase i = false → t.ctl.phase = s.ctl.phase) ∧ t.jtag = s.jtag ∧ t.env = s.env ∧ t.ctl.freeCtr = s.ctl.freeCtr

/-- Every instruction answers a next state in every state, but for a bit number that names no bit (24 and up, and in
Sixteen-bit Arithmetic mode 16 and up) and a loop count in SSH, which are refused by name (93_implementation_defined U3, U6,
U36). -/
def Obligations.Completion : Prop :=
  (∀ (s : State) (i : Instr), (∀ u, bitUse s i = some u → u.numbered s) →
    (∀ la, i ≠ .doReg (.c .ssh) la ∧ i ≠ .dorReg (.c .ssh) la) → ∃ t, exec i s = .next t) ∧
  (∀ (s : State) (i : Instr) (u : BitUse), bitUse s i = some u →
    (24 ≤ u.n.toNat → exec i s = .refused .noSuchBit) ∧
    (16 ≤ u.n.toNat → u.n.toNat < 24 → s.sa = true → exec i s = .refused .noSuchBitInSixteenBitMode)) ∧
  ∀ (s : State) (la : Word), exec (.doReg (.c .ssh) la) s = .refused .loopCountFromSsh ∧
    exec (.dorReg (.c .ssh) la) s = .refused .loopCountFromSsh
end

