-- ==== Sys2Proof/Laws/Bits.lean ====
section
/-!
SUPPORT. One bit set or read.
-/
namespace Sys2Proof

@[simp] theorem getLsbD_setBit {n : Nat} (v : BitVec n) (i j : Nat) (b : Bool) :
    (setBit v i b).getLsbD j = if j = i ∧ i < n then b else v.getLsbD j := by
  unfold setBit
  by_cases hn : i < n
  · by_cases hj : j = i
    · subst hj; cases b <;> simp [hn]
    · have hji : ¬i = j := fun h => hj h.symm
      cases b
      · simp [hj, hji]
        intro h
        by_cases hjn : j < n
        · exact hjn
        · rw [BitVec.getLsbD_of_ge v j (by omega)] at h; cases h
      · simp [hj, hji]
  · have : BitVec.twoPow n i = 0 := by
      apply BitVec.eq_of_getLsbD_eq; intro k hk; simp; omega
    cases b <;> simp [hn, this]

@[simp] theorem getLsbD_bitAt (n i j : Nat) (b : Bool) : (bitAt n i b).getLsbD j = (b && decide (j = i) && decide (i < n)) := by
  unfold bitAt
  cases b
  · simp
  · simp; grind

end Sys2Proof
end

