-- ==== Sys2Proof/Laws/State.lean ====
section
/-!
SUPPORT. One lemma per field for each update of the state, true by `rfl`: no later proof unfolds a record update.
-/
namespace Sys2Proof.Machine

variable (s : State)

/-! ## withSr -/

@[simp] theorem State.withSr_alu (v : Word) : (s.withSr v).alu = s.alu := rfl
@[simp] theorem State.withSr_agu (v : Word) : (s.withSr v).agu = s.agu := rfl
@[simp] theorem State.withSr_pc (v : Word) : (s.withSr v).pcu.pc = s.pcu.pc := rfl
@[simp] theorem State.withSr_sr (v : Word) : (s.withSr v).pcu.sr = v := rfl
@[simp] theorem State.withSr_omr (v : Word) : (s.withSr v).pcu.omr = s.pcu.omr := rfl
@[simp] theorem State.withSr_vba (v : Word) : (s.withSr v).pcu.vba = s.pcu.vba := rfl
@[simp] theorem State.withSr_la (v : Word) : (s.withSr v).pcu.la = s.pcu.la := rfl
@[simp] theorem State.withSr_lc (v : Word) : (s.withSr v).pcu.lc = s.pcu.lc := rfl
@[simp] theorem State.withSr_sp (v : Word) : (s.withSr v).pcu.sp = s.pcu.sp := rfl
@[simp] theorem State.withSr_sc (v : Word) : (s.withSr v).pcu.sc = s.pcu.sc := rfl
@[simp] theorem State.withSr_sz (v : Word) : (s.withSr v).pcu.sz = s.pcu.sz := rfl
@[simp] theorem State.withSr_ssh (v : Word) : (s.withSr v).pcu.ssh = s.pcu.ssh := rfl
@[simp] theorem State.withSr_ssl (v : Word) : (s.withSr v).pcu.ssl = s.pcu.ssl := rfl
@[simp] theorem State.withSr_mem (v : Word) : (s.withSr v).mem = s.mem := rfl
@[simp] theorem State.withSr_port (v : Word) : (s.withSr v).port = s.port := rfl
@[simp] theorem State.withSr_dma (v : Word) : (s.withSr v).dma = s.dma := rfl
@[simp] theorem State.withSr_cache (v : Word) : (s.withSr v).cache = s.cache := rfl
@[simp] theorem State.withSr_irq (v : Word) : (s.withSr v).irq = s.irq := rfl
@[simp] theorem State.withSr_ctl (v : Word) : (s.withSr v).ctl = s.ctl := rfl
@[simp] theorem State.withSr_once (v : Word) : (s.withSr v).once = s.once := rfl
@[simp] theorem State.withSr_jtag (v : Word) : (s.withSr v).jtag = s.jtag := rfl
@[simp] theorem State.withSr_env (v : Word) : (s.withSr v).env = s.env := rfl

/-! ## withOmr -/

@[simp] theorem State.withOmr_alu (v : Word) : (s.withOmr v).alu = s.alu := rfl
@[simp] theorem State.withOmr_agu (v : Word) : (s.withOmr v).agu = s.agu := rfl
@[simp] theorem State.withOmr_pc (v : Word) : (s.withOmr v).pcu.pc = s.pcu.pc := rfl
@[simp] theorem State.withOmr_sr (v : Word) : (s.withOmr v).pcu.sr = s.pcu.sr := rfl
@[simp] theorem State.withOmr_omr (v : Word) : (s.withOmr v).pcu.omr = v := rfl
@[simp] theorem State.withOmr_vba (v : Word) : (s.withOmr v).pcu.vba = s.pcu.vba := rfl
@[simp] theorem State.withOmr_la (v : Word) : (s.withOmr v).pcu.la = s.pcu.la := rfl
@[simp] theorem State.withOmr_lc (v : Word) : (s.withOmr v).pcu.lc = s.pcu.lc := rfl
@[simp] theorem State.withOmr_sp (v : Word) : (s.withOmr v).pcu.sp = s.pcu.sp := rfl
@[simp] theorem State.withOmr_sc (v : Word) : (s.withOmr v).pcu.sc = s.pcu.sc := rfl
@[simp] theorem State.withOmr_sz (v : Word) : (s.withOmr v).pcu.sz = s.pcu.sz := rfl
@[simp] theorem State.withOmr_ssh (v : Word) : (s.withOmr v).pcu.ssh = s.pcu.ssh := rfl
@[simp] theorem State.withOmr_ssl (v : Word) : (s.withOmr v).pcu.ssl = s.pcu.ssl := rfl
@[simp] theorem State.withOmr_mem (v : Word) : (s.withOmr v).mem = s.mem := rfl
@[simp] theorem State.withOmr_port (v : Word) : (s.withOmr v).port = s.port := rfl
@[simp] theorem State.withOmr_dma (v : Word) : (s.withOmr v).dma = s.dma := rfl
@[simp] theorem State.withOmr_cache (v : Word) : (s.withOmr v).cache = s.cache := rfl
@[simp] theorem State.withOmr_irq (v : Word) : (s.withOmr v).irq = s.irq := rfl
@[simp] theorem State.withOmr_ctl (v : Word) : (s.withOmr v).ctl = s.ctl := rfl
@[simp] theorem State.withOmr_once (v : Word) : (s.withOmr v).once = s.once := rfl
@[simp] theorem State.withOmr_jtag (v : Word) : (s.withOmr v).jtag = s.jtag := rfl
@[simp] theorem State.withOmr_env (v : Word) : (s.withOmr v).env = s.env := rfl

/-! ## withPc -/

@[simp] theorem State.withPc_alu (v : Word) : (s.withPc v).alu = s.alu := rfl
@[simp] theorem State.withPc_agu (v : Word) : (s.withPc v).agu = s.agu := rfl
@[simp] theorem State.withPc_pc (v : Word) : (s.withPc v).pcu.pc = v := rfl
@[simp] theorem State.withPc_sr (v : Word) : (s.withPc v).pcu.sr = s.pcu.sr := rfl
@[simp] theorem State.withPc_omr (v : Word) : (s.withPc v).pcu.omr = s.pcu.omr := rfl
@[simp] theorem State.withPc_vba (v : Word) : (s.withPc v).pcu.vba = s.pcu.vba := rfl
@[simp] theorem State.withPc_la (v : Word) : (s.withPc v).pcu.la = s.pcu.la := rfl
@[simp] theorem State.withPc_lc (v : Word) : (s.withPc v).pcu.lc = s.pcu.lc := rfl
@[simp] theorem State.withPc_sp (v : Word) : (s.withPc v).pcu.sp = s.pcu.sp := rfl
@[simp] theorem State.withPc_sc (v : Word) : (s.withPc v).pcu.sc = s.pcu.sc := rfl
@[simp] theorem State.withPc_sz (v : Word) : (s.withPc v).pcu.sz = s.pcu.sz := rfl
@[simp] theorem State.withPc_ssh (v : Word) : (s.withPc v).pcu.ssh = s.pcu.ssh := rfl
@[simp] theorem State.withPc_ssl (v : Word) : (s.withPc v).pcu.ssl = s.pcu.ssl := rfl
@[simp] theorem State.withPc_mem (v : Word) : (s.withPc v).mem = s.mem := rfl
@[simp] theorem State.withPc_port (v : Word) : (s.withPc v).port = s.port := rfl
@[simp] theorem State.withPc_dma (v : Word) : (s.withPc v).dma = s.dma := rfl
@[simp] theorem State.withPc_cache (v : Word) : (s.withPc v).cache = s.cache := rfl
@[simp] theorem State.withPc_irq (v : Word) : (s.withPc v).irq = s.irq := rfl
@[simp] theorem State.withPc_ctl (v : Word) : (s.withPc v).ctl = s.ctl := rfl
@[simp] theorem State.withPc_once (v : Word) : (s.withPc v).once = s.once := rfl
@[simp] theorem State.withPc_jtag (v : Word) : (s.withPc v).jtag = s.jtag := rfl
@[simp] theorem State.withPc_env (v : Word) : (s.withPc v).env = s.env := rfl

/-! ## withSp -/

@[simp] theorem State.withSp_alu (v : Word) : (s.withSp v).alu = s.alu := rfl
@[simp] theorem State.withSp_agu (v : Word) : (s.withSp v).agu = s.agu := rfl
@[simp] theorem State.withSp_pc (v : Word) : (s.withSp v).pcu.pc = s.pcu.pc := rfl
@[simp] theorem State.withSp_sr (v : Word) : (s.withSp v).pcu.sr = s.pcu.sr := rfl
@[simp] theorem State.withSp_omr (v : Word) : (s.withSp v).pcu.omr = s.pcu.omr := rfl
@[simp] theorem State.withSp_vba (v : Word) : (s.withSp v).pcu.vba = s.pcu.vba := rfl
@[simp] theorem State.withSp_la (v : Word) : (s.withSp v).pcu.la = s.pcu.la := rfl
@[simp] theorem State.withSp_lc (v : Word) : (s.withSp v).pcu.lc = s.pcu.lc := rfl
@[simp] theorem State.withSp_sp (v : Word) : (s.withSp v).pcu.sp = v := rfl
@[simp] theorem State.withSp_sc (v : Word) : (s.withSp v).pcu.sc = s.pcu.sc := rfl
@[simp] theorem State.withSp_sz (v : Word) : (s.withSp v).pcu.sz = s.pcu.sz := rfl
@[simp] theorem State.withSp_ssh (v : Word) : (s.withSp v).pcu.ssh = s.pcu.ssh := rfl
@[simp] theorem State.withSp_ssl (v : Word) : (s.withSp v).pcu.ssl = s.pcu.ssl := rfl
@[simp] theorem State.withSp_mem (v : Word) : (s.withSp v).mem = s.mem := rfl
@[simp] theorem State.withSp_port (v : Word) : (s.withSp v).port = s.port := rfl
@[simp] theorem State.withSp_dma (v : Word) : (s.withSp v).dma = s.dma := rfl
@[simp] theorem State.withSp_cache (v : Word) : (s.withSp v).cache = s.cache := rfl
@[simp] theorem State.withSp_irq (v : Word) : (s.withSp v).irq = s.irq := rfl
@[simp] theorem State.withSp_ctl (v : Word) : (s.withSp v).ctl = s.ctl := rfl
@[simp] theorem State.withSp_once (v : Word) : (s.withSp v).once = s.once := rfl
@[simp] theorem State.withSp_jtag (v : Word) : (s.withSp v).jtag = s.jtag := rfl
@[simp] theorem State.withSp_env (v : Word) : (s.withSp v).env = s.env := rfl

/-! ## withSc -/

@[simp] theorem State.withSc_alu (v : BitVec 5) : (s.withSc v).alu = s.alu := rfl
@[simp] theorem State.withSc_agu (v : BitVec 5) : (s.withSc v).agu = s.agu := rfl
@[simp] theorem State.withSc_pc (v : BitVec 5) : (s.withSc v).pcu.pc = s.pcu.pc := rfl
@[simp] theorem State.withSc_sr (v : BitVec 5) : (s.withSc v).pcu.sr = s.pcu.sr := rfl
@[simp] theorem State.withSc_omr (v : BitVec 5) : (s.withSc v).pcu.omr = s.pcu.omr := rfl
@[simp] theorem State.withSc_vba (v : BitVec 5) : (s.withSc v).pcu.vba = s.pcu.vba := rfl
@[simp] theorem State.withSc_la (v : BitVec 5) : (s.withSc v).pcu.la = s.pcu.la := rfl
@[simp] theorem State.withSc_lc (v : BitVec 5) : (s.withSc v).pcu.lc = s.pcu.lc := rfl
@[simp] theorem State.withSc_sp (v : BitVec 5) : (s.withSc v).pcu.sp = s.pcu.sp := rfl
@[simp] theorem State.withSc_sc (v : BitVec 5) : (s.withSc v).pcu.sc = v := rfl
@[simp] theorem State.withSc_sz (v : BitVec 5) : (s.withSc v).pcu.sz = s.pcu.sz := rfl
@[simp] theorem State.withSc_ssh (v : BitVec 5) : (s.withSc v).pcu.ssh = s.pcu.ssh := rfl
@[simp] theorem State.withSc_ssl (v : BitVec 5) : (s.withSc v).pcu.ssl = s.pcu.ssl := rfl
@[simp] theorem State.withSc_mem (v : BitVec 5) : (s.withSc v).mem = s.mem := rfl
@[simp] theorem State.withSc_port (v : BitVec 5) : (s.withSc v).port = s.port := rfl
@[simp] theorem State.withSc_dma (v : BitVec 5) : (s.withSc v).dma = s.dma := rfl
@[simp] theorem State.withSc_cache (v : BitVec 5) : (s.withSc v).cache = s.cache := rfl
@[simp] theorem State.withSc_irq (v : BitVec 5) : (s.withSc v).irq = s.irq := rfl
@[simp] theorem State.withSc_ctl (v : BitVec 5) : (s.withSc v).ctl = s.ctl := rfl
@[simp] theorem State.withSc_once (v : BitVec 5) : (s.withSc v).once = s.once := rfl
@[simp] theorem State.withSc_jtag (v : BitVec 5) : (s.withSc v).jtag = s.jtag := rfl
@[simp] theorem State.withSc_env (v : BitVec 5) : (s.withSc v).env = s.env := rfl

/-! ## withLa -/

@[simp] theorem State.withLa_alu (v : Word) : (s.withLa v).alu = s.alu := rfl
@[simp] theorem State.withLa_agu (v : Word) : (s.withLa v).agu = s.agu := rfl
@[simp] theorem State.withLa_pc (v : Word) : (s.withLa v).pcu.pc = s.pcu.pc := rfl
@[simp] theorem State.withLa_sr (v : Word) : (s.withLa v).pcu.sr = s.pcu.sr := rfl
@[simp] theorem State.withLa_omr (v : Word) : (s.withLa v).pcu.omr = s.pcu.omr := rfl
@[simp] theorem State.withLa_vba (v : Word) : (s.withLa v).pcu.vba = s.pcu.vba := rfl
@[simp] theorem State.withLa_la (v : Word) : (s.withLa v).pcu.la = v := rfl
@[simp] theorem State.withLa_lc (v : Word) : (s.withLa v).pcu.lc = s.pcu.lc := rfl
@[simp] theorem State.withLa_sp (v : Word) : (s.withLa v).pcu.sp = s.pcu.sp := rfl
@[simp] theorem State.withLa_sc (v : Word) : (s.withLa v).pcu.sc = s.pcu.sc := rfl
@[simp] theorem State.withLa_sz (v : Word) : (s.withLa v).pcu.sz = s.pcu.sz := rfl
@[simp] theorem State.withLa_ssh (v : Word) : (s.withLa v).pcu.ssh = s.pcu.ssh := rfl
@[simp] theorem State.withLa_ssl (v : Word) : (s.withLa v).pcu.ssl = s.pcu.ssl := rfl
@[simp] theorem State.withLa_mem (v : Word) : (s.withLa v).mem = s.mem := rfl
@[simp] theorem State.withLa_port (v : Word) : (s.withLa v).port = s.port := rfl
@[simp] theorem State.withLa_dma (v : Word) : (s.withLa v).dma = s.dma := rfl
@[simp] theorem State.withLa_cache (v : Word) : (s.withLa v).cache = s.cache := rfl
@[simp] theorem State.withLa_irq (v : Word) : (s.withLa v).irq = s.irq := rfl
@[simp] theorem State.withLa_ctl (v : Word) : (s.withLa v).ctl = s.ctl := rfl
@[simp] theorem State.withLa_once (v : Word) : (s.withLa v).once = s.once := rfl
@[simp] theorem State.withLa_jtag (v : Word) : (s.withLa v).jtag = s.jtag := rfl
@[simp] theorem State.withLa_env (v : Word) : (s.withLa v).env = s.env := rfl

/-! ## withLc -/

@[simp] theorem State.withLc_alu (v : Word) : (s.withLc v).alu = s.alu := rfl
@[simp] theorem State.withLc_agu (v : Word) : (s.withLc v).agu = s.agu := rfl
@[simp] theorem State.withLc_pc (v : Word) : (s.withLc v).pcu.pc = s.pcu.pc := rfl
@[simp] theorem State.withLc_sr (v : Word) : (s.withLc v).pcu.sr = s.pcu.sr := rfl
@[simp] theorem State.withLc_omr (v : Word) : (s.withLc v).pcu.omr = s.pcu.omr := rfl
@[simp] theorem State.withLc_vba (v : Word) : (s.withLc v).pcu.vba = s.pcu.vba := rfl
@[simp] theorem State.withLc_la (v : Word) : (s.withLc v).pcu.la = s.pcu.la := rfl
@[simp] theorem State.withLc_lc (v : Word) : (s.withLc v).pcu.lc = v := rfl
@[simp] theorem State.withLc_sp (v : Word) : (s.withLc v).pcu.sp = s.pcu.sp := rfl
@[simp] theorem State.withLc_sc (v : Word) : (s.withLc v).pcu.sc = s.pcu.sc := rfl
@[simp] theorem State.withLc_sz (v : Word) : (s.withLc v).pcu.sz = s.pcu.sz := rfl
@[simp] theorem State.withLc_ssh (v : Word) : (s.withLc v).pcu.ssh = s.pcu.ssh := rfl
@[simp] theorem State.withLc_ssl (v : Word) : (s.withLc v).pcu.ssl = s.pcu.ssl := rfl
@[simp] theorem State.withLc_mem (v : Word) : (s.withLc v).mem = s.mem := rfl
@[simp] theorem State.withLc_port (v : Word) : (s.withLc v).port = s.port := rfl
@[simp] theorem State.withLc_dma (v : Word) : (s.withLc v).dma = s.dma := rfl
@[simp] theorem State.withLc_cache (v : Word) : (s.withLc v).cache = s.cache := rfl
@[simp] theorem State.withLc_irq (v : Word) : (s.withLc v).irq = s.irq := rfl
@[simp] theorem State.withLc_ctl (v : Word) : (s.withLc v).ctl = s.ctl := rfl
@[simp] theorem State.withLc_once (v : Word) : (s.withLc v).once = s.once := rfl
@[simp] theorem State.withLc_jtag (v : Word) : (s.withLc v).jtag = s.jtag := rfl
@[simp] theorem State.withLc_env (v : Word) : (s.withLc v).env = s.env := rfl

/-! ## setSsh -/

@[simp] theorem State.setSsh_alu (i : Fin 16) (v : Word) : (s.setSsh i v).alu = s.alu := rfl
@[simp] theorem State.setSsh_agu (i : Fin 16) (v : Word) : (s.setSsh i v).agu = s.agu := rfl
@[simp] theorem State.setSsh_pc (i : Fin 16) (v : Word) : (s.setSsh i v).pcu.pc = s.pcu.pc := rfl
@[simp] theorem State.setSsh_sr (i : Fin 16) (v : Word) : (s.setSsh i v).pcu.sr = s.pcu.sr := rfl
@[simp] theorem State.setSsh_omr (i : Fin 16) (v : Word) : (s.setSsh i v).pcu.omr = s.pcu.omr := rfl
@[simp] theorem State.setSsh_vba (i : Fin 16) (v : Word) : (s.setSsh i v).pcu.vba = s.pcu.vba := rfl
@[simp] theorem State.setSsh_la (i : Fin 16) (v : Word) : (s.setSsh i v).pcu.la = s.pcu.la := rfl
@[simp] theorem State.setSsh_lc (i : Fin 16) (v : Word) : (s.setSsh i v).pcu.lc = s.pcu.lc := rfl
@[simp] theorem State.setSsh_sp (i : Fin 16) (v : Word) : (s.setSsh i v).pcu.sp = s.pcu.sp := rfl
@[simp] theorem State.setSsh_sc (i : Fin 16) (v : Word) : (s.setSsh i v).pcu.sc = s.pcu.sc := rfl
@[simp] theorem State.setSsh_sz (i : Fin 16) (v : Word) : (s.setSsh i v).pcu.sz = s.pcu.sz := rfl
@[simp] theorem State.setSsh_ssh (i : Fin 16) (v : Word) : (s.setSsh i v).pcu.ssh = s.pcu.ssh.set i v := rfl
@[simp] theorem State.setSsh_ssl (i : Fin 16) (v : Word) : (s.setSsh i v).pcu.ssl = s.pcu.ssl := rfl
@[simp] theorem State.setSsh_mem (i : Fin 16) (v : Word) : (s.setSsh i v).mem = s.mem := rfl
@[simp] theorem State.setSsh_port (i : Fin 16) (v : Word) : (s.setSsh i v).port = s.port := rfl
@[simp] theorem State.setSsh_dma (i : Fin 16) (v : Word) : (s.setSsh i v).dma = s.dma := rfl
@[simp] theorem State.setSsh_cache (i : Fin 16) (v : Word) : (s.setSsh i v).cache = s.cache := rfl
@[simp] theorem State.setSsh_irq (i : Fin 16) (v : Word) : (s.setSsh i v).irq = s.irq := rfl
@[simp] theorem State.setSsh_ctl (i : Fin 16) (v : Word) : (s.setSsh i v).ctl = s.ctl := rfl
@[simp] theorem State.setSsh_once (i : Fin 16) (v : Word) : (s.setSsh i v).once = s.once := rfl
@[simp] theorem State.setSsh_jtag (i : Fin 16) (v : Word) : (s.setSsh i v).jtag = s.jtag := rfl
@[simp] theorem State.setSsh_env (i : Fin 16) (v : Word) : (s.setSsh i v).env = s.env := rfl

/-! ## setSsl -/

@[simp] theorem State.setSsl_alu (i : Fin 16) (v : Word) : (s.setSsl i v).alu = s.alu := rfl
@[simp] theorem State.setSsl_agu (i : Fin 16) (v : Word) : (s.setSsl i v).agu = s.agu := rfl
@[simp] theorem State.setSsl_pc (i : Fin 16) (v : Word) : (s.setSsl i v).pcu.pc = s.pcu.pc := rfl
@[simp] theorem State.setSsl_sr (i : Fin 16) (v : Word) : (s.setSsl i v).pcu.sr = s.pcu.sr := rfl
@[simp] theorem State.setSsl_omr (i : Fin 16) (v : Word) : (s.setSsl i v).pcu.omr = s.pcu.omr := rfl
@[simp] theorem State.setSsl_vba (i : Fin 16) (v : Word) : (s.setSsl i v).pcu.vba = s.pcu.vba := rfl
@[simp] theorem State.setSsl_la (i : Fin 16) (v : Word) : (s.setSsl i v).pcu.la = s.pcu.la := rfl
@[simp] theorem State.setSsl_lc (i : Fin 16) (v : Word) : (s.setSsl i v).pcu.lc = s.pcu.lc := rfl
@[simp] theorem State.setSsl_sp (i : Fin 16) (v : Word) : (s.setSsl i v).pcu.sp = s.pcu.sp := rfl
@[simp] theorem State.setSsl_sc (i : Fin 16) (v : Word) : (s.setSsl i v).pcu.sc = s.pcu.sc := rfl
@[simp] theorem State.setSsl_sz (i : Fin 16) (v : Word) : (s.setSsl i v).pcu.sz = s.pcu.sz := rfl
@[simp] theorem State.setSsl_ssh (i : Fin 16) (v : Word) : (s.setSsl i v).pcu.ssh = s.pcu.ssh := rfl
@[simp] theorem State.setSsl_ssl (i : Fin 16) (v : Word) : (s.setSsl i v).pcu.ssl = s.pcu.ssl.set i v := rfl
@[simp] theorem State.setSsl_mem (i : Fin 16) (v : Word) : (s.setSsl i v).mem = s.mem := rfl
@[simp] theorem State.setSsl_port (i : Fin 16) (v : Word) : (s.setSsl i v).port = s.port := rfl
@[simp] theorem State.setSsl_dma (i : Fin 16) (v : Word) : (s.setSsl i v).dma = s.dma := rfl
@[simp] theorem State.setSsl_cache (i : Fin 16) (v : Word) : (s.setSsl i v).cache = s.cache := rfl
@[simp] theorem State.setSsl_irq (i : Fin 16) (v : Word) : (s.setSsl i v).irq = s.irq := rfl
@[simp] theorem State.setSsl_ctl (i : Fin 16) (v : Word) : (s.setSsl i v).ctl = s.ctl := rfl
@[simp] theorem State.setSsl_once (i : Fin 16) (v : Word) : (s.setSsl i v).once = s.once := rfl
@[simp] theorem State.setSsl_jtag (i : Fin 16) (v : Word) : (s.setSsl i v).jtag = s.jtag := rfl
@[simp] theorem State.setSsl_env (i : Fin 16) (v : Word) : (s.setSsl i v).env = s.env := rfl

/-! ## withCcr -/

@[simp] theorem State.withCcr_alu (c : Byte) : (s.withCcr c).alu = s.alu := rfl
@[simp] theorem State.withCcr_agu (c : Byte) : (s.withCcr c).agu = s.agu := rfl
@[simp] theorem State.withCcr_pc (c : Byte) : (s.withCcr c).pcu.pc = s.pcu.pc := rfl
@[simp] theorem State.withCcr_sr (c : Byte) : (s.withCcr c).pcu.sr = (s.pcu.sr &&& 0xFFFF00#24) ||| c.setWidth 24 := rfl
@[simp] theorem State.withCcr_omr (c : Byte) : (s.withCcr c).pcu.omr = s.pcu.omr := rfl
@[simp] theorem State.withCcr_vba (c : Byte) : (s.withCcr c).pcu.vba = s.pcu.vba := rfl
@[simp] theorem State.withCcr_la (c : Byte) : (s.withCcr c).pcu.la = s.pcu.la := rfl
@[simp] theorem State.withCcr_lc (c : Byte) : (s.withCcr c).pcu.lc = s.pcu.lc := rfl
@[simp] theorem State.withCcr_sp (c : Byte) : (s.withCcr c).pcu.sp = s.pcu.sp := rfl
@[simp] theorem State.withCcr_sc (c : Byte) : (s.withCcr c).pcu.sc = s.pcu.sc := rfl
@[simp] theorem State.withCcr_sz (c : Byte) : (s.withCcr c).pcu.sz = s.pcu.sz := rfl
@[simp] theorem State.withCcr_ssh (c : Byte) : (s.withCcr c).pcu.ssh = s.pcu.ssh := rfl
@[simp] theorem State.withCcr_ssl (c : Byte) : (s.withCcr c).pcu.ssl = s.pcu.ssl := rfl
@[simp] theorem State.withCcr_mem (c : Byte) : (s.withCcr c).mem = s.mem := rfl
@[simp] theorem State.withCcr_port (c : Byte) : (s.withCcr c).port = s.port := rfl
@[simp] theorem State.withCcr_dma (c : Byte) : (s.withCcr c).dma = s.dma := rfl
@[simp] theorem State.withCcr_cache (c : Byte) : (s.withCcr c).cache = s.cache := rfl
@[simp] theorem State.withCcr_irq (c : Byte) : (s.withCcr c).irq = s.irq := rfl
@[simp] theorem State.withCcr_ctl (c : Byte) : (s.withCcr c).ctl = s.ctl := rfl
@[simp] theorem State.withCcr_once (c : Byte) : (s.withCcr c).once = s.once := rfl
@[simp] theorem State.withCcr_jtag (c : Byte) : (s.withCcr c).jtag = s.jtag := rfl
@[simp] theorem State.withCcr_env (c : Byte) : (s.withCcr c).env = s.env := rfl

/-! ## withLoopFlags -/

@[simp] theorem State.withLoopFlags_alu (lf fv : Bool) : (s.withLoopFlags lf fv).alu = s.alu := rfl
@[simp] theorem State.withLoopFlags_agu (lf fv : Bool) : (s.withLoopFlags lf fv).agu = s.agu := rfl
@[simp] theorem State.withLoopFlags_pc (lf fv : Bool) : (s.withLoopFlags lf fv).pcu.pc = s.pcu.pc := rfl
@[simp] theorem State.withLoopFlags_sr (lf fv : Bool) : (s.withLoopFlags lf fv).pcu.sr = setBit (setBit s.pcu.sr 15 lf) 16 fv := rfl
@[simp] theorem State.withLoopFlags_omr (lf fv : Bool) : (s.withLoopFlags lf fv).pcu.omr = s.pcu.omr := rfl
@[simp] theorem State.withLoopFlags_vba (lf fv : Bool) : (s.withLoopFlags lf fv).pcu.vba = s.pcu.vba := rfl
@[simp] theorem State.withLoopFlags_la (lf fv : Bool) : (s.withLoopFlags lf fv).pcu.la = s.pcu.la := rfl
@[simp] theorem State.withLoopFlags_lc (lf fv : Bool) : (s.withLoopFlags lf fv).pcu.lc = s.pcu.lc := rfl
@[simp] theorem State.withLoopFlags_sp (lf fv : Bool) : (s.withLoopFlags lf fv).pcu.sp = s.pcu.sp := rfl
@[simp] theorem State.withLoopFlags_sc (lf fv : Bool) : (s.withLoopFlags lf fv).pcu.sc = s.pcu.sc := rfl
@[simp] theorem State.withLoopFlags_sz (lf fv : Bool) : (s.withLoopFlags lf fv).pcu.sz = s.pcu.sz := rfl
@[simp] theorem State.withLoopFlags_ssh (lf fv : Bool) : (s.withLoopFlags lf fv).pcu.ssh = s.pcu.ssh := rfl
@[simp] theorem State.withLoopFlags_ssl (lf fv : Bool) : (s.withLoopFlags lf fv).pcu.ssl = s.pcu.ssl := rfl
@[simp] theorem State.withLoopFlags_mem (lf fv : Bool) : (s.withLoopFlags lf fv).mem = s.mem := rfl
@[simp] theorem State.withLoopFlags_port (lf fv : Bool) : (s.withLoopFlags lf fv).port = s.port := rfl
@[simp] theorem State.withLoopFlags_dma (lf fv : Bool) : (s.withLoopFlags lf fv).dma = s.dma := rfl
@[simp] theorem State.withLoopFlags_cache (lf fv : Bool) : (s.withLoopFlags lf fv).cache = s.cache := rfl
@[simp] theorem State.withLoopFlags_irq (lf fv : Bool) : (s.withLoopFlags lf fv).irq = s.irq := rfl
@[simp] theorem State.withLoopFlags_ctl (lf fv : Bool) : (s.withLoopFlags lf fv).ctl = s.ctl := rfl
@[simp] theorem State.withLoopFlags_once (lf fv : Bool) : (s.withLoopFlags lf fv).once = s.once := rfl
@[simp] theorem State.withLoopFlags_jtag (lf fv : Bool) : (s.withLoopFlags lf fv).jtag = s.jtag := rfl
@[simp] theorem State.withLoopFlags_env (lf fv : Bool) : (s.withLoopFlags lf fv).env = s.env := rfl

/-! ## withCtx -/

@[simp] theorem State.withCtx_alu (c : Option IntCtx) : (s.withCtx c).alu = s.alu := rfl
@[simp] theorem State.withCtx_agu (c : Option IntCtx) : (s.withCtx c).agu = s.agu := rfl
@[simp] theorem State.withCtx_pcu (c : Option IntCtx) : (s.withCtx c).pcu = s.pcu := rfl
@[simp] theorem State.withCtx_mem (c : Option IntCtx) : (s.withCtx c).mem = s.mem := rfl
@[simp] theorem State.withCtx_port (c : Option IntCtx) : (s.withCtx c).port = s.port := rfl
@[simp] theorem State.withCtx_dma (c : Option IntCtx) : (s.withCtx c).dma = s.dma := rfl
@[simp] theorem State.withCtx_cache (c : Option IntCtx) : (s.withCtx c).cache = s.cache := rfl
@[simp] theorem State.withCtx_irq (c : Option IntCtx) : (s.withCtx c).irq = s.irq := rfl
@[simp] theorem State.withCtx_phase (c : Option IntCtx) : (s.withCtx c).ctl.phase = s.ctl.phase := rfl
@[simp] theorem State.withCtx_ctx (c : Option IntCtx) : (s.withCtx c).ctl.ctx = c := rfl
@[simp] theorem State.withCtx_rep (c : Option IntCtx) : (s.withCtx c).ctl.rep = s.ctl.rep := rfl
@[simp] theorem State.withCtx_freeCtr (c : Option IntCtx) : (s.withCtx c).ctl.freeCtr = s.ctl.freeCtr := rfl
@[simp] theorem State.withCtx_fresh (c : Option IntCtx) : (s.withCtx c).ctl.fresh = s.ctl.fresh := rfl
@[simp] theorem State.withCtx_written (c : Option IntCtx) : (s.withCtx c).ctl.written = s.ctl.written := rfl
@[simp] theorem State.withCtx_late (c : Option IntCtx) : (s.withCtx c).ctl.late = s.ctl.late := rfl
@[simp] theorem State.withCtx_spilled (c : Option IntCtx) : (s.withCtx c).ctl.spilled = s.ctl.spilled := rfl
@[simp] theorem State.withCtx_hist (c : Option IntCtx) : (s.withCtx c).ctl.hist = s.ctl.hist := rfl
@[simp] theorem State.withCtx_echo (c : Option IntCtx) : (s.withCtx c).ctl.echo = s.ctl.echo := rfl
@[simp] theorem State.withCtx_pdb (c : Option IntCtx) : (s.withCtx c).ctl.pdb = s.ctl.pdb := rfl
@[simp] theorem State.withCtx_once (c : Option IntCtx) : (s.withCtx c).once = s.once := rfl
@[simp] theorem State.withCtx_jtag (c : Option IntCtx) : (s.withCtx c).jtag = s.jtag := rfl
@[simp] theorem State.withCtx_env (c : Option IntCtx) : (s.withCtx c).env = s.env := rfl

/-! ## withPhase -/

@[simp] theorem State.withPhase_alu (p : Phase) : (s.withPhase p).alu = s.alu := rfl
@[simp] theorem State.withPhase_agu (p : Phase) : (s.withPhase p).agu = s.agu := rfl
@[simp] theorem State.withPhase_pcu (p : Phase) : (s.withPhase p).pcu = s.pcu := rfl
@[simp] theorem State.withPhase_mem (p : Phase) : (s.withPhase p).mem = s.mem := rfl
@[simp] theorem State.withPhase_port (p : Phase) : (s.withPhase p).port = s.port := rfl
@[simp] theorem State.withPhase_dma (p : Phase) : (s.withPhase p).dma = s.dma := rfl
@[simp] theorem State.withPhase_cache (p : Phase) : (s.withPhase p).cache = s.cache := rfl
@[simp] theorem State.withPhase_irq (p : Phase) : (s.withPhase p).irq = s.irq := rfl
@[simp] theorem State.withPhase_phase (p : Phase) : (s.withPhase p).ctl.phase = p := rfl
@[simp] theorem State.withPhase_ctx (p : Phase) : (s.withPhase p).ctl.ctx = s.ctl.ctx := rfl
@[simp] theorem State.withPhase_rep (p : Phase) : (s.withPhase p).ctl.rep = s.ctl.rep := rfl
@[simp] theorem State.withPhase_freeCtr (p : Phase) : (s.withPhase p).ctl.freeCtr = s.ctl.freeCtr := rfl
@[simp] theorem State.withPhase_fresh (p : Phase) : (s.withPhase p).ctl.fresh = s.ctl.fresh := rfl
@[simp] theorem State.withPhase_written (p : Phase) : (s.withPhase p).ctl.written = s.ctl.written := rfl
@[simp] theorem State.withPhase_late (p : Phase) : (s.withPhase p).ctl.late = s.ctl.late := rfl
@[simp] theorem State.withPhase_spilled (p : Phase) : (s.withPhase p).ctl.spilled = s.ctl.spilled := rfl
@[simp] theorem State.withPhase_hist (p : Phase) : (s.withPhase p).ctl.hist = s.ctl.hist := rfl
@[simp] theorem State.withPhase_echo (p : Phase) : (s.withPhase p).ctl.echo = s.ctl.echo := rfl
@[simp] theorem State.withPhase_pdb (p : Phase) : (s.withPhase p).ctl.pdb = s.ctl.pdb := rfl
@[simp] theorem State.withPhase_once (p : Phase) : (s.withPhase p).once = s.once := rfl
@[simp] theorem State.withPhase_jtag (p : Phase) : (s.withPhase p).jtag = s.jtag := rfl
@[simp] theorem State.withPhase_env (p : Phase) : (s.withPhase p).env = s.env := rfl

/-! ## withRep -/

@[simp] theorem State.withRep_alu (r : Option Rep) : (s.withRep r).alu = s.alu := rfl
@[simp] theorem State.withRep_agu (r : Option Rep) : (s.withRep r).agu = s.agu := rfl
@[simp] theorem State.withRep_pcu (r : Option Rep) : (s.withRep r).pcu = s.pcu := rfl
@[simp] theorem State.withRep_mem (r : Option Rep) : (s.withRep r).mem = s.mem := rfl
@[simp] theorem State.withRep_port (r : Option Rep) : (s.withRep r).port = s.port := rfl
@[simp] theorem State.withRep_dma (r : Option Rep) : (s.withRep r).dma = s.dma := rfl
@[simp] theorem State.withRep_cache (r : Option Rep) : (s.withRep r).cache = s.cache := rfl
@[simp] theorem State.withRep_irq (r : Option Rep) : (s.withRep r).irq = s.irq := rfl
@[simp] theorem State.withRep_phase (r : Option Rep) : (s.withRep r).ctl.phase = s.ctl.phase := rfl
@[simp] theorem State.withRep_ctx (r : Option Rep) : (s.withRep r).ctl.ctx = s.ctl.ctx := rfl
@[simp] theorem State.withRep_rep (r : Option Rep) : (s.withRep r).ctl.rep = r := rfl
@[simp] theorem State.withRep_freeCtr (r : Option Rep) : (s.withRep r).ctl.freeCtr = s.ctl.freeCtr := rfl
@[simp] theorem State.withRep_fresh (r : Option Rep) : (s.withRep r).ctl.fresh = s.ctl.fresh := rfl
@[simp] theorem State.withRep_written (r : Option Rep) : (s.withRep r).ctl.written = s.ctl.written := rfl
@[simp] theorem State.withRep_late (r : Option Rep) : (s.withRep r).ctl.late = s.ctl.late := rfl
@[simp] theorem State.withRep_spilled (r : Option Rep) : (s.withRep r).ctl.spilled = s.ctl.spilled := rfl
@[simp] theorem State.withRep_hist (r : Option Rep) : (s.withRep r).ctl.hist = s.ctl.hist := rfl
@[simp] theorem State.withRep_echo (r : Option Rep) : (s.withRep r).ctl.echo = s.ctl.echo := rfl
@[simp] theorem State.withRep_pdb (r : Option Rep) : (s.withRep r).ctl.pdb = s.ctl.pdb := rfl
@[simp] theorem State.withRep_once (r : Option Rep) : (s.withRep r).once = s.once := rfl
@[simp] theorem State.withRep_jtag (r : Option Rep) : (s.withRep r).jtag = s.jtag := rfl
@[simp] theorem State.withRep_env (r : Option Rep) : (s.withRep r).env = s.env := rfl

/-! ## setR -/

@[simp] theorem State.setR_alu (n : Fin 8) (v : Word) : (s.setR n v).alu = s.alu := rfl
@[simp] theorem State.setR_r (n : Fin 8) (v : Word) : (s.setR n v).agu.r = s.agu.r.set n v := rfl
@[simp] theorem State.setR_n (n : Fin 8) (v : Word) : (s.setR n v).agu.n = s.agu.n := rfl
@[simp] theorem State.setR_m (n : Fin 8) (v : Word) : (s.setR n v).agu.m = s.agu.m := rfl
@[simp] theorem State.setR_ep (n : Fin 8) (v : Word) : (s.setR n v).agu.ep = s.agu.ep := rfl
@[simp] theorem State.setR_pcu (n : Fin 8) (v : Word) : (s.setR n v).pcu = s.pcu := rfl
@[simp] theorem State.setR_mem (n : Fin 8) (v : Word) : (s.setR n v).mem = s.mem := rfl
@[simp] theorem State.setR_port (n : Fin 8) (v : Word) : (s.setR n v).port = s.port := rfl
@[simp] theorem State.setR_dma (n : Fin 8) (v : Word) : (s.setR n v).dma = s.dma := rfl
@[simp] theorem State.setR_cache (n : Fin 8) (v : Word) : (s.setR n v).cache = s.cache := rfl
@[simp] theorem State.setR_irq (n : Fin 8) (v : Word) : (s.setR n v).irq = s.irq := rfl
@[simp] theorem State.setR_ctl (n : Fin 8) (v : Word) : (s.setR n v).ctl = s.ctl := rfl
@[simp] theorem State.setR_once (n : Fin 8) (v : Word) : (s.setR n v).once = s.once := rfl
@[simp] theorem State.setR_jtag (n : Fin 8) (v : Word) : (s.setR n v).jtag = s.jtag := rfl
@[simp] theorem State.setR_env (n : Fin 8) (v : Word) : (s.setR n v).env = s.env := rfl

/-! ## setPend -/

@[simp] theorem State.setPend_alu (k : Nat) (b : Bool) : (s.setPend k b).alu = s.alu := rfl
@[simp] theorem State.setPend_agu (k : Nat) (b : Bool) : (s.setPend k b).agu = s.agu := rfl
@[simp] theorem State.setPend_pcu (k : Nat) (b : Bool) : (s.setPend k b).pcu = s.pcu := rfl
@[simp] theorem State.setPend_mem (k : Nat) (b : Bool) : (s.setPend k b).mem = s.mem := rfl
@[simp] theorem State.setPend_port (k : Nat) (b : Bool) : (s.setPend k b).port = s.port := rfl
@[simp] theorem State.setPend_dma (k : Nat) (b : Bool) : (s.setPend k b).dma = s.dma := rfl
@[simp] theorem State.setPend_cache (k : Nat) (b : Bool) : (s.setPend k b).cache = s.cache := rfl
@[simp] theorem State.setPend_iprc (k : Nat) (b : Bool) : (s.setPend k b).irq.iprc = s.irq.iprc := rfl
@[simp] theorem State.setPend_iprp (k : Nat) (b : Bool) : (s.setPend k b).irq.iprp = s.irq.iprp := rfl
@[simp] theorem State.setPend_pend (k : Nat) (b : Bool) : (s.setPend k b).irq.pend = setBit s.irq.pend k b := rfl
@[simp] theorem State.setPend_pins (k : Nat) (b : Bool) : (s.setPend k b).irq.pins = s.irq.pins := rfl
@[simp] theorem State.setPend_nmi (k : Nat) (b : Bool) : (s.setPend k b).irq.nmi = s.irq.nmi := rfl
@[simp] theorem State.setPend_de (k : Nat) (b : Bool) : (s.setPend k b).irq.de = s.irq.de := rfl
@[simp] theorem State.setPend_rst (k : Nat) (b : Bool) : (s.setPend k b).irq.rst = s.irq.rst := rfl
@[simp] theorem State.setPend_oldMask (k : Nat) (b : Bool) : (s.setPend k b).irq.oldMask = s.irq.oldMask := rfl
@[simp] theorem State.setPend_window (k : Nat) (b : Bool) : (s.setPend k b).irq.window = s.irq.window := rfl
@[simp] theorem State.setPend_ctl (k : Nat) (b : Bool) : (s.setPend k b).ctl = s.ctl := rfl
@[simp] theorem State.setPend_once (k : Nat) (b : Bool) : (s.setPend k b).once = s.once := rfl
@[simp] theorem State.setPend_jtag (k : Nat) (b : Bool) : (s.setPend k b).jtag = s.jtag := rfl
@[simp] theorem State.setPend_env (k : Nat) (b : Bool) : (s.setPend k b).env = s.env := rfl

/-! ## clearAccepted -/

@[simp] theorem State.clearAccepted_alu (k : Nat) : (s.clearAccepted k).alu = s.alu := by unfold State.clearAccepted; split <;> rfl
@[simp] theorem State.clearAccepted_agu (k : Nat) : (s.clearAccepted k).agu = s.agu := by unfold State.clearAccepted; split <;> rfl
@[simp] theorem State.clearAccepted_pcu (k : Nat) : (s.clearAccepted k).pcu = s.pcu := by unfold State.clearAccepted; split <;> rfl
@[simp] theorem State.clearAccepted_mem (k : Nat) : (s.clearAccepted k).mem = s.mem := by unfold State.clearAccepted; split <;> rfl
@[simp] theorem State.clearAccepted_port (k : Nat) : (s.clearAccepted k).port = s.port := by unfold State.clearAccepted; split <;> rfl
@[simp] theorem State.clearAccepted_dma (k : Nat) : (s.clearAccepted k).dma = s.dma := by unfold State.clearAccepted; split <;> rfl
@[simp] theorem State.clearAccepted_cache (k : Nat) : (s.clearAccepted k).cache = s.cache := by unfold State.clearAccepted; split <;> rfl
@[simp] theorem State.clearAccepted_ctl (k : Nat) : (s.clearAccepted k).ctl = s.ctl := by unfold State.clearAccepted; split <;> rfl
@[simp] theorem State.clearAccepted_once (k : Nat) : (s.clearAccepted k).once = s.once := by unfold State.clearAccepted; split <;> rfl
@[simp] theorem State.clearAccepted_jtag (k : Nat) : (s.clearAccepted k).jtag = s.jtag := by unfold State.clearAccepted; split <;> rfl
@[simp] theorem State.clearAccepted_env (k : Nat) : (s.clearAccepted k).env = s.env := by unfold State.clearAccepted; split <;> rfl
@[simp] theorem State.clearAccepted_pend (k : Nat) :
    (s.clearAccepted k).irq.pend = if k < 18 then setBit s.irq.pend k false else s.irq.pend := by
  unfold State.clearAccepted; split <;> rfl

/-! ## writeIprc -/

@[simp] theorem State.writeIprc_alu (v : Word) : (s.writeIprc v).alu = s.alu := rfl
@[simp] theorem State.writeIprc_agu (v : Word) : (s.writeIprc v).agu = s.agu := rfl
@[simp] theorem State.writeIprc_pcu (v : Word) : (s.writeIprc v).pcu = s.pcu := rfl
@[simp] theorem State.writeIprc_mem (v : Word) : (s.writeIprc v).mem = s.mem := rfl
@[simp] theorem State.writeIprc_port (v : Word) : (s.writeIprc v).port = s.port := rfl
@[simp] theorem State.writeIprc_dma (v : Word) : (s.writeIprc v).dma = s.dma := rfl
@[simp] theorem State.writeIprc_cache (v : Word) : (s.writeIprc v).cache = s.cache := rfl
@[simp] theorem State.writeIprc_iprc (v : Word) : (s.writeIprc v).irq.iprc = v := rfl
@[simp] theorem State.writeIprc_iprp (v : Word) : (s.writeIprc v).irq.iprp = s.irq.iprp := rfl
@[simp] theorem State.writeIprc_pend (v : Word) : (s.writeIprc v).irq.pend = s.irq.pend &&& irqKeep v := rfl
@[simp] theorem State.writeIprc_pins (v : Word) : (s.writeIprc v).irq.pins = s.irq.pins := rfl
@[simp] theorem State.writeIprc_nmi (v : Word) : (s.writeIprc v).irq.nmi = s.irq.nmi := rfl
@[simp] theorem State.writeIprc_de (v : Word) : (s.writeIprc v).irq.de = s.irq.de := rfl
@[simp] theorem State.writeIprc_rst (v : Word) : (s.writeIprc v).irq.rst = s.irq.rst := rfl
@[simp] theorem State.writeIprc_oldMask (v : Word) : (s.writeIprc v).irq.oldMask = s.irq.oldMask := rfl
@[simp] theorem State.writeIprc_window (v : Word) : (s.writeIprc v).irq.window = s.irq.window := rfl
@[simp] theorem State.writeIprc_ctl (v : Word) : (s.writeIprc v).ctl = s.ctl := rfl
@[simp] theorem State.writeIprc_once (v : Word) : (s.writeIprc v).once = s.once := rfl
@[simp] theorem State.writeIprc_jtag (v : Word) : (s.writeIprc v).jtag = s.jtag := rfl
@[simp] theorem State.writeIprc_env (v : Word) : (s.writeIprc v).env = s.env := rfl

/-! ## withChannel -/

@[simp] theorem State.withChannel_alu (n : Fin 6) (c : DmaChannel) : (s.withChannel n c).alu = s.alu := rfl
@[simp] theorem State.withChannel_agu (n : Fin 6) (c : DmaChannel) : (s.withChannel n c).agu = s.agu := rfl
@[simp] theorem State.withChannel_pcu (n : Fin 6) (c : DmaChannel) : (s.withChannel n c).pcu = s.pcu := rfl
@[simp] theorem State.withChannel_mem (n : Fin 6) (c : DmaChannel) : (s.withChannel n c).mem = s.mem := rfl
@[simp] theorem State.withChannel_port (n : Fin 6) (c : DmaChannel) : (s.withChannel n c).port = s.port := rfl
@[simp] theorem State.withChannel_ch (n : Fin 6) (c : DmaChannel) : (s.withChannel n c).dma.ch = s.dma.ch.set n c := rfl
@[simp] theorem State.withChannel_dor (n : Fin 6) (c : DmaChannel) : (s.withChannel n c).dma.dor = s.dma.dor := rfl
@[simp] theorem State.withChannel_dtd (n : Fin 6) (c : DmaChannel) : (s.withChannel n c).dma.dtd = s.dma.dtd := rfl
@[simp] theorem State.withChannel_last (n : Fin 6) (c : DmaChannel) : (s.withChannel n c).dma.last = s.dma.last := rfl
@[simp] theorem State.withChannel_held (n : Fin 6) (c : DmaChannel) : (s.withChannel n c).dma.held = s.dma.held := rfl
@[simp] theorem State.withChannel_cache (n : Fin 6) (c : DmaChannel) : (s.withChannel n c).cache = s.cache := rfl
@[simp] theorem State.withChannel_irq (n : Fin 6) (c : DmaChannel) : (s.withChannel n c).irq = s.irq := rfl
@[simp] theorem State.withChannel_ctl (n : Fin 6) (c : DmaChannel) : (s.withChannel n c).ctl = s.ctl := rfl
@[simp] theorem State.withChannel_once (n : Fin 6) (c : DmaChannel) : (s.withChannel n c).once = s.once := rfl
@[simp] theorem State.withChannel_jtag (n : Fin 6) (c : DmaChannel) : (s.withChannel n c).jtag = s.jtag := rfl
@[simp] theorem State.withChannel_env (n : Fin 6) (c : DmaChannel) : (s.withChannel n c).env = s.env := rfl

/-! ## setDtd -/

@[simp] theorem State.setDtd_alu (n : Fin 6) (b : Bool) : (s.setDtd n b).alu = s.alu := rfl
@[simp] theorem State.setDtd_agu (n : Fin 6) (b : Bool) : (s.setDtd n b).agu = s.agu := rfl
@[simp] theorem State.setDtd_pcu (n : Fin 6) (b : Bool) : (s.setDtd n b).pcu = s.pcu := rfl
@[simp] theorem State.setDtd_mem (n : Fin 6) (b : Bool) : (s.setDtd n b).mem = s.mem := rfl
@[simp] theorem State.setDtd_port (n : Fin 6) (b : Bool) : (s.setDtd n b).port = s.port := rfl
@[simp] theorem State.setDtd_ch (n : Fin 6) (b : Bool) : (s.setDtd n b).dma.ch = s.dma.ch := rfl
@[simp] theorem State.setDtd_dor (n : Fin 6) (b : Bool) : (s.setDtd n b).dma.dor = s.dma.dor := rfl
@[simp] theorem State.setDtd_dtd (n : Fin 6) (b : Bool) : (s.setDtd n b).dma.dtd = setBit s.dma.dtd n b := rfl
@[simp] theorem State.setDtd_last (n : Fin 6) (b : Bool) : (s.setDtd n b).dma.last = s.dma.last := rfl
@[simp] theorem State.setDtd_held (n : Fin 6) (b : Bool) : (s.setDtd n b).dma.held = s.dma.held := rfl
@[simp] theorem State.setDtd_cache (n : Fin 6) (b : Bool) : (s.setDtd n b).cache = s.cache := rfl
@[simp] theorem State.setDtd_irq (n : Fin 6) (b : Bool) : (s.setDtd n b).irq = s.irq := rfl
@[simp] theorem State.setDtd_ctl (n : Fin 6) (b : Bool) : (s.setDtd n b).ctl = s.ctl := rfl
@[simp] theorem State.setDtd_once (n : Fin 6) (b : Bool) : (s.setDtd n b).once = s.once := rfl
@[simp] theorem State.setDtd_jtag (n : Fin 6) (b : Bool) : (s.setDtd n b).jtag = s.jtag := rfl
@[simp] theorem State.setDtd_env (n : Fin 6) (b : Bool) : (s.setDtd n b).env = s.env := rfl

/-! ## setAar -/

@[simp] theorem State.setAar_alu (i : Fin 4) (v : Word) : (s.setAar i v).alu = s.alu := rfl
@[simp] theorem State.setAar_agu (i : Fin 4) (v : Word) : (s.setAar i v).agu = s.agu := rfl
@[simp] theorem State.setAar_pcu (i : Fin 4) (v : Word) : (s.setAar i v).pcu = s.pcu := rfl
@[simp] theorem State.setAar_mem (i : Fin 4) (v : Word) : (s.setAar i v).mem = s.mem := rfl
@[simp] theorem State.setAar_pctl (i : Fin 4) (v : Word) : (s.setAar i v).port.pctl = s.port.pctl := rfl
@[simp] theorem State.setAar_bcr (i : Fin 4) (v : Word) : (s.setAar i v).port.bcr = s.port.bcr := rfl
@[simp] theorem State.setAar_dcr (i : Fin 4) (v : Word) : (s.setAar i v).port.dcr = s.port.dcr := rfl
@[simp] theorem State.setAar_aar (i : Fin 4) (v : Word) : (s.setAar i v).port.aar = s.port.aar.set i v := rfl
@[simp] theorem State.setAar_dma (i : Fin 4) (v : Word) : (s.setAar i v).dma = s.dma := rfl
@[simp] theorem State.setAar_cache (i : Fin 4) (v : Word) : (s.setAar i v).cache = s.cache := rfl
@[simp] theorem State.setAar_irq (i : Fin 4) (v : Word) : (s.setAar i v).irq = s.irq := rfl
@[simp] theorem State.setAar_ctl (i : Fin 4) (v : Word) : (s.setAar i v).ctl = s.ctl := rfl
@[simp] theorem State.setAar_once (i : Fin 4) (v : Word) : (s.setAar i v).once = s.once := rfl
@[simp] theorem State.setAar_jtag (i : Fin 4) (v : Word) : (s.setAar i v).jtag = s.jtag := rfl
@[simp] theorem State.setAar_env (i : Fin 4) (v : Word) : (s.setAar i v).env = s.env := rfl

/-! ## setDor -/

@[simp] theorem State.setDor_alu (i : Fin 4) (v : Word) : (s.setDor i v).alu = s.alu := rfl
@[simp] theorem State.setDor_agu (i : Fin 4) (v : Word) : (s.setDor i v).agu = s.agu := rfl
@[simp] theorem State.setDor_pcu (i : Fin 4) (v : Word) : (s.setDor i v).pcu = s.pcu := rfl
@[simp] theorem State.setDor_mem (i : Fin 4) (v : Word) : (s.setDor i v).mem = s.mem := rfl
@[simp] theorem State.setDor_port (i : Fin 4) (v : Word) : (s.setDor i v).port = s.port := rfl
@[simp] theorem State.setDor_ch (i : Fin 4) (v : Word) : (s.setDor i v).dma.ch = s.dma.ch := rfl
@[simp] theorem State.setDor_dor (i : Fin 4) (v : Word) : (s.setDor i v).dma.dor = s.dma.dor.set i v := rfl
@[simp] theorem State.setDor_dtd (i : Fin 4) (v : Word) : (s.setDor i v).dma.dtd = s.dma.dtd := rfl
@[simp] theorem State.setDor_last (i : Fin 4) (v : Word) : (s.setDor i v).dma.last = s.dma.last := rfl
@[simp] theorem State.setDor_held (i : Fin 4) (v : Word) : (s.setDor i v).dma.held = s.dma.held := rfl
@[simp] theorem State.setDor_cache (i : Fin 4) (v : Word) : (s.setDor i v).cache = s.cache := rfl
@[simp] theorem State.setDor_irq (i : Fin 4) (v : Word) : (s.setDor i v).irq = s.irq := rfl
@[simp] theorem State.setDor_ctl (i : Fin 4) (v : Word) : (s.setDor i v).ctl = s.ctl := rfl
@[simp] theorem State.setDor_once (i : Fin 4) (v : Word) : (s.setDor i v).once = s.once := rfl
@[simp] theorem State.setDor_jtag (i : Fin 4) (v : Word) : (s.setDor i v).jtag = s.jtag := rfl
@[simp] theorem State.setDor_env (i : Fin 4) (v : Word) : (s.setDor i v).env = s.env := rfl

/-! ## withCache -/

@[simp] theorem State.withCache_alu (c : ICache) : (s.withCache c).alu = s.alu := rfl
@[simp] theorem State.withCache_agu (c : ICache) : (s.withCache c).agu = s.agu := rfl
@[simp] theorem State.withCache_pcu (c : ICache) : (s.withCache c).pcu = s.pcu := rfl
@[simp] theorem State.withCache_mem (c : ICache) : (s.withCache c).mem = s.mem := rfl
@[simp] theorem State.withCache_port (c : ICache) : (s.withCache c).port = s.port := rfl
@[simp] theorem State.withCache_dma (c : ICache) : (s.withCache c).dma = s.dma := rfl
@[simp] theorem State.withCache_cache (c : ICache) : (s.withCache c).cache = c := rfl
@[simp] theorem State.withCache_irq (c : ICache) : (s.withCache c).irq = s.irq := rfl
@[simp] theorem State.withCache_ctl (c : ICache) : (s.withCache c).ctl = s.ctl := rfl
@[simp] theorem State.withCache_once (c : ICache) : (s.withCache c).once = s.once := rfl
@[simp] theorem State.withCache_jtag (c : ICache) : (s.withCache c).jtag = s.jtag := rfl
@[simp] theorem State.withCache_env (c : ICache) : (s.withCache c).env = s.env := rfl

/-! ## withAcc a -/

@[simp] theorem State.withAcc_a_x1 (v : AccWord) : (s.withAcc .a v).alu.x1 = s.alu.x1 := rfl
@[simp] theorem State.withAcc_a_x0 (v : AccWord) : (s.withAcc .a v).alu.x0 = s.alu.x0 := rfl
@[simp] theorem State.withAcc_a_y1 (v : AccWord) : (s.withAcc .a v).alu.y1 = s.alu.y1 := rfl
@[simp] theorem State.withAcc_a_y0 (v : AccWord) : (s.withAcc .a v).alu.y0 = s.alu.y0 := rfl
@[simp] theorem State.withAcc_a_a (v : AccWord) : (s.withAcc .a v).alu.a = v := rfl
@[simp] theorem State.withAcc_a_b (v : AccWord) : (s.withAcc .a v).alu.b = s.alu.b := rfl
@[simp] theorem State.withAcc_a_agu (v : AccWord) : (s.withAcc .a v).agu = s.agu := rfl
@[simp] theorem State.withAcc_a_pcu (v : AccWord) : (s.withAcc .a v).pcu = s.pcu := rfl
@[simp] theorem State.withAcc_a_mem (v : AccWord) : (s.withAcc .a v).mem = s.mem := rfl
@[simp] theorem State.withAcc_a_port (v : AccWord) : (s.withAcc .a v).port = s.port := rfl
@[simp] theorem State.withAcc_a_dma (v : AccWord) : (s.withAcc .a v).dma = s.dma := rfl
@[simp] theorem State.withAcc_a_cache (v : AccWord) : (s.withAcc .a v).cache = s.cache := rfl
@[simp] theorem State.withAcc_a_irq (v : AccWord) : (s.withAcc .a v).irq = s.irq := rfl
@[simp] theorem State.withAcc_a_ctl (v : AccWord) : (s.withAcc .a v).ctl = s.ctl := rfl
@[simp] theorem State.withAcc_a_once (v : AccWord) : (s.withAcc .a v).once = s.once := rfl
@[simp] theorem State.withAcc_a_jtag (v : AccWord) : (s.withAcc .a v).jtag = s.jtag := rfl
@[simp] theorem State.withAcc_a_env (v : AccWord) : (s.withAcc .a v).env = s.env := rfl

/-! ## withAcc b -/

@[simp] theorem State.withAcc_b_x1 (v : AccWord) : (s.withAcc .b v).alu.x1 = s.alu.x1 := rfl
@[simp] theorem State.withAcc_b_x0 (v : AccWord) : (s.withAcc .b v).alu.x0 = s.alu.x0 := rfl
@[simp] theorem State.withAcc_b_y1 (v : AccWord) : (s.withAcc .b v).alu.y1 = s.alu.y1 := rfl
@[simp] theorem State.withAcc_b_y0 (v : AccWord) : (s.withAcc .b v).alu.y0 = s.alu.y0 := rfl
@[simp] theorem State.withAcc_b_a (v : AccWord) : (s.withAcc .b v).alu.a = s.alu.a := rfl
@[simp] theorem State.withAcc_b_b (v : AccWord) : (s.withAcc .b v).alu.b = v := rfl
@[simp] theorem State.withAcc_b_agu (v : AccWord) : (s.withAcc .b v).agu = s.agu := rfl
@[simp] theorem State.withAcc_b_pcu (v : AccWord) : (s.withAcc .b v).pcu = s.pcu := rfl
@[simp] theorem State.withAcc_b_mem (v : AccWord) : (s.withAcc .b v).mem = s.mem := rfl
@[simp] theorem State.withAcc_b_port (v : AccWord) : (s.withAcc .b v).port = s.port := rfl
@[simp] theorem State.withAcc_b_dma (v : AccWord) : (s.withAcc .b v).dma = s.dma := rfl
@[simp] theorem State.withAcc_b_cache (v : AccWord) : (s.withAcc .b v).cache = s.cache := rfl
@[simp] theorem State.withAcc_b_irq (v : AccWord) : (s.withAcc .b v).irq = s.irq := rfl
@[simp] theorem State.withAcc_b_ctl (v : AccWord) : (s.withAcc .b v).ctl = s.ctl := rfl
@[simp] theorem State.withAcc_b_once (v : AccWord) : (s.withAcc .b v).once = s.once := rfl
@[simp] theorem State.withAcc_b_jtag (v : AccWord) : (s.withAcc .b v).jtag = s.jtag := rfl
@[simp] theorem State.withAcc_b_env (v : AccWord) : (s.withAcc .b v).env = s.env := rfl

/-! ## withDataMem x -/

@[simp] theorem State.withDataMem_x_alu (m : Mem) : (s.withDataMem .x m).alu = s.alu := rfl
@[simp] theorem State.withDataMem_x_agu (m : Mem) : (s.withDataMem .x m).agu = s.agu := rfl
@[simp] theorem State.withDataMem_x_pcu (m : Mem) : (s.withDataMem .x m).pcu = s.pcu := rfl
@[simp] theorem State.withDataMem_x_p (m : Mem) : (s.withDataMem .x m).mem.p = s.mem.p := rfl
@[simp] theorem State.withDataMem_x_x (m : Mem) : (s.withDataMem .x m).mem.x = m := rfl
@[simp] theorem State.withDataMem_x_y (m : Mem) : (s.withDataMem .x m).mem.y = s.mem.y := rfl
@[simp] theorem State.withDataMem_x_pExt (m : Mem) : (s.withDataMem .x m).mem.pExt = s.mem.pExt := rfl
@[simp] theorem State.withDataMem_x_port (m : Mem) : (s.withDataMem .x m).port = s.port := rfl
@[simp] theorem State.withDataMem_x_dma (m : Mem) : (s.withDataMem .x m).dma = s.dma := rfl
@[simp] theorem State.withDataMem_x_cache (m : Mem) : (s.withDataMem .x m).cache = s.cache := rfl
@[simp] theorem State.withDataMem_x_irq (m : Mem) : (s.withDataMem .x m).irq = s.irq := rfl
@[simp] theorem State.withDataMem_x_ctl (m : Mem) : (s.withDataMem .x m).ctl = s.ctl := rfl
@[simp] theorem State.withDataMem_x_once (m : Mem) : (s.withDataMem .x m).once = s.once := rfl
@[simp] theorem State.withDataMem_x_jtag (m : Mem) : (s.withDataMem .x m).jtag = s.jtag := rfl
@[simp] theorem State.withDataMem_x_env (m : Mem) : (s.withDataMem .x m).env = s.env := rfl

/-! ## withDataMem y -/

@[simp] theorem State.withDataMem_y_alu (m : Mem) : (s.withDataMem .y m).alu = s.alu := rfl
@[simp] theorem State.withDataMem_y_agu (m : Mem) : (s.withDataMem .y m).agu = s.agu := rfl
@[simp] theorem State.withDataMem_y_pcu (m : Mem) : (s.withDataMem .y m).pcu = s.pcu := rfl
@[simp] theorem State.withDataMem_y_p (m : Mem) : (s.withDataMem .y m).mem.p = s.mem.p := rfl
@[simp] theorem State.withDataMem_y_x (m : Mem) : (s.withDataMem .y m).mem.x = s.mem.x := rfl
@[simp] theorem State.withDataMem_y_y (m : Mem) : (s.withDataMem .y m).mem.y = m := rfl
@[simp] theorem State.withDataMem_y_pExt (m : Mem) : (s.withDataMem .y m).mem.pExt = s.mem.pExt := rfl
@[simp] theorem State.withDataMem_y_port (m : Mem) : (s.withDataMem .y m).port = s.port := rfl
@[simp] theorem State.withDataMem_y_dma (m : Mem) : (s.withDataMem .y m).dma = s.dma := rfl
@[simp] theorem State.withDataMem_y_cache (m : Mem) : (s.withDataMem .y m).cache = s.cache := rfl
@[simp] theorem State.withDataMem_y_irq (m : Mem) : (s.withDataMem .y m).irq = s.irq := rfl
@[simp] theorem State.withDataMem_y_ctl (m : Mem) : (s.withDataMem .y m).ctl = s.ctl := rfl
@[simp] theorem State.withDataMem_y_once (m : Mem) : (s.withDataMem .y m).once = s.once := rfl
@[simp] theorem State.withDataMem_y_jtag (m : Mem) : (s.withDataMem .y m).jtag = s.jtag := rfl
@[simp] theorem State.withDataMem_y_env (m : Mem) : (s.withDataMem .y m).env = s.env := rfl

/-! ## setXY x0 -/

@[simp] theorem State.setXY_x0_x1 (v : Word) : (s.setXY .x0 v).alu.x1 = s.alu.x1 := rfl
@[simp] theorem State.setXY_x0_x0 (v : Word) : (s.setXY .x0 v).alu.x0 = v := rfl
@[simp] theorem State.setXY_x0_y1 (v : Word) : (s.setXY .x0 v).alu.y1 = s.alu.y1 := rfl
@[simp] theorem State.setXY_x0_y0 (v : Word) : (s.setXY .x0 v).alu.y0 = s.alu.y0 := rfl
@[simp] theorem State.setXY_x0_a (v : Word) : (s.setXY .x0 v).alu.a = s.alu.a := rfl
@[simp] theorem State.setXY_x0_b (v : Word) : (s.setXY .x0 v).alu.b = s.alu.b := rfl
@[simp] theorem State.setXY_x0_agu (v : Word) : (s.setXY .x0 v).agu = s.agu := rfl
@[simp] theorem State.setXY_x0_pcu (v : Word) : (s.setXY .x0 v).pcu = s.pcu := rfl
@[simp] theorem State.setXY_x0_mem (v : Word) : (s.setXY .x0 v).mem = s.mem := rfl
@[simp] theorem State.setXY_x0_port (v : Word) : (s.setXY .x0 v).port = s.port := rfl
@[simp] theorem State.setXY_x0_dma (v : Word) : (s.setXY .x0 v).dma = s.dma := rfl
@[simp] theorem State.setXY_x0_cache (v : Word) : (s.setXY .x0 v).cache = s.cache := rfl
@[simp] theorem State.setXY_x0_irq (v : Word) : (s.setXY .x0 v).irq = s.irq := rfl
@[simp] theorem State.setXY_x0_ctl (v : Word) : (s.setXY .x0 v).ctl = s.ctl := rfl
@[simp] theorem State.setXY_x0_once (v : Word) : (s.setXY .x0 v).once = s.once := rfl
@[simp] theorem State.setXY_x0_jtag (v : Word) : (s.setXY .x0 v).jtag = s.jtag := rfl
@[simp] theorem State.setXY_x0_env (v : Word) : (s.setXY .x0 v).env = s.env := rfl

/-! ## setXY x1 -/

@[simp] theorem State.setXY_x1_x1 (v : Word) : (s.setXY .x1 v).alu.x1 = v := rfl
@[simp] theorem State.setXY_x1_x0 (v : Word) : (s.setXY .x1 v).alu.x0 = s.alu.x0 := rfl
@[simp] theorem State.setXY_x1_y1 (v : Word) : (s.setXY .x1 v).alu.y1 = s.alu.y1 := rfl
@[simp] theorem State.setXY_x1_y0 (v : Word) : (s.setXY .x1 v).alu.y0 = s.alu.y0 := rfl
@[simp] theorem State.setXY_x1_a (v : Word) : (s.setXY .x1 v).alu.a = s.alu.a := rfl
@[simp] theorem State.setXY_x1_b (v : Word) : (s.setXY .x1 v).alu.b = s.alu.b := rfl
@[simp] theorem State.setXY_x1_agu (v : Word) : (s.setXY .x1 v).agu = s.agu := rfl
@[simp] theorem State.setXY_x1_pcu (v : Word) : (s.setXY .x1 v).pcu = s.pcu := rfl
@[simp] theorem State.setXY_x1_mem (v : Word) : (s.setXY .x1 v).mem = s.mem := rfl
@[simp] theorem State.setXY_x1_port (v : Word) : (s.setXY .x1 v).port = s.port := rfl
@[simp] theorem State.setXY_x1_dma (v : Word) : (s.setXY .x1 v).dma = s.dma := rfl
@[simp] theorem State.setXY_x1_cache (v : Word) : (s.setXY .x1 v).cache = s.cache := rfl
@[simp] theorem State.setXY_x1_irq (v : Word) : (s.setXY .x1 v).irq = s.irq := rfl
@[simp] theorem State.setXY_x1_ctl (v : Word) : (s.setXY .x1 v).ctl = s.ctl := rfl
@[simp] theorem State.setXY_x1_once (v : Word) : (s.setXY .x1 v).once = s.once := rfl
@[simp] theorem State.setXY_x1_jtag (v : Word) : (s.setXY .x1 v).jtag = s.jtag := rfl
@[simp] theorem State.setXY_x1_env (v : Word) : (s.setXY .x1 v).env = s.env := rfl

/-! ## setXY y0 -/

@[simp] theorem State.setXY_y0_x1 (v : Word) : (s.setXY .y0 v).alu.x1 = s.alu.x1 := rfl
@[simp] theorem State.setXY_y0_x0 (v : Word) : (s.setXY .y0 v).alu.x0 = s.alu.x0 := rfl
@[simp] theorem State.setXY_y0_y1 (v : Word) : (s.setXY .y0 v).alu.y1 = s.alu.y1 := rfl
@[simp] theorem State.setXY_y0_y0 (v : Word) : (s.setXY .y0 v).alu.y0 = v := rfl
@[simp] theorem State.setXY_y0_a (v : Word) : (s.setXY .y0 v).alu.a = s.alu.a := rfl
@[simp] theorem State.setXY_y0_b (v : Word) : (s.setXY .y0 v).alu.b = s.alu.b := rfl
@[simp] theorem State.setXY_y0_agu (v : Word) : (s.setXY .y0 v).agu = s.agu := rfl
@[simp] theorem State.setXY_y0_pcu (v : Word) : (s.setXY .y0 v).pcu = s.pcu := rfl
@[simp] theorem State.setXY_y0_mem (v : Word) : (s.setXY .y0 v).mem = s.mem := rfl
@[simp] theorem State.setXY_y0_port (v : Word) : (s.setXY .y0 v).port = s.port := rfl
@[simp] theorem State.setXY_y0_dma (v : Word) : (s.setXY .y0 v).dma = s.dma := rfl
@[simp] theorem State.setXY_y0_cache (v : Word) : (s.setXY .y0 v).cache = s.cache := rfl
@[simp] theorem State.setXY_y0_irq (v : Word) : (s.setXY .y0 v).irq = s.irq := rfl
@[simp] theorem State.setXY_y0_ctl (v : Word) : (s.setXY .y0 v).ctl = s.ctl := rfl
@[simp] theorem State.setXY_y0_once (v : Word) : (s.setXY .y0 v).once = s.once := rfl
@[simp] theorem State.setXY_y0_jtag (v : Word) : (s.setXY .y0 v).jtag = s.jtag := rfl
@[simp] theorem State.setXY_y0_env (v : Word) : (s.setXY .y0 v).env = s.env := rfl

/-! ## setXY y1 -/

@[simp] theorem State.setXY_y1_x1 (v : Word) : (s.setXY .y1 v).alu.x1 = s.alu.x1 := rfl
@[simp] theorem State.setXY_y1_x0 (v : Word) : (s.setXY .y1 v).alu.x0 = s.alu.x0 := rfl
@[simp] theorem State.setXY_y1_y1 (v : Word) : (s.setXY .y1 v).alu.y1 = v := rfl
@[simp] theorem State.setXY_y1_y0 (v : Word) : (s.setXY .y1 v).alu.y0 = s.alu.y0 := rfl
@[simp] theorem State.setXY_y1_a (v : Word) : (s.setXY .y1 v).alu.a = s.alu.a := rfl
@[simp] theorem State.setXY_y1_b (v : Word) : (s.setXY .y1 v).alu.b = s.alu.b := rfl
@[simp] theorem State.setXY_y1_agu (v : Word) : (s.setXY .y1 v).agu = s.agu := rfl
@[simp] theorem State.setXY_y1_pcu (v : Word) : (s.setXY .y1 v).pcu = s.pcu := rfl
@[simp] theorem State.setXY_y1_mem (v : Word) : (s.setXY .y1 v).mem = s.mem := rfl
@[simp] theorem State.setXY_y1_port (v : Word) : (s.setXY .y1 v).port = s.port := rfl
@[simp] theorem State.setXY_y1_dma (v : Word) : (s.setXY .y1 v).dma = s.dma := rfl
@[simp] theorem State.setXY_y1_cache (v : Word) : (s.setXY .y1 v).cache = s.cache := rfl
@[simp] theorem State.setXY_y1_irq (v : Word) : (s.setXY .y1 v).irq = s.irq := rfl
@[simp] theorem State.setXY_y1_ctl (v : Word) : (s.setXY .y1 v).ctl = s.ctl := rfl
@[simp] theorem State.setXY_y1_once (v : Word) : (s.setXY .y1 v).once = s.once := rfl
@[simp] theorem State.setXY_y1_jtag (v : Word) : (s.setXY .y1 v).jtag = s.jtag := rfl
@[simp] theorem State.setXY_y1_env (v : Word) : (s.setXY .y1 v).env = s.env := rfl

/-! ## begin -/

@[simp] theorem State.begin_alu (a : Word) : (s.begin a).alu = s.alu := rfl
@[simp] theorem State.begin_agu (a : Word) : (s.begin a).agu = s.agu := rfl
@[simp] theorem State.begin_pcu (a : Word) : (s.begin a).pcu = s.pcu := rfl
@[simp] theorem State.begin_mem (a : Word) : (s.begin a).mem = s.mem := rfl
@[simp] theorem State.begin_port (a : Word) : (s.begin a).port = s.port := rfl
@[simp] theorem State.begin_dma (a : Word) : (s.begin a).dma = s.dma := rfl
@[simp] theorem State.begin_cache (a : Word) : (s.begin a).cache = s.cache := rfl
@[simp] theorem State.begin_irq (a : Word) : (s.begin a).irq = s.irq := rfl
@[simp] theorem State.begin_phase (a : Word) : (s.begin a).ctl.phase = s.ctl.phase := rfl
@[simp] theorem State.begin_ctx (a : Word) : (s.begin a).ctl.ctx = s.ctl.ctx := rfl
@[simp] theorem State.begin_rep (a : Word) : (s.begin a).ctl.rep = s.ctl.rep := rfl
@[simp] theorem State.begin_freeCtr (a : Word) : (s.begin a).ctl.freeCtr = s.ctl.freeCtr := rfl
@[simp] theorem State.begin_fresh (a : Word) : (s.begin a).ctl.fresh = s.ctl.written := rfl
@[simp] theorem State.begin_written (a : Word) : (s.begin a).ctl.written = 0 := rfl
@[simp] theorem State.begin_late (a : Word) : (s.begin a).ctl.late = s.ctl.late := rfl
@[simp] theorem State.begin_spilled (a : Word) : (s.begin a).ctl.spilled = s.ctl.spilled := rfl
@[simp] theorem State.begin_hist (a : Word) : (s.begin a).ctl.hist = s.ctl.hist := rfl
@[simp] theorem State.begin_echo (a : Word) : (s.begin a).ctl.echo = s.ctl.echo := rfl
@[simp] theorem State.begin_pdb (a : Word) : (s.begin a).ctl.pdb = s.ctl.pdb := rfl
@[simp] theorem State.begin_jtag (a : Word) : (s.begin a).jtag = s.jtag := rfl
@[simp] theorem State.begin_env (a : Word) : (s.begin a).env = s.env := rfl

/-! ## fade -/

@[simp] theorem State.fade_alu : s.fade.alu = s.alu := rfl
@[simp] theorem State.fade_agu : s.fade.agu = s.agu := rfl
@[simp] theorem State.fade_pcu : s.fade.pcu = s.pcu := rfl
@[simp] theorem State.fade_mem : s.fade.mem = s.mem := rfl
@[simp] theorem State.fade_port : s.fade.port = s.port := rfl
@[simp] theorem State.fade_dma : s.fade.dma = s.dma := rfl
@[simp] theorem State.fade_cache : s.fade.cache = s.cache := rfl
@[simp] theorem State.fade_irq : s.fade.irq = s.irq := rfl
@[simp] theorem State.fade_once : s.fade.once = s.once := rfl
@[simp] theorem State.fade_jtag : s.fade.jtag = s.jtag := rfl
@[simp] theorem State.fade_env : s.fade.env = s.env := rfl
@[simp] theorem State.fade_phase : s.fade.ctl.phase = s.ctl.phase := rfl
@[simp] theorem State.fade_ctx : s.fade.ctl.ctx = s.ctl.ctx := rfl
@[simp] theorem State.fade_rep : s.fade.ctl.rep = s.ctl.rep := rfl
@[simp] theorem State.fade_freeCtr : s.fade.ctl.freeCtr = s.ctl.freeCtr := rfl
@[simp] theorem State.fade_fresh : s.fade.ctl.fresh = s.ctl.fresh := rfl
@[simp] theorem State.fade_written : s.fade.ctl.written = s.ctl.written := rfl
@[simp] theorem State.fade_late : s.fade.ctl.late = s.ctl.late := rfl
@[simp] theorem State.fade_spilled : s.fade.ctl.spilled = s.ctl.spilled := rfl
@[simp] theorem State.fade_hist : s.fade.ctl.hist = s.ctl.hist := rfl
@[simp] theorem State.fade_pdb : s.fade.ctl.pdb = s.ctl.pdb := rfl

/-! ## tick -/

@[simp] theorem State.tick_alu  : (s.tick).alu = s.alu := rfl
@[simp] theorem State.tick_agu  : (s.tick).agu = s.agu := rfl
@[simp] theorem State.tick_pcu  : (s.tick).pcu = s.pcu := rfl
@[simp] theorem State.tick_mem  : (s.tick).mem = s.mem := rfl
@[simp] theorem State.tick_port  : (s.tick).port = s.port := rfl
@[simp] theorem State.tick_dma  : (s.tick).dma = s.dma := rfl
@[simp] theorem State.tick_cache  : (s.tick).cache = s.cache := rfl
@[simp] theorem State.tick_irq  : (s.tick).irq = s.irq := rfl
@[simp] theorem State.tick_phase  : (s.tick).ctl.phase = s.ctl.phase := rfl
@[simp] theorem State.tick_ctx  : (s.tick).ctl.ctx = s.ctl.ctx := rfl
@[simp] theorem State.tick_rep  : (s.tick).ctl.rep = s.ctl.rep := rfl
@[simp] theorem State.tick_freeCtr  : (s.tick).ctl.freeCtr = s.ctl.freeCtr + 1 := rfl
@[simp] theorem State.tick_fresh  : (s.tick).ctl.fresh = s.ctl.fresh := rfl
@[simp] theorem State.tick_written  : (s.tick).ctl.written = s.ctl.written := rfl
@[simp] theorem State.tick_late  : (s.tick).ctl.late = s.ctl.late := rfl
@[simp] theorem State.tick_spilled  : (s.tick).ctl.spilled = s.ctl.spilled := rfl
@[simp] theorem State.tick_hist  : (s.tick).ctl.hist = s.ctl.hist := rfl
@[simp] theorem State.tick_echo  : (s.tick).ctl.echo = s.ctl.echo := rfl
@[simp] theorem State.tick_pdb  : (s.tick).ctl.pdb = s.ctl.pdb := rfl
@[simp] theorem State.tick_once  : (s.tick).once = s.once := rfl
@[simp] theorem State.tick_jtag  : (s.tick).jtag = s.jtag := rfl
@[simp] theorem State.tick_env  : (s.tick).env = s.env := rfl

/-! ## resetPeripherals -/

@[simp] theorem State.resetPeripherals_alu  : (s.resetPeripherals).alu = s.alu := rfl
@[simp] theorem State.resetPeripherals_agu  : (s.resetPeripherals).agu = s.agu := rfl
@[simp] theorem State.resetPeripherals_pcu  : (s.resetPeripherals).pcu = s.pcu := rfl
@[simp] theorem State.resetPeripherals_mem  : (s.resetPeripherals).mem = s.mem := rfl
@[simp] theorem State.resetPeripherals_port  : (s.resetPeripherals).port = s.port := rfl
@[simp] theorem State.resetPeripherals_dma  : (s.resetPeripherals).dma = s.dma := rfl
@[simp] theorem State.resetPeripherals_cache  : (s.resetPeripherals).cache = s.cache := rfl
@[simp] theorem State.resetPeripherals_iprc  : (s.resetPeripherals).irq.iprc = 0 := rfl
@[simp] theorem State.resetPeripherals_iprp  : (s.resetPeripherals).irq.iprp = 0 := rfl
@[simp] theorem State.resetPeripherals_pend  : (s.resetPeripherals).irq.pend = s.irq.pend &&& level3Mask := rfl
@[simp] theorem State.resetPeripherals_pins  : (s.resetPeripherals).irq.pins = s.irq.pins := rfl
@[simp] theorem State.resetPeripherals_nmi  : (s.resetPeripherals).irq.nmi = s.irq.nmi := rfl
@[simp] theorem State.resetPeripherals_de  : (s.resetPeripherals).irq.de = s.irq.de := rfl
@[simp] theorem State.resetPeripherals_rst  : (s.resetPeripherals).irq.rst = s.irq.rst := rfl
@[simp] theorem State.resetPeripherals_oldMask  : (s.resetPeripherals).irq.oldMask = s.irq.oldMask := rfl
@[simp] theorem State.resetPeripherals_window  : (s.resetPeripherals).irq.window = s.irq.window := rfl
@[simp] theorem State.resetPeripherals_ctl  : (s.resetPeripherals).ctl = s.ctl := rfl
@[simp] theorem State.resetPeripherals_once  : (s.resetPeripherals).once = s.once := rfl
@[simp] theorem State.resetPeripherals_jtag  : (s.resetPeripherals).jtag = s.jtag := rfl
@[simp] theorem State.resetPeripherals_env  : (s.resetPeripherals).env = s.env := rfl

/-! ## clearTriggers -/

@[simp] theorem State.clearTriggers_alu  : (s.clearTriggers).alu = s.alu := rfl
@[simp] theorem State.clearTriggers_agu  : (s.clearTriggers).agu = s.agu := rfl
@[simp] theorem State.clearTriggers_pcu  : (s.clearTriggers).pcu = s.pcu := rfl
@[simp] theorem State.clearTriggers_mem  : (s.clearTriggers).mem = s.mem := rfl
@[simp] theorem State.clearTriggers_port  : (s.clearTriggers).port = s.port := rfl
@[simp] theorem State.clearTriggers_dor  : (s.clearTriggers).dma.dor = s.dma.dor := rfl
@[simp] theorem State.clearTriggers_dtd  : (s.clearTriggers).dma.dtd = s.dma.dtd := rfl
@[simp] theorem State.clearTriggers_last  : (s.clearTriggers).dma.last = s.dma.last := rfl
@[simp] theorem State.clearTriggers_held  : (s.clearTriggers).dma.held = s.dma.held := rfl
@[simp] theorem State.clearTriggers_cache  : (s.clearTriggers).cache = s.cache := rfl
@[simp] theorem State.clearTriggers_irq  : (s.clearTriggers).irq = s.irq := rfl
@[simp] theorem State.clearTriggers_ctl  : (s.clearTriggers).ctl = s.ctl := rfl
@[simp] theorem State.clearTriggers_once  : (s.clearTriggers).once = s.once := rfl
@[simp] theorem State.clearTriggers_jtag  : (s.clearTriggers).jtag = s.jtag := rfl
@[simp] theorem State.clearTriggers_env  : (s.clearTriggers).env = s.env := rfl

/-! ## withPdb -/

@[simp] theorem State.withPdb_alu (p : List (Word × Word)) : (s.withPdb p).alu = s.alu := rfl
@[simp] theorem State.withPdb_agu (p : List (Word × Word)) : (s.withPdb p).agu = s.agu := rfl
@[simp] theorem State.withPdb_pcu (p : List (Word × Word)) : (s.withPdb p).pcu = s.pcu := rfl
@[simp] theorem State.withPdb_mem (p : List (Word × Word)) : (s.withPdb p).mem = s.mem := rfl
@[simp] theorem State.withPdb_port (p : List (Word × Word)) : (s.withPdb p).port = s.port := rfl
@[simp] theorem State.withPdb_dma (p : List (Word × Word)) : (s.withPdb p).dma = s.dma := rfl
@[simp] theorem State.withPdb_cache (p : List (Word × Word)) : (s.withPdb p).cache = s.cache := rfl
@[simp] theorem State.withPdb_irq (p : List (Word × Word)) : (s.withPdb p).irq = s.irq := rfl
@[simp] theorem State.withPdb_phase (p : List (Word × Word)) : (s.withPdb p).ctl.phase = s.ctl.phase := rfl
@[simp] theorem State.withPdb_ctx (p : List (Word × Word)) : (s.withPdb p).ctl.ctx = s.ctl.ctx := rfl
@[simp] theorem State.withPdb_rep (p : List (Word × Word)) : (s.withPdb p).ctl.rep = s.ctl.rep := rfl
@[simp] theorem State.withPdb_freeCtr (p : List (Word × Word)) : (s.withPdb p).ctl.freeCtr = s.ctl.freeCtr := rfl
@[simp] theorem State.withPdb_fresh (p : List (Word × Word)) : (s.withPdb p).ctl.fresh = s.ctl.fresh := rfl
@[simp] theorem State.withPdb_written (p : List (Word × Word)) : (s.withPdb p).ctl.written = s.ctl.written := rfl
@[simp] theorem State.withPdb_late (p : List (Word × Word)) : (s.withPdb p).ctl.late = s.ctl.late := rfl
@[simp] theorem State.withPdb_spilled (p : List (Word × Word)) : (s.withPdb p).ctl.spilled = s.ctl.spilled := rfl
@[simp] theorem State.withPdb_hist (p : List (Word × Word)) : (s.withPdb p).ctl.hist = s.ctl.hist := rfl
@[simp] theorem State.withPdb_echo (p : List (Word × Word)) : (s.withPdb p).ctl.echo = s.ctl.echo := rfl
@[simp] theorem State.withPdb_pdb (p : List (Word × Word)) : (s.withPdb p).ctl.pdb = p := rfl
@[simp] theorem State.withPdb_once (p : List (Word × Word)) : (s.withPdb p).once = s.once := rfl
@[simp] theorem State.withPdb_jtag (p : List (Word × Word)) : (s.withPdb p).jtag = s.jtag := rfl
@[simp] theorem State.withPdb_env (p : List (Word × Word)) : (s.withPdb p).env = s.env := rfl

/-! ## withLate -/

@[simp] theorem State.withLate_alu (l : List Late) : (s.withLate l).alu = s.alu := rfl
@[simp] theorem State.withLate_agu (l : List Late) : (s.withLate l).agu = s.agu := rfl
@[simp] theorem State.withLate_pcu (l : List Late) : (s.withLate l).pcu = s.pcu := rfl
@[simp] theorem State.withLate_mem (l : List Late) : (s.withLate l).mem = s.mem := rfl
@[simp] theorem State.withLate_port (l : List Late) : (s.withLate l).port = s.port := rfl
@[simp] theorem State.withLate_dma (l : List Late) : (s.withLate l).dma = s.dma := rfl
@[simp] theorem State.withLate_cache (l : List Late) : (s.withLate l).cache = s.cache := rfl
@[simp] theorem State.withLate_irq (l : List Late) : (s.withLate l).irq = s.irq := rfl
@[simp] theorem State.withLate_phase (l : List Late) : (s.withLate l).ctl.phase = s.ctl.phase := rfl
@[simp] theorem State.withLate_ctx (l : List Late) : (s.withLate l).ctl.ctx = s.ctl.ctx := rfl
@[simp] theorem State.withLate_rep (l : List Late) : (s.withLate l).ctl.rep = s.ctl.rep := rfl
@[simp] theorem State.withLate_freeCtr (l : List Late) : (s.withLate l).ctl.freeCtr = s.ctl.freeCtr := rfl
@[simp] theorem State.withLate_fresh (l : List Late) : (s.withLate l).ctl.fresh = s.ctl.fresh := rfl
@[simp] theorem State.withLate_written (l : List Late) : (s.withLate l).ctl.written = s.ctl.written := rfl
@[simp] theorem State.withLate_late (l : List Late) : (s.withLate l).ctl.late = l := rfl
@[simp] theorem State.withLate_spilled (l : List Late) : (s.withLate l).ctl.spilled = s.ctl.spilled := rfl
@[simp] theorem State.withLate_hist (l : List Late) : (s.withLate l).ctl.hist = s.ctl.hist := rfl
@[simp] theorem State.withLate_echo (l : List Late) : (s.withLate l).ctl.echo = s.ctl.echo := rfl
@[simp] theorem State.withLate_pdb (l : List Late) : (s.withLate l).ctl.pdb = s.ctl.pdb := rfl
@[simp] theorem State.withLate_once (l : List Late) : (s.withLate l).once = s.once := rfl
@[simp] theorem State.withLate_jtag (l : List Late) : (s.withLate l).jtag = s.jtag := rfl
@[simp] theorem State.withLate_env (l : List Late) : (s.withLate l).env = s.env := rfl

/-! ## latchPipeline -/

@[simp] theorem State.latchPipeline_alu  : (s.latchPipeline).alu = s.alu := rfl
@[simp] theorem State.latchPipeline_agu  : (s.latchPipeline).agu = s.agu := rfl
@[simp] theorem State.latchPipeline_pcu  : (s.latchPipeline).pcu = s.pcu := rfl
@[simp] theorem State.latchPipeline_mem  : (s.latchPipeline).mem = s.mem := rfl
@[simp] theorem State.latchPipeline_port  : (s.latchPipeline).port = s.port := rfl
@[simp] theorem State.latchPipeline_dma  : (s.latchPipeline).dma = s.dma := rfl
@[simp] theorem State.latchPipeline_cache  : (s.latchPipeline).cache = s.cache := rfl
@[simp] theorem State.latchPipeline_irq  : (s.latchPipeline).irq = s.irq := rfl
@[simp] theorem State.latchPipeline_ctl  : (s.latchPipeline).ctl = s.ctl := rfl
@[simp] theorem State.latchPipeline_jtag  : (s.latchPipeline).jtag = s.jtag := rfl
@[simp] theorem State.latchPipeline_env  : (s.latchPipeline).env = s.env := rfl

/-! ## debugLatches -/

@[simp] theorem State.debugLatches_alu  : (s.debugLatches).alu = s.alu := rfl
@[simp] theorem State.debugLatches_agu  : (s.debugLatches).agu = s.agu := rfl
@[simp] theorem State.debugLatches_pcu  : (s.debugLatches).pcu = s.pcu := rfl
@[simp] theorem State.debugLatches_mem  : (s.debugLatches).mem = s.mem := rfl
@[simp] theorem State.debugLatches_port  : (s.debugLatches).port = s.port := rfl
@[simp] theorem State.debugLatches_dma  : (s.debugLatches).dma = s.dma := rfl
@[simp] theorem State.debugLatches_cache  : (s.debugLatches).cache = s.cache := rfl
@[simp] theorem State.debugLatches_irq  : (s.debugLatches).irq = s.irq := rfl
@[simp] theorem State.debugLatches_ctl  : (s.debugLatches).ctl = s.ctl := rfl
@[simp] theorem State.debugLatches_jtag  : (s.debugLatches).jtag = s.jtag := rfl
@[simp] theorem State.debugLatches_env  : (s.debugLatches).env = s.env := rfl

/-! ## refresh -/

@[simp] theorem State.refresh_alu  : (s.refresh).alu = s.alu := rfl
@[simp] theorem State.refresh_agu  : (s.refresh).agu = s.agu := rfl
@[simp] theorem State.refresh_pcu  : (s.refresh).pcu = s.pcu := rfl
@[simp] theorem State.refresh_mem  : (s.refresh).mem = s.mem := rfl
@[simp] theorem State.refresh_pctl  : (s.refresh).port.pctl = s.port.pctl := rfl
@[simp] theorem State.refresh_bcr  : (s.refresh).port.bcr = s.port.bcr := rfl
@[simp] theorem State.refresh_dcr  : (s.refresh).port.dcr = s.port.dcr &&& 0xFFBFFF#24 := rfl
@[simp] theorem State.refresh_aar  : (s.refresh).port.aar = s.port.aar := rfl
@[simp] theorem State.refresh_dma  : (s.refresh).dma = s.dma := rfl
@[simp] theorem State.refresh_cache  : (s.refresh).cache = s.cache := rfl
@[simp] theorem State.refresh_irq  : (s.refresh).irq = s.irq := rfl
@[simp] theorem State.refresh_ctl  : (s.refresh).ctl = s.ctl := rfl
@[simp] theorem State.refresh_once  : (s.refresh).once = s.once := rfl
@[simp] theorem State.refresh_jtag  : (s.refresh).jtag = s.jtag := rfl
@[simp] theorem State.refresh_env  : (s.refresh).env = s.env := rfl

/-! ## dmaLoad -/

@[simp] theorem State.dmaLoad_alu (n : Fin 6) (v : Word) : (s.dmaLoad n v).alu = s.alu := rfl
@[simp] theorem State.dmaLoad_agu (n : Fin 6) (v : Word) : (s.dmaLoad n v).agu = s.agu := rfl
@[simp] theorem State.dmaLoad_pcu (n : Fin 6) (v : Word) : (s.dmaLoad n v).pcu = s.pcu := rfl
@[simp] theorem State.dmaLoad_mem (n : Fin 6) (v : Word) : (s.dmaLoad n v).mem = s.mem := rfl
@[simp] theorem State.dmaLoad_port (n : Fin 6) (v : Word) : (s.dmaLoad n v).port = s.port := rfl
@[simp] theorem State.dmaLoad_ch (n : Fin 6) (v : Word) : (s.dmaLoad n v).dma.ch = s.dma.ch := rfl
@[simp] theorem State.dmaLoad_dor (n : Fin 6) (v : Word) : (s.dmaLoad n v).dma.dor = s.dma.dor := rfl
@[simp] theorem State.dmaLoad_dtd (n : Fin 6) (v : Word) : (s.dmaLoad n v).dma.dtd = s.dma.dtd := rfl
@[simp] theorem State.dmaLoad_last (n : Fin 6) (v : Word) : (s.dmaLoad n v).dma.last = s.dma.last := rfl
@[simp] theorem State.dmaLoad_held (n : Fin 6) (v : Word) : (s.dmaLoad n v).dma.held = some (n, v) := rfl
@[simp] theorem State.dmaLoad_cache (n : Fin 6) (v : Word) : (s.dmaLoad n v).cache = s.cache := rfl
@[simp] theorem State.dmaLoad_irq (n : Fin 6) (v : Word) : (s.dmaLoad n v).irq = s.irq := rfl
@[simp] theorem State.dmaLoad_ctl (n : Fin 6) (v : Word) : (s.dmaLoad n v).ctl = s.ctl := rfl
@[simp] theorem State.dmaLoad_once (n : Fin 6) (v : Word) : (s.dmaLoad n v).once = s.once := rfl
@[simp] theorem State.dmaLoad_jtag (n : Fin 6) (v : Word) : (s.dmaLoad n v).jtag = s.jtag := rfl
@[simp] theorem State.dmaLoad_env (n : Fin 6) (v : Word) : (s.dmaLoad n v).env = s.env := rfl

/-! ## serveTrigger -/

@[simp] theorem State.serveTrigger_alu (n : Fin 6) : (s.serveTrigger n).alu = s.alu := rfl
@[simp] theorem State.serveTrigger_agu (n : Fin 6) : (s.serveTrigger n).agu = s.agu := rfl
@[simp] theorem State.serveTrigger_pcu (n : Fin 6) : (s.serveTrigger n).pcu = s.pcu := rfl
@[simp] theorem State.serveTrigger_mem (n : Fin 6) : (s.serveTrigger n).mem = s.mem := rfl
@[simp] theorem State.serveTrigger_port (n : Fin 6) : (s.serveTrigger n).port = s.port := rfl
@[simp] theorem State.serveTrigger_dor (n : Fin 6) : (s.serveTrigger n).dma.dor = s.dma.dor := rfl
@[simp] theorem State.serveTrigger_dtd (n : Fin 6) : (s.serveTrigger n).dma.dtd = s.dma.dtd := rfl
@[simp] theorem State.serveTrigger_last (n : Fin 6) : (s.serveTrigger n).dma.last = s.dma.last := rfl
@[simp] theorem State.serveTrigger_held (n : Fin 6) : (s.serveTrigger n).dma.held = s.dma.held := rfl
@[simp] theorem State.serveTrigger_cache (n : Fin 6) : (s.serveTrigger n).cache = s.cache := rfl
@[simp] theorem State.serveTrigger_irq (n : Fin 6) : (s.serveTrigger n).irq = s.irq := rfl
@[simp] theorem State.serveTrigger_ctl (n : Fin 6) : (s.serveTrigger n).ctl = s.ctl := rfl
@[simp] theorem State.serveTrigger_once (n : Fin 6) : (s.serveTrigger n).once = s.once := rfl
@[simp] theorem State.serveTrigger_jtag (n : Fin 6) : (s.serveTrigger n).jtag = s.jtag := rfl
@[simp] theorem State.serveTrigger_env (n : Fin 6) : (s.serveTrigger n).env = s.env := rfl

/-! ## requestDebug -/

@[simp] theorem State.requestDebug_alu (c : BitVec 3) : (s.requestDebug c).alu = s.alu := rfl
@[simp] theorem State.requestDebug_agu (c : BitVec 3) : (s.requestDebug c).agu = s.agu := rfl
@[simp] theorem State.requestDebug_pcu (c : BitVec 3) : (s.requestDebug c).pcu = s.pcu := rfl
@[simp] theorem State.requestDebug_mem (c : BitVec 3) : (s.requestDebug c).mem = s.mem := rfl
@[simp] theorem State.requestDebug_port (c : BitVec 3) : (s.requestDebug c).port = s.port := rfl
@[simp] theorem State.requestDebug_dma (c : BitVec 3) : (s.requestDebug c).dma = s.dma := rfl
@[simp] theorem State.requestDebug_cache (c : BitVec 3) : (s.requestDebug c).cache = s.cache := rfl
@[simp] theorem State.requestDebug_irq (c : BitVec 3) : (s.requestDebug c).irq = s.irq := rfl
@[simp] theorem State.requestDebug_ctl (c : BitVec 3) : (s.requestDebug c).ctl = s.ctl := rfl
@[simp] theorem State.requestDebug_jtag (c : BitVec 3) : (s.requestDebug c).jtag = s.jtag := rfl
@[simp] theorem State.requestDebug_env (c : BitVec 3) : (s.requestDebug c).env = s.env := rfl

/-! ## requestLater -/

@[simp] theorem State.requestLater_alu  : (s.requestLater).alu = s.alu := rfl
@[simp] theorem State.requestLater_agu  : (s.requestLater).agu = s.agu := rfl
@[simp] theorem State.requestLater_pcu  : (s.requestLater).pcu = s.pcu := rfl
@[simp] theorem State.requestLater_mem  : (s.requestLater).mem = s.mem := rfl
@[simp] theorem State.requestLater_port  : (s.requestLater).port = s.port := rfl
@[simp] theorem State.requestLater_dma  : (s.requestLater).dma = s.dma := rfl
@[simp] theorem State.requestLater_cache  : (s.requestLater).cache = s.cache := rfl
@[simp] theorem State.requestLater_irq  : (s.requestLater).irq = s.irq := rfl
@[simp] theorem State.requestLater_ctl  : (s.requestLater).ctl = s.ctl := rfl
@[simp] theorem State.requestLater_jtag  : (s.requestLater).jtag = s.jtag := rfl
@[simp] theorem State.requestLater_env  : (s.requestLater).env = s.env := rfl

/-! ## Updates of one of several places -/

@[simp] theorem State.withAcc_agu (d : Acc) (v : AccWord) : (s.withAcc d v).agu = s.agu := by cases d <;> rfl
@[simp] theorem State.withAcc_pcu (d : Acc) (v : AccWord) : (s.withAcc d v).pcu = s.pcu := by cases d <;> rfl
@[simp] theorem State.withAcc_mem (d : Acc) (v : AccWord) : (s.withAcc d v).mem = s.mem := by cases d <;> rfl
@[simp] theorem State.withAcc_port (d : Acc) (v : AccWord) : (s.withAcc d v).port = s.port := by cases d <;> rfl
@[simp] theorem State.withAcc_dma (d : Acc) (v : AccWord) : (s.withAcc d v).dma = s.dma := by cases d <;> rfl
@[simp] theorem State.withAcc_cache (d : Acc) (v : AccWord) : (s.withAcc d v).cache = s.cache := by cases d <;> rfl
@[simp] theorem State.withAcc_irq (d : Acc) (v : AccWord) : (s.withAcc d v).irq = s.irq := by cases d <;> rfl
@[simp] theorem State.withAcc_ctl (d : Acc) (v : AccWord) : (s.withAcc d v).ctl = s.ctl := by cases d <;> rfl
@[simp] theorem State.withAcc_once (d : Acc) (v : AccWord) : (s.withAcc d v).once = s.once := by cases d <;> rfl
@[simp] theorem State.withAcc_jtag (d : Acc) (v : AccWord) : (s.withAcc d v).jtag = s.jtag := by cases d <;> rfl
@[simp] theorem State.withAcc_env (d : Acc) (v : AccWord) : (s.withAcc d v).env = s.env := by cases d <;> rfl
@[simp] theorem State.withAcc_x1 (d : Acc) (v : AccWord) : (s.withAcc d v).alu.x1 = s.alu.x1 := by cases d <;> rfl
@[simp] theorem State.withAcc_x0 (d : Acc) (v : AccWord) : (s.withAcc d v).alu.x0 = s.alu.x0 := by cases d <;> rfl
@[simp] theorem State.withAcc_y1 (d : Acc) (v : AccWord) : (s.withAcc d v).alu.y1 = s.alu.y1 := by cases d <;> rfl
@[simp] theorem State.withAcc_y0 (d : Acc) (v : AccWord) : (s.withAcc d v).alu.y0 = s.alu.y0 := by cases d <;> rfl
@[simp] theorem State.withDataMem_alu (sp : Space) (m : Mem) : (s.withDataMem sp m).alu = s.alu := by cases sp <;> rfl
@[simp] theorem State.withDataMem_agu (sp : Space) (m : Mem) : (s.withDataMem sp m).agu = s.agu := by cases sp <;> rfl
@[simp] theorem State.withDataMem_pcu (sp : Space) (m : Mem) : (s.withDataMem sp m).pcu = s.pcu := by cases sp <;> rfl
@[simp] theorem State.withDataMem_port (sp : Space) (m : Mem) : (s.withDataMem sp m).port = s.port := by cases sp <;> rfl
@[simp] theorem State.withDataMem_dma (sp : Space) (m : Mem) : (s.withDataMem sp m).dma = s.dma := by cases sp <;> rfl
@[simp] theorem State.withDataMem_cache (sp : Space) (m : Mem) : (s.withDataMem sp m).cache = s.cache := by cases sp <;> rfl
@[simp] theorem State.withDataMem_irq (sp : Space) (m : Mem) : (s.withDataMem sp m).irq = s.irq := by cases sp <;> rfl
@[simp] theorem State.withDataMem_ctl (sp : Space) (m : Mem) : (s.withDataMem sp m).ctl = s.ctl := by cases sp <;> rfl
@[simp] theorem State.withDataMem_once (sp : Space) (m : Mem) : (s.withDataMem sp m).once = s.once := by cases sp <;> rfl
@[simp] theorem State.withDataMem_jtag (sp : Space) (m : Mem) : (s.withDataMem sp m).jtag = s.jtag := by cases sp <;> rfl
@[simp] theorem State.withDataMem_env (sp : Space) (m : Mem) : (s.withDataMem sp m).env = s.env := by cases sp <;> rfl
@[simp] theorem State.withDataMem_p (sp : Space) (m : Mem) : (s.withDataMem sp m).mem.p = s.mem.p := by cases sp <;> rfl
@[simp] theorem State.withDataMem_pExt (sp : Space) (m : Mem) : (s.withDataMem sp m).mem.pExt = s.mem.pExt := by cases sp <;> rfl
@[simp] theorem State.setXY_agu (r : XYReg) (v : Word) : (s.setXY r v).agu = s.agu := by cases r <;> rfl
@[simp] theorem State.setXY_pcu (r : XYReg) (v : Word) : (s.setXY r v).pcu = s.pcu := by cases r <;> rfl
@[simp] theorem State.setXY_mem (r : XYReg) (v : Word) : (s.setXY r v).mem = s.mem := by cases r <;> rfl
@[simp] theorem State.setXY_port (r : XYReg) (v : Word) : (s.setXY r v).port = s.port := by cases r <;> rfl
@[simp] theorem State.setXY_dma (r : XYReg) (v : Word) : (s.setXY r v).dma = s.dma := by cases r <;> rfl
@[simp] theorem State.setXY_cache (r : XYReg) (v : Word) : (s.setXY r v).cache = s.cache := by cases r <;> rfl
@[simp] theorem State.setXY_irq (r : XYReg) (v : Word) : (s.setXY r v).irq = s.irq := by cases r <;> rfl
@[simp] theorem State.setXY_ctl (r : XYReg) (v : Word) : (s.setXY r v).ctl = s.ctl := by cases r <;> rfl
@[simp] theorem State.setXY_once (r : XYReg) (v : Word) : (s.setXY r v).once = s.once := by cases r <;> rfl
@[simp] theorem State.setXY_jtag (r : XYReg) (v : Word) : (s.setXY r v).jtag = s.jtag := by cases r <;> rfl
@[simp] theorem State.setXY_env (r : XYReg) (v : Word) : (s.setXY r v).env = s.env := by cases r <;> rfl
@[simp] theorem State.setXY_a (r : XYReg) (v : Word) : (s.setXY r v).alu.a = s.alu.a := by cases r <;> rfl
@[simp] theorem State.setXY_b (r : XYReg) (v : Word) : (s.setXY r v).alu.b = s.alu.b := by cases r <;> rfl
@[simp] theorem State.withPMem_alu (e : Bool) (m : Mem) : (s.withPMem e m).alu = s.alu := by cases e <;> rfl
@[simp] theorem State.withPMem_agu (e : Bool) (m : Mem) : (s.withPMem e m).agu = s.agu := by cases e <;> rfl
@[simp] theorem State.withPMem_pcu (e : Bool) (m : Mem) : (s.withPMem e m).pcu = s.pcu := by cases e <;> rfl
@[simp] theorem State.withPMem_port (e : Bool) (m : Mem) : (s.withPMem e m).port = s.port := by cases e <;> rfl
@[simp] theorem State.withPMem_dma (e : Bool) (m : Mem) : (s.withPMem e m).dma = s.dma := by cases e <;> rfl
@[simp] theorem State.withPMem_cache (e : Bool) (m : Mem) : (s.withPMem e m).cache = s.cache := by cases e <;> rfl
@[simp] theorem State.withPMem_irq (e : Bool) (m : Mem) : (s.withPMem e m).irq = s.irq := by cases e <;> rfl
@[simp] theorem State.withPMem_ctl (e : Bool) (m : Mem) : (s.withPMem e m).ctl = s.ctl := by cases e <;> rfl
@[simp] theorem State.withPMem_once (e : Bool) (m : Mem) : (s.withPMem e m).once = s.once := by cases e <;> rfl
@[simp] theorem State.withPMem_jtag (e : Bool) (m : Mem) : (s.withPMem e m).jtag = s.jtag := by cases e <;> rfl
@[simp] theorem State.withPMem_env (e : Bool) (m : Mem) : (s.withPMem e m).env = s.env := by cases e <;> rfl
@[simp] theorem State.withPMem_mem_x (e : Bool) (m : Mem) : (s.withPMem e m).mem.x = s.mem.x := by cases e <;> rfl
@[simp] theorem State.withPMem_mem_y (e : Bool) (m : Mem) : (s.withPMem e m).mem.y = s.mem.y := by cases e <;> rfl
@[simp] theorem State.notePWrite_alu (a : Word) : (s.notePWrite a).alu = s.alu := by unfold State.notePWrite; split <;> rfl
@[simp] theorem State.notePWrite_agu (a : Word) : (s.notePWrite a).agu = s.agu := by unfold State.notePWrite; split <;> rfl
@[simp] theorem State.notePWrite_pcu (a : Word) : (s.notePWrite a).pcu = s.pcu := by unfold State.notePWrite; split <;> rfl
@[simp] theorem State.notePWrite_mem (a : Word) : (s.notePWrite a).mem = s.mem := by unfold State.notePWrite; split <;> rfl
@[simp] theorem State.notePWrite_port (a : Word) : (s.notePWrite a).port = s.port := by unfold State.notePWrite; split <;> rfl
@[simp] theorem State.notePWrite_dma (a : Word) : (s.notePWrite a).dma = s.dma := by unfold State.notePWrite; split <;> rfl
@[simp] theorem State.notePWrite_cache (a : Word) : (s.notePWrite a).cache = s.cache := by unfold State.notePWrite; split <;> rfl
@[simp] theorem State.notePWrite_irq (a : Word) : (s.notePWrite a).irq = s.irq := by unfold State.notePWrite; split <;> rfl
@[simp] theorem State.notePWrite_once (a : Word) : (s.notePWrite a).once = s.once := by unfold State.notePWrite; split <;> rfl
@[simp] theorem State.notePWrite_jtag (a : Word) : (s.notePWrite a).jtag = s.jtag := by unfold State.notePWrite; split <;> rfl
@[simp] theorem State.notePWrite_env (a : Word) : (s.notePWrite a).env = s.env := by unfold State.notePWrite; split <;> rfl
@[simp] theorem State.notePWrite_phase (a : Word) : (s.notePWrite a).ctl.phase = s.ctl.phase := by unfold State.notePWrite; split <;> rfl
@[simp] theorem State.notePWrite_ctx (a : Word) : (s.notePWrite a).ctl.ctx = s.ctl.ctx := by unfold State.notePWrite; split <;> rfl
@[simp] theorem State.notePWrite_rep (a : Word) : (s.notePWrite a).ctl.rep = s.ctl.rep := by unfold State.notePWrite; split <;> rfl
@[simp] theorem State.notePWrite_freeCtr (a : Word) : (s.notePWrite a).ctl.freeCtr = s.ctl.freeCtr := by unfold State.notePWrite; split <;> rfl
@[simp] theorem State.notePWrite_fresh (a : Word) : (s.notePWrite a).ctl.fresh = s.ctl.fresh := by unfold State.notePWrite; split <;> rfl
@[simp] theorem State.notePWrite_written (a : Word) : (s.notePWrite a).ctl.written = s.ctl.written := by unfold State.notePWrite; split <;> rfl
@[simp] theorem State.notePWrite_late (a : Word) : (s.notePWrite a).ctl.late = s.ctl.late := by unfold State.notePWrite; split <;> rfl
@[simp] theorem State.notePWrite_spilled (a : Word) : (s.notePWrite a).ctl.spilled = s.ctl.spilled := by unfold State.notePWrite; split <;> rfl
@[simp] theorem State.notePWrite_echo (a : Word) : (s.notePWrite a).ctl.echo = s.ctl.echo := by unfold State.notePWrite; split <;> rfl
@[simp] theorem State.notePWrite_pdb (a : Word) : (s.notePWrite a).ctl.pdb = s.ctl.pdb := by unfold State.notePWrite; split <;> rfl

/-! ## Reads of a place after a write of it or of another -/

@[simp] theorem State.acc_withAcc (d e : Acc) (v : AccWord) : (s.withAcc d v).acc e = if e = d then v else s.acc e := by
  cases d <;> cases e <;> rfl
@[simp] theorem State.xy_withAcc (d : Acc) (v : AccWord) (r : XYReg) : (s.withAcc d v).xy r = s.xy r := by
  cases d <;> cases r <;> rfl
@[simp] theorem State.xy_setXY (r q : XYReg) (v : Word) : (s.setXY r v).xy q = if q = r then v else s.xy q := by
  cases r <;> cases q <;> rfl
@[simp] theorem State.acc_setXY (r : XYReg) (v : Word) (d : Acc) : (s.setXY r v).acc d = s.acc d := by
  cases r <;> cases d <;> rfl
@[simp] theorem State.dataMem_withDataMem (sp sq : Space) (m : Mem) :
    (s.withDataMem sp m).dataMem sq = if sq = sp then m else s.dataMem sq := by
  cases sp <;> cases sq <;> rfl
@[simp] theorem State.pMem_withPMem (e g : Bool) (m : Mem) : (s.withPMem e m).pMem g = if g = e then m else s.pMem g := by
  cases e <;> cases g <;> rfl

end Sys2Proof.Machine
end

