-- ==== Sys2Proof/Laws/Memory.lean ====
section
/-!
SUPPORT. Memory: a read after a write of the same place and of another, and the canonical form that every memory
operation keeps (20_memory R100, R101; log 3).
-/
namespace Sys2Proof.Machine

/-! ## One memory -/

theorem Mem.read_erase (m : Mem) (a b : Nat) : (m.erase a).read b = if b = a then unlisted else m.read b := by
  induction m with
  | nil => simp [Mem.erase, Mem.read]
  | cons p m ih =>
    obtain ⟨k, x⟩ := p
    simp only [Mem.erase] at ih
    by_cases h : k = a
    · simp only [Mem.erase, List.filter_cons, h, bne_self_eq_false, Bool.false_eq_true, if_false, ih, Mem.read]
      split <;> simp_all
    · simp only [Mem.erase, List.filter_cons, bne_iff_ne, ne_eq, h, not_false_eq_true, if_true, Mem.read, ih]
      split <;> simp_all

theorem Mem.read_insert (m : Mem) (a b : Nat) (w : Word) :
    (Mem.insert a w m).read b = if b = a then w else m.read b := by
  induction m with
  | nil => simp [Mem.insert, Mem.read]
  | cons p m ih =>
    obtain ⟨k, x⟩ := p
    simp only [Mem.insert]
    by_cases h : a < k
    · simp [h, Mem.read]
    · by_cases h2 : a = k
      · subst h2; by_cases h3 : b = a <;> simp [Mem.read, h3]
      · simp only [h, h2, if_false, Mem.read, ih]
        by_cases h3 : b = k
        · subst h3; simp [Ne.symm h2]
        · simp [h3]

/-- A read after a write: the word written there, the old word elsewhere (20_memory R101). -/
@[simp] theorem Mem.read_write (m : Mem) (a b : Nat) (w : Word) :
    (m.write a w).read b = if b = a then w else m.read b := by
  unfold Mem.write
  split
  · next h => rw [Mem.read_erase, h]
  · exact Mem.read_insert m a b w

theorem Mem.wfFrom_lower {lo hi : Option Nat} {m : Mem} (h : Mem.wfFrom hi m = true)
    (le : ∀ l, lo = some l → ∃ u, hi = some u ∧ l ≤ u) : Mem.wfFrom lo m = true := by
  cases m with
  | nil => rfl
  | cons p m =>
    obtain ⟨k, x⟩ := p
    simp only [Mem.wfFrom, Bool.and_eq_true, bne_iff_ne, ne_eq] at h ⊢
    refine ⟨⟨?_, h.1.2⟩, h.2⟩
    cases lo with
    | none => rfl
    | some l =>
      obtain ⟨u, rfl, hu⟩ := le l rfl
      have := h.1.1
      simp only [Mem.above, decide_eq_true_eq] at this ⊢
      omega

theorem Mem.wfFrom_erase {lo : Option Nat} {m : Mem} (a : Nat) (h : Mem.wfFrom lo m = true) :
    Mem.wfFrom lo (m.erase a) = true := by
  induction m generalizing lo with
  | nil => rfl
  | cons p m ih =>
    obtain ⟨k, x⟩ := p
    simp only [Mem.wfFrom, Bool.and_eq_true, bne_iff_ne, ne_eq] at h
    simp only [Mem.erase] at ih
    by_cases hk : k = a
    · simp only [Mem.erase, List.filter_cons, hk, bne_self_eq_false, Bool.false_eq_true, if_false]
      refine Mem.wfFrom_lower (ih h.2) fun l hl => ⟨k, rfl, ?_⟩
      subst hl
      have := h.1.1
      simp only [Mem.above, decide_eq_true_eq] at this
      omega
    · simp only [Mem.erase, List.filter_cons, bne_iff_ne, ne_eq, hk, not_false_eq_true, if_true, Mem.wfFrom,
        Bool.and_eq_true]
      exact ⟨h.1, ih h.2⟩

theorem Mem.wfFrom_insert {lo : Option Nat} {m : Mem} (a : Nat) (w : Word) (hw : w ≠ unlisted)
    (h : Mem.wfFrom lo m = true) (ha : Mem.above lo a = true) : Mem.wfFrom lo (Mem.insert a w m) = true := by
  induction m generalizing lo with
  | nil => simp [Mem.insert, Mem.wfFrom, ha, hw]
  | cons p m ih =>
    obtain ⟨k, x⟩ := p
    simp only [Mem.wfFrom, Bool.and_eq_true, bne_iff_ne, ne_eq] at h
    simp only [Mem.insert]
    split
    · next hlt =>
      have hk : Mem.above (some a) k = true := by simp only [Mem.above, decide_eq_true_eq]; exact hlt
      simp [Mem.wfFrom, ha, hw, hk, h]
    · split
      · next heq => subst heq; simp [Mem.wfFrom, ha, hw, h]
      · next h1 h2 =>
        simp only [Mem.wfFrom, Bool.and_eq_true, bne_iff_ne, ne_eq]
        exact ⟨h.1, ih h.2 (by simp only [Mem.above, decide_eq_true_eq]; omega)⟩

/-- Every write keeps the canonical form. -/
theorem Mem.wf_write {m : Mem} (a : Nat) (w : Word) (h : m.wf = true) : (m.write a w).wf = true := by
  unfold Mem.write
  split
  · exact Mem.wfFrom_erase a h
  · next hw => exact Mem.wfFrom_insert a w hw h rfl

/-- In canonical form, equal readings are equal lists: a memory is determined by what it reads. -/
theorem Mem.eq_of_read_from {lo : Option Nat} {m n : Mem} (hm : Mem.wfFrom lo m = true) (hn : Mem.wfFrom lo n = true)
    (h : ∀ a, m.read a = n.read a) : m = n := by
  have low : ∀ (l : Nat) (q : Mem), Mem.wfFrom (some l) q = true → ∀ b ≤ l, q.read b = unlisted := by
    intro l q
    induction q generalizing l with
    | nil => intros; rfl
    | cons p q ih =>
      obtain ⟨k, x⟩ := p
      intro hq b hb
      simp only [Mem.wfFrom, Mem.above, Bool.and_eq_true, decide_eq_true_eq, bne_iff_ne, ne_eq] at hq
      have hne : b ≠ k := by omega
      simp only [Mem.read, hne, if_false]
      exact ih k hq.2 b (by omega)
  induction m generalizing lo n with
  | nil =>
    cases n with
    | nil => rfl
    | cons p n =>
      obtain ⟨k, x⟩ := p
      simp only [Mem.wfFrom, Bool.and_eq_true, bne_iff_ne, ne_eq] at hn
      have := h k
      simp only [Mem.read, if_true] at this
      exact absurd this.symm hn.1.2
  | cons p m ih =>
    obtain ⟨k, x⟩ := p
    simp only [Mem.wfFrom, Bool.and_eq_true, bne_iff_ne, ne_eq] at hm
    cases n with
    | nil =>
      have := h k
      simp only [Mem.read, if_true] at this
      exact absurd this hm.1.2
    | cons q n =>
      obtain ⟨j, y⟩ := q
      simp only [Mem.wfFrom, Bool.and_eq_true, bne_iff_ne, ne_eq] at hn
      have hkj : k = j := by
        rcases Nat.lt_trichotomy k j with hlt | heq | hlt
        · have := h k
          have hne : k ≠ j := by omega
          simp only [Mem.read, if_true, hne, if_false] at this
          rw [low j n hn.2 k (by omega)] at this
          exact absurd this hm.1.2
        · exact heq
        · have := h j
          have hne : j ≠ k := by omega
          simp only [Mem.read, if_true, hne, if_false] at this
          rw [low k m hm.2 j (by omega)] at this
          exact absurd this.symm hn.1.2
      subst hkj
      have hx : x = y := by simpa [Mem.read] using h k
      subst hx
      congr 1
      refine ih hm.2 hn.2 fun a => ?_
      by_cases ha : a ≤ k
      · rw [low k m hm.2 a ha, low k n hn.2 a ha]
      · have := h a
        have hne : a ≠ k := by omega
        simpa [Mem.read, hne] using this

theorem Mem.eq_of_read {m n : Mem} (hm : m.wf = true) (hn : n.wf = true) (h : ∀ a, m.read a = n.read a) : m = n :=
  Mem.eq_of_read_from hm hn h

/-! ## The memories of a state -/

theorem Memory.wf_iff (s : State) : Memory.wf s = true ↔
    s.mem.p.wf = true ∧ s.mem.x.wf = true ∧ s.mem.y.wf = true ∧ s.mem.pExt.wf = true ∧ s.cache.data.wf = true := by
  simp [Memory.wf, and_assoc]

/-- The canonical form depends on the memories and the cache alone. -/
theorem Memory.wf_congr {s t : State} (hm : t.mem = s.mem) (hc : t.cache.data = s.cache.data) :
    Memory.wf t = Memory.wf s := by
  simp [Memory.wf, hm, hc]

theorem Memory.wf_reset : Memory.wf State.reset = true := by decide

end Sys2Proof.Machine
end

