-- ==== Sys2Proof/Laws/Keeps.lean ====
section
/-!
SUPPORT. What each shared operation leaves alone: one lemma for each part of the state that it does not write.
-/
namespace Sys2Proof.Machine

variable (s : State)

/-! ## Io -/

@[simp] theorem State.withEcho_keeps (k : Nat) (m w : Word) (n : Nat) :
    (s.withEcho k m w n).alu = s.alu ∧ (s.withEcho k m w n).agu = s.agu ∧ (s.withEcho k m w n).pcu = s.pcu ∧
    (s.withEcho k m w n).mem = s.mem ∧ (s.withEcho k m w n).port = s.port ∧ (s.withEcho k m w n).dma = s.dma ∧
    (s.withEcho k m w n).cache = s.cache ∧ (s.withEcho k m w n).irq = s.irq ∧
    (s.withEcho k m w n).ctl.phase = s.ctl.phase ∧ (s.withEcho k m w n).ctl.ctx = s.ctl.ctx ∧
    (s.withEcho k m w n).ctl.rep = s.ctl.rep ∧ (s.withEcho k m w n).ctl.freeCtr = s.ctl.freeCtr ∧
    (s.withEcho k m w n).ctl.fresh = s.ctl.fresh ∧ (s.withEcho k m w n).ctl.written = s.ctl.written ∧
    (s.withEcho k m w n).ctl.late = s.ctl.late ∧ (s.withEcho k m w n).ctl.spilled = s.ctl.spilled ∧
    (s.withEcho k m w n).ctl.hist = s.ctl.hist ∧ (s.withEcho k m w n).ctl.pdb = s.ctl.pdb ∧
    (s.withEcho k m w n).once = s.once ∧ (s.withEcho k m w n).jtag = s.jtag ∧ (s.withEcho k m w n).env = s.env := by
  simp only [State.withEcho]; (repeat' split) <;> simp

@[simp] theorem State.dmaInterrupt_keeps (n : Fin 6) (d : Word) :
    (s.dmaInterrupt n d).alu = s.alu ∧ (s.dmaInterrupt n d).agu = s.agu ∧ (s.dmaInterrupt n d).pcu = s.pcu ∧
    (s.dmaInterrupt n d).mem = s.mem ∧ (s.dmaInterrupt n d).port = s.port ∧ (s.dmaInterrupt n d).dma = s.dma ∧
    (s.dmaInterrupt n d).cache = s.cache ∧ (s.dmaInterrupt n d).irq.iprc = s.irq.iprc ∧
    (s.dmaInterrupt n d).irq.iprp = s.irq.iprp ∧ (s.dmaInterrupt n d).irq.pins = s.irq.pins ∧
    (s.dmaInterrupt n d).irq.nmi = s.irq.nmi ∧ (s.dmaInterrupt n d).irq.de = s.irq.de ∧
    (s.dmaInterrupt n d).irq.rst = s.irq.rst ∧ (s.dmaInterrupt n d).irq.oldMask = s.irq.oldMask ∧
    (s.dmaInterrupt n d).irq.window = s.irq.window ∧ (s.dmaInterrupt n d).ctl = s.ctl ∧
    (s.dmaInterrupt n d).once = s.once ∧ (s.dmaInterrupt n d).jtag = s.jtag ∧ (s.dmaInterrupt n d).env = s.env := by
  simp only [State.dmaInterrupt]; (repeat' split) <;> simp

@[simp] theorem State.writeDcr_keeps (n : Fin 6) (v : Word) :
    (s.writeDcr n v).alu = s.alu ∧ (s.writeDcr n v).agu = s.agu ∧ (s.writeDcr n v).pcu = s.pcu ∧
    (s.writeDcr n v).mem = s.mem ∧ (s.writeDcr n v).port = s.port ∧ (s.writeDcr n v).dma.dor = s.dma.dor ∧
    (s.writeDcr n v).dma.last = s.dma.last ∧ (s.writeDcr n v).dma.held = s.dma.held ∧
    (s.writeDcr n v).cache = s.cache ∧ (s.writeDcr n v).irq.iprc = s.irq.iprc ∧
    (s.writeDcr n v).irq.iprp = s.irq.iprp ∧ (s.writeDcr n v).irq.pins = s.irq.pins ∧
    (s.writeDcr n v).irq.nmi = s.irq.nmi ∧ (s.writeDcr n v).irq.de = s.irq.de ∧ (s.writeDcr n v).irq.rst = s.irq.rst ∧
    (s.writeDcr n v).irq.oldMask = s.irq.oldMask ∧ (s.writeDcr n v).irq.window = s.irq.window ∧
    (s.writeDcr n v).ctl = s.ctl ∧ (s.writeDcr n v).once = s.once ∧ (s.writeDcr n v).jtag = s.jtag ∧
    (s.writeDcr n v).env = s.env := by
  simp only [State.writeDcr]; (repeat' split) <;> simp

@[simp] theorem State.writeDmaAddr_keeps (n : Fin 6) (f : Nat) (v : Word) :
    (s.writeDmaAddr n f v).alu = s.alu ∧ (s.writeDmaAddr n f v).agu = s.agu ∧ (s.writeDmaAddr n f v).pcu = s.pcu ∧
    (s.writeDmaAddr n f v).mem = s.mem ∧ (s.writeDmaAddr n f v).port = s.port ∧
    (s.writeDmaAddr n f v).dma.dor = s.dma.dor ∧ (s.writeDmaAddr n f v).dma.dtd = s.dma.dtd ∧
    (s.writeDmaAddr n f v).dma.last = s.dma.last ∧ (s.writeDmaAddr n f v).dma.held = s.dma.held ∧
    (s.writeDmaAddr n f v).cache = s.cache ∧ (s.writeDmaAddr n f v).irq = s.irq ∧ (s.writeDmaAddr n f v).ctl = s.ctl ∧
    (s.writeDmaAddr n f v).once = s.once ∧ (s.writeDmaAddr n f v).jtag = s.jtag ∧
    (s.writeDmaAddr n f v).env = s.env := by
  simp only [State.writeDmaAddr]; (repeat' split) <;> simp

@[simp] theorem State.writeDmaReg_keeps (n : Fin 6) (f : Nat) (v : Word) :
    (s.writeDmaReg n f v).alu = s.alu ∧ (s.writeDmaReg n f v).agu = s.agu ∧ (s.writeDmaReg n f v).pcu = s.pcu ∧
    (s.writeDmaReg n f v).mem = s.mem ∧ (s.writeDmaReg n f v).port = s.port ∧
    (s.writeDmaReg n f v).dma.dor = s.dma.dor ∧ (s.writeDmaReg n f v).dma.last = s.dma.last ∧
    (s.writeDmaReg n f v).dma.held = s.dma.held ∧ (s.writeDmaReg n f v).cache = s.cache ∧
    (s.writeDmaReg n f v).irq.iprc = s.irq.iprc ∧ (s.writeDmaReg n f v).irq.iprp = s.irq.iprp ∧
    (s.writeDmaReg n f v).irq.pins = s.irq.pins ∧ (s.writeDmaReg n f v).irq.nmi = s.irq.nmi ∧
    (s.writeDmaReg n f v).irq.de = s.irq.de ∧ (s.writeDmaReg n f v).irq.rst = s.irq.rst ∧
    (s.writeDmaReg n f v).irq.oldMask = s.irq.oldMask ∧ (s.writeDmaReg n f v).irq.window = s.irq.window ∧
    (s.writeDmaReg n f v).ctl.phase = s.ctl.phase ∧ (s.writeDmaReg n f v).ctl.ctx = s.ctl.ctx ∧
    (s.writeDmaReg n f v).ctl.rep = s.ctl.rep ∧ (s.writeDmaReg n f v).ctl.freeCtr = s.ctl.freeCtr ∧
    (s.writeDmaReg n f v).ctl.fresh = s.ctl.fresh ∧ (s.writeDmaReg n f v).ctl.written = s.ctl.written ∧
    (s.writeDmaReg n f v).ctl.late = s.ctl.late ∧ (s.writeDmaReg n f v).ctl.spilled = s.ctl.spilled ∧
    (s.writeDmaReg n f v).ctl.hist = s.ctl.hist ∧ (s.writeDmaReg n f v).ctl.pdb = s.ctl.pdb ∧
    (s.writeDmaReg n f v).once = s.once ∧ (s.writeDmaReg n f v).jtag = s.jtag ∧
    (s.writeDmaReg n f v).env = s.env := by
  simp only [State.writeDmaReg]; (repeat' split) <;> simp

@[simp] theorem State.writeDramCtrl_keeps (v : Word) :
    (s.writeDramCtrl v).alu = s.alu ∧ (s.writeDramCtrl v).agu = s.agu ∧ (s.writeDramCtrl v).pcu = s.pcu ∧
    (s.writeDramCtrl v).mem = s.mem ∧ (s.writeDramCtrl v).port.pctl = s.port.pctl ∧
    (s.writeDramCtrl v).port.bcr = s.port.bcr ∧ (s.writeDramCtrl v).port.aar = s.port.aar ∧
    (s.writeDramCtrl v).dma = s.dma ∧ (s.writeDramCtrl v).cache = s.cache ∧ (s.writeDramCtrl v).irq = s.irq ∧
    (s.writeDramCtrl v).ctl.phase = s.ctl.phase ∧ (s.writeDramCtrl v).ctl.ctx = s.ctl.ctx ∧
    (s.writeDramCtrl v).ctl.rep = s.ctl.rep ∧ (s.writeDramCtrl v).ctl.freeCtr = s.ctl.freeCtr ∧
    (s.writeDramCtrl v).ctl.fresh = s.ctl.fresh ∧ (s.writeDramCtrl v).ctl.written = s.ctl.written ∧
    (s.writeDramCtrl v).ctl.late = s.ctl.late ∧ (s.writeDramCtrl v).ctl.spilled = s.ctl.spilled ∧
    (s.writeDramCtrl v).ctl.hist = s.ctl.hist ∧ (s.writeDramCtrl v).ctl.pdb = s.ctl.pdb ∧
    (s.writeDramCtrl v).once = s.once ∧ (s.writeDramCtrl v).jtag = s.jtag ∧ (s.writeDramCtrl v).env = s.env := by
  simp only [State.writeDramCtrl]; (repeat' split) <;> simp

@[simp] theorem State.writeCoreReg_keeps (k : Nat) (v : Word) :
    (s.writeCoreReg k v).alu = s.alu ∧ (s.writeCoreReg k v).agu = s.agu ∧ (s.writeCoreReg k v).pcu = s.pcu ∧
    (s.writeCoreReg k v).mem = s.mem ∧ (s.writeCoreReg k v).dma.last = s.dma.last ∧
    (s.writeCoreReg k v).dma.held = s.dma.held ∧ (s.writeCoreReg k v).cache = s.cache ∧
    (s.writeCoreReg k v).irq.pins = s.irq.pins ∧ (s.writeCoreReg k v).irq.nmi = s.irq.nmi ∧
    (s.writeCoreReg k v).irq.de = s.irq.de ∧ (s.writeCoreReg k v).irq.rst = s.irq.rst ∧
    (s.writeCoreReg k v).irq.oldMask = s.irq.oldMask ∧ (s.writeCoreReg k v).irq.window = s.irq.window ∧
    (s.writeCoreReg k v).ctl.phase = s.ctl.phase ∧ (s.writeCoreReg k v).ctl.ctx = s.ctl.ctx ∧
    (s.writeCoreReg k v).ctl.rep = s.ctl.rep ∧ (s.writeCoreReg k v).ctl.freeCtr = s.ctl.freeCtr ∧
    (s.writeCoreReg k v).ctl.fresh = s.ctl.fresh ∧ (s.writeCoreReg k v).ctl.written = s.ctl.written ∧
    (s.writeCoreReg k v).ctl.late = s.ctl.late ∧ (s.writeCoreReg k v).ctl.spilled = s.ctl.spilled ∧
    (s.writeCoreReg k v).ctl.hist = s.ctl.hist ∧ (s.writeCoreReg k v).ctl.pdb = s.ctl.pdb ∧
    (s.writeCoreReg k v).jtag = s.jtag ∧ (s.writeCoreReg k v).env = s.env := by
  generalize ht : s.writeCoreReg k v = t
  simp only [State.writeCoreReg] at ht
  (repeat' split at ht) <;> subst ht <;> simp

@[simp] theorem State.writeData_keeps (sp : Space) (a w : Word) :
    (s.writeData sp a w).alu = s.alu ∧ (s.writeData sp a w).agu = s.agu ∧ (s.writeData sp a w).pcu = s.pcu ∧
    (s.writeData sp a w).mem.p = s.mem.p ∧ (s.writeData sp a w).mem.pExt = s.mem.pExt ∧
    (s.writeData sp a w).dma.last = s.dma.last ∧ (s.writeData sp a w).dma.held = s.dma.held ∧
    (s.writeData sp a w).cache = s.cache ∧ (s.writeData sp a w).irq.pins = s.irq.pins ∧
    (s.writeData sp a w).irq.nmi = s.irq.nmi ∧ (s.writeData sp a w).irq.de = s.irq.de ∧
    (s.writeData sp a w).irq.rst = s.irq.rst ∧ (s.writeData sp a w).irq.oldMask = s.irq.oldMask ∧
    (s.writeData sp a w).irq.window = s.irq.window ∧ (s.writeData sp a w).ctl.phase = s.ctl.phase ∧
    (s.writeData sp a w).ctl.ctx = s.ctl.ctx ∧ (s.writeData sp a w).ctl.rep = s.ctl.rep ∧
    (s.writeData sp a w).ctl.freeCtr = s.ctl.freeCtr ∧ (s.writeData sp a w).ctl.fresh = s.ctl.fresh ∧
    (s.writeData sp a w).ctl.written = s.ctl.written ∧ (s.writeData sp a w).ctl.late = s.ctl.late ∧
    (s.writeData sp a w).ctl.spilled = s.ctl.spilled ∧ (s.writeData sp a w).ctl.hist = s.ctl.hist ∧
    (s.writeData sp a w).ctl.pdb = s.ctl.pdb ∧ (s.writeData sp a w).jtag = s.jtag ∧
    (s.writeData sp a w).env = s.env := by
  simp only [State.writeData]; (repeat' split) <;> simp

@[simp] theorem State.pRawWrite_keeps (a w : Word) :
    (s.pRawWrite a w).alu = s.alu ∧ (s.pRawWrite a w).agu = s.agu ∧ (s.pRawWrite a w).pcu = s.pcu ∧
    (s.pRawWrite a w).mem.x = s.mem.x ∧ (s.pRawWrite a w).mem.y = s.mem.y ∧ (s.pRawWrite a w).port = s.port ∧
    (s.pRawWrite a w).dma = s.dma ∧ (s.pRawWrite a w).cache = s.cache ∧ (s.pRawWrite a w).irq = s.irq ∧
    (s.pRawWrite a w).ctl = s.ctl ∧ (s.pRawWrite a w).once = s.once ∧ (s.pRawWrite a w).jtag = s.jtag ∧
    (s.pRawWrite a w).env = s.env := by
  simp only [State.pRawWrite]; (repeat' split) <;> simp

@[simp] theorem State.writeP_keeps (a w : Word) :
    (s.writeP a w).alu = s.alu ∧ (s.writeP a w).agu = s.agu ∧ (s.writeP a w).pcu = s.pcu ∧
    (s.writeP a w).mem.x = s.mem.x ∧ (s.writeP a w).mem.y = s.mem.y ∧ (s.writeP a w).port = s.port ∧
    (s.writeP a w).dma = s.dma ∧ (s.writeP a w).irq = s.irq ∧ (s.writeP a w).ctl = s.ctl ∧
    (s.writeP a w).once = s.once ∧ (s.writeP a w).jtag = s.jtag ∧ (s.writeP a w).env = s.env := by
  simp only [State.writeP]; (repeat' split) <;> simp

@[simp] theorem State.scrambleCacheRam_keeps  :
    (s.scrambleCacheRam).alu = s.alu ∧ (s.scrambleCacheRam).agu = s.agu ∧ (s.scrambleCacheRam).pcu = s.pcu ∧
    (s.scrambleCacheRam).mem.x = s.mem.x ∧ (s.scrambleCacheRam).mem.y = s.mem.y ∧
    (s.scrambleCacheRam).mem.pExt = s.mem.pExt ∧ (s.scrambleCacheRam).port = s.port ∧
    (s.scrambleCacheRam).dma = s.dma ∧ (s.scrambleCacheRam).cache = s.cache ∧ (s.scrambleCacheRam).irq = s.irq ∧
    (s.scrambleCacheRam).ctl = s.ctl ∧ (s.scrambleCacheRam).once = s.once ∧ (s.scrambleCacheRam).jtag = s.jtag ∧
    (s.scrambleCacheRam).env = s.env := by simp [State.scrambleCacheRam]

@[simp] theorem State.leaveCacheMode_keeps  :
    (s.leaveCacheMode).alu = s.alu ∧ (s.leaveCacheMode).agu = s.agu ∧ (s.leaveCacheMode).pcu = s.pcu ∧
    (s.leaveCacheMode).mem.x = s.mem.x ∧ (s.leaveCacheMode).mem.y = s.mem.y ∧
    (s.leaveCacheMode).mem.pExt = s.mem.pExt ∧ (s.leaveCacheMode).port = s.port ∧ (s.leaveCacheMode).dma = s.dma ∧
    (s.leaveCacheMode).irq = s.irq ∧ (s.leaveCacheMode).ctl = s.ctl ∧ (s.leaveCacheMode).once = s.once ∧
    (s.leaveCacheMode).jtag = s.jtag ∧ (s.leaveCacheMode).env = s.env := by simp [State.leaveCacheMode]

@[simp] theorem State.writeSr_keeps (v : Word) :
    (s.writeSr v).alu = s.alu ∧ (s.writeSr v).agu = s.agu ∧ (s.writeSr v).pcu.pc = s.pcu.pc ∧
    (s.writeSr v).pcu.omr = s.pcu.omr ∧ (s.writeSr v).pcu.vba = s.pcu.vba ∧ (s.writeSr v).pcu.la = s.pcu.la ∧
    (s.writeSr v).pcu.lc = s.pcu.lc ∧ (s.writeSr v).pcu.sp = s.pcu.sp ∧ (s.writeSr v).pcu.sc = s.pcu.sc ∧
    (s.writeSr v).pcu.sz = s.pcu.sz ∧ (s.writeSr v).pcu.ssh = s.pcu.ssh ∧ (s.writeSr v).pcu.ssl = s.pcu.ssl ∧
    (s.writeSr v).mem.x = s.mem.x ∧ (s.writeSr v).mem.y = s.mem.y ∧ (s.writeSr v).mem.pExt = s.mem.pExt ∧
    (s.writeSr v).port = s.port ∧ (s.writeSr v).dma = s.dma ∧ (s.writeSr v).irq = s.irq ∧ (s.writeSr v).ctl = s.ctl ∧
    (s.writeSr v).once = s.once ∧ (s.writeSr v).jtag = s.jtag ∧ (s.writeSr v).env = s.env := by
  simp only [State.writeSr]; (repeat' split) <;> simp

@[simp] theorem State.writeOmr_keeps (v : Word) :
    (s.writeOmr v).alu = s.alu ∧ (s.writeOmr v).agu = s.agu ∧ (s.writeOmr v).pcu.pc = s.pcu.pc ∧
    (s.writeOmr v).pcu.sr = s.pcu.sr ∧ (s.writeOmr v).pcu.vba = s.pcu.vba ∧ (s.writeOmr v).pcu.la = s.pcu.la ∧
    (s.writeOmr v).pcu.lc = s.pcu.lc ∧ (s.writeOmr v).pcu.sp = s.pcu.sp ∧ (s.writeOmr v).pcu.sc = s.pcu.sc ∧
    (s.writeOmr v).pcu.sz = s.pcu.sz ∧ (s.writeOmr v).pcu.ssh = s.pcu.ssh ∧ (s.writeOmr v).pcu.ssl = s.pcu.ssl ∧
    (s.writeOmr v).mem = s.mem ∧ (s.writeOmr v).port.pctl = s.port.pctl ∧ (s.writeOmr v).port.bcr = s.port.bcr ∧
    (s.writeOmr v).port.aar = s.port.aar ∧ (s.writeOmr v).dma = s.dma ∧ (s.writeOmr v).cache = s.cache ∧
    (s.writeOmr v).irq = s.irq ∧ (s.writeOmr v).ctl = s.ctl ∧ (s.writeOmr v).once = s.once ∧
    (s.writeOmr v).jtag = s.jtag ∧ (s.writeOmr v).env = s.env := by
  simp only [State.writeOmr]; (repeat' split) <;> simp

/-! ## The stack -/

@[simp] theorem State.stackError_keeps  :
    (s.stackError).alu = s.alu ∧ (s.stackError).agu = s.agu ∧ (s.stackError).pcu = s.pcu ∧
    (s.stackError).mem = s.mem ∧ (s.stackError).port = s.port ∧ (s.stackError).dma = s.dma ∧
    (s.stackError).cache = s.cache ∧ (s.stackError).irq.iprc = s.irq.iprc ∧ (s.stackError).irq.iprp = s.irq.iprp ∧
    (s.stackError).irq.pins = s.irq.pins ∧ (s.stackError).irq.nmi = s.irq.nmi ∧ (s.stackError).irq.de = s.irq.de ∧
    (s.stackError).irq.rst = s.irq.rst ∧ (s.stackError).irq.oldMask = s.irq.oldMask ∧
    (s.stackError).irq.window = s.irq.window ∧ (s.stackError).ctl = s.ctl ∧ (s.stackError).once = s.once ∧
    (s.stackError).jtag = s.jtag ∧ (s.stackError).env = s.env := by simp [State.stackError]

@[simp] theorem State.spUp_keeps  :
    (s.spUp).alu = s.alu ∧ (s.spUp).agu = s.agu ∧ (s.spUp).pcu.pc = s.pcu.pc ∧ (s.spUp).pcu.sr = s.pcu.sr ∧
    (s.spUp).pcu.vba = s.pcu.vba ∧ (s.spUp).pcu.la = s.pcu.la ∧ (s.spUp).pcu.lc = s.pcu.lc ∧
    (s.spUp).pcu.sc = s.pcu.sc ∧ (s.spUp).pcu.sz = s.pcu.sz ∧ (s.spUp).pcu.ssh = s.pcu.ssh ∧
    (s.spUp).pcu.ssl = s.pcu.ssl ∧ (s.spUp).mem = s.mem ∧ (s.spUp).port = s.port ∧ (s.spUp).dma = s.dma ∧
    (s.spUp).cache = s.cache ∧ (s.spUp).irq.iprc = s.irq.iprc ∧ (s.spUp).irq.iprp = s.irq.iprp ∧
    (s.spUp).irq.pins = s.irq.pins ∧ (s.spUp).irq.nmi = s.irq.nmi ∧ (s.spUp).irq.de = s.irq.de ∧
    (s.spUp).irq.rst = s.irq.rst ∧ (s.spUp).irq.oldMask = s.irq.oldMask ∧ (s.spUp).irq.window = s.irq.window ∧
    (s.spUp).ctl = s.ctl ∧ (s.spUp).once = s.once ∧ (s.spUp).jtag = s.jtag ∧ (s.spUp).env = s.env := by
  simp only [State.spUp]; (repeat' split) <;> simp

@[simp] theorem State.spDown_keeps  :
    (s.spDown).alu = s.alu ∧ (s.spDown).agu = s.agu ∧ (s.spDown).pcu.pc = s.pcu.pc ∧ (s.spDown).pcu.sr = s.pcu.sr ∧
    (s.spDown).pcu.vba = s.pcu.vba ∧ (s.spDown).pcu.la = s.pcu.la ∧ (s.spDown).pcu.lc = s.pcu.lc ∧
    (s.spDown).pcu.sc = s.pcu.sc ∧ (s.spDown).pcu.sz = s.pcu.sz ∧ (s.spDown).pcu.ssh = s.pcu.ssh ∧
    (s.spDown).pcu.ssl = s.pcu.ssl ∧ (s.spDown).mem = s.mem ∧ (s.spDown).port = s.port ∧ (s.spDown).dma = s.dma ∧
    (s.spDown).cache = s.cache ∧ (s.spDown).irq.iprc = s.irq.iprc ∧ (s.spDown).irq.iprp = s.irq.iprp ∧
    (s.spDown).irq.pins = s.irq.pins ∧ (s.spDown).irq.nmi = s.irq.nmi ∧ (s.spDown).irq.de = s.irq.de ∧
    (s.spDown).irq.rst = s.irq.rst ∧ (s.spDown).irq.oldMask = s.irq.oldMask ∧ (s.spDown).irq.window = s.irq.window ∧
    (s.spDown).ctl = s.ctl ∧ (s.spDown).once = s.once ∧ (s.spDown).jtag = s.jtag ∧ (s.spDown).env = s.env := by
  simp only [State.spDown]; (repeat' split) <;> simp

@[simp] theorem State.spill_keeps  :
    (s.spill).alu = s.alu ∧ (s.spill).agu.r = s.agu.r ∧ (s.spill).agu.n = s.agu.n ∧ (s.spill).agu.m = s.agu.m ∧
    (s.spill).pcu.pc = s.pcu.pc ∧ (s.spill).pcu.sr = s.pcu.sr ∧ (s.spill).pcu.vba = s.pcu.vba ∧
    (s.spill).pcu.la = s.pcu.la ∧ (s.spill).pcu.lc = s.pcu.lc ∧ (s.spill).pcu.sp = s.pcu.sp ∧
    (s.spill).pcu.sz = s.pcu.sz ∧ (s.spill).pcu.ssh = s.pcu.ssh ∧ (s.spill).pcu.ssl = s.pcu.ssl ∧
    (s.spill).mem.p = s.mem.p ∧ (s.spill).mem.pExt = s.mem.pExt ∧ (s.spill).dma.last = s.dma.last ∧
    (s.spill).dma.held = s.dma.held ∧ (s.spill).cache = s.cache ∧ (s.spill).irq.pins = s.irq.pins ∧
    (s.spill).irq.nmi = s.irq.nmi ∧ (s.spill).irq.de = s.irq.de ∧ (s.spill).irq.rst = s.irq.rst ∧
    (s.spill).irq.oldMask = s.irq.oldMask ∧ (s.spill).irq.window = s.irq.window ∧ (s.spill).ctl.phase = s.ctl.phase ∧
    (s.spill).ctl.ctx = s.ctl.ctx ∧ (s.spill).ctl.rep = s.ctl.rep ∧ (s.spill).ctl.freeCtr = s.ctl.freeCtr ∧
    (s.spill).ctl.fresh = s.ctl.fresh ∧ (s.spill).ctl.written = s.ctl.written ∧ (s.spill).ctl.late = s.ctl.late ∧
    (s.spill).ctl.spilled = s.ctl.spilled ∧ (s.spill).ctl.hist = s.ctl.hist ∧ (s.spill).ctl.pdb = s.ctl.pdb ∧
    (s.spill).jtag = s.jtag ∧ (s.spill).env = s.env := by simp [State.spill]

@[simp] theorem State.refill_keeps  :
    (s.refill).alu = s.alu ∧ (s.refill).agu.r = s.agu.r ∧ (s.refill).agu.n = s.agu.n ∧ (s.refill).agu.m = s.agu.m ∧
    (s.refill).pcu.pc = s.pcu.pc ∧ (s.refill).pcu.sr = s.pcu.sr ∧ (s.refill).pcu.omr = s.pcu.omr ∧
    (s.refill).pcu.vba = s.pcu.vba ∧ (s.refill).pcu.la = s.pcu.la ∧ (s.refill).pcu.lc = s.pcu.lc ∧
    (s.refill).pcu.sp = s.pcu.sp ∧ (s.refill).pcu.sz = s.pcu.sz ∧ (s.refill).mem = s.mem ∧ (s.refill).port = s.port ∧
    (s.refill).dma = s.dma ∧ (s.refill).cache = s.cache ∧ (s.refill).irq = s.irq ∧ (s.refill).ctl = s.ctl ∧
    (s.refill).once = s.once ∧ (s.refill).jtag = s.jtag ∧ (s.refill).env = s.env := by simp [State.refill]

@[simp] theorem State.balance_keeps  :
    (s.balance).alu = s.alu ∧ (s.balance).agu.r = s.agu.r ∧ (s.balance).agu.n = s.agu.n ∧
    (s.balance).agu.m = s.agu.m ∧ (s.balance).pcu.pc = s.pcu.pc ∧ (s.balance).pcu.sr = s.pcu.sr ∧
    (s.balance).pcu.vba = s.pcu.vba ∧ (s.balance).pcu.la = s.pcu.la ∧ (s.balance).pcu.lc = s.pcu.lc ∧
    (s.balance).pcu.sz = s.pcu.sz ∧ (s.balance).mem.p = s.mem.p ∧ (s.balance).mem.pExt = s.mem.pExt ∧
    (s.balance).dma.last = s.dma.last ∧ (s.balance).dma.held = s.dma.held ∧ (s.balance).cache = s.cache ∧
    (s.balance).irq.pins = s.irq.pins ∧ (s.balance).irq.nmi = s.irq.nmi ∧ (s.balance).irq.de = s.irq.de ∧
    (s.balance).irq.rst = s.irq.rst ∧ (s.balance).irq.oldMask = s.irq.oldMask ∧
    (s.balance).irq.window = s.irq.window ∧ (s.balance).ctl.phase = s.ctl.phase ∧ (s.balance).ctl.ctx = s.ctl.ctx ∧
    (s.balance).ctl.rep = s.ctl.rep ∧ (s.balance).ctl.freeCtr = s.ctl.freeCtr ∧ (s.balance).ctl.fresh = s.ctl.fresh ∧
    (s.balance).ctl.written = s.ctl.written ∧ (s.balance).ctl.late = s.ctl.late ∧
    (s.balance).ctl.spilled = s.ctl.spilled ∧ (s.balance).ctl.hist = s.ctl.hist ∧ (s.balance).ctl.pdb = s.ctl.pdb ∧
    (s.balance).jtag = s.jtag ∧ (s.balance).env = s.env := by
  simp only [State.balance]; (repeat' split) <;> simp

@[simp] theorem State.afterPush_keeps  :
    (s.afterPush).alu = s.alu ∧ (s.afterPush).agu.r = s.agu.r ∧ (s.afterPush).agu.n = s.agu.n ∧
    (s.afterPush).agu.m = s.agu.m ∧ (s.afterPush).pcu.pc = s.pcu.pc ∧ (s.afterPush).pcu.sr = s.pcu.sr ∧
    (s.afterPush).pcu.vba = s.pcu.vba ∧ (s.afterPush).pcu.la = s.pcu.la ∧ (s.afterPush).pcu.lc = s.pcu.lc ∧
    (s.afterPush).pcu.sp = s.pcu.sp ∧ (s.afterPush).pcu.sz = s.pcu.sz ∧ (s.afterPush).pcu.ssh = s.pcu.ssh ∧
    (s.afterPush).pcu.ssl = s.pcu.ssl ∧ (s.afterPush).mem.p = s.mem.p ∧ (s.afterPush).mem.pExt = s.mem.pExt ∧
    (s.afterPush).dma.last = s.dma.last ∧ (s.afterPush).dma.held = s.dma.held ∧ (s.afterPush).cache = s.cache ∧
    (s.afterPush).irq.pins = s.irq.pins ∧ (s.afterPush).irq.nmi = s.irq.nmi ∧ (s.afterPush).irq.de = s.irq.de ∧
    (s.afterPush).irq.rst = s.irq.rst ∧ (s.afterPush).irq.oldMask = s.irq.oldMask ∧
    (s.afterPush).irq.window = s.irq.window ∧ (s.afterPush).ctl.phase = s.ctl.phase ∧
    (s.afterPush).ctl.ctx = s.ctl.ctx ∧ (s.afterPush).ctl.rep = s.ctl.rep ∧
    (s.afterPush).ctl.freeCtr = s.ctl.freeCtr ∧ (s.afterPush).ctl.fresh = s.ctl.fresh ∧
    (s.afterPush).ctl.written = s.ctl.written ∧ (s.afterPush).ctl.late = s.ctl.late ∧
    (s.afterPush).ctl.spilled = s.ctl.spilled ∧ (s.afterPush).ctl.hist = s.ctl.hist ∧
    (s.afterPush).ctl.pdb = s.ctl.pdb ∧ (s.afterPush).jtag = s.jtag ∧ (s.afterPush).env = s.env := by
  simp only [State.afterPush]; (repeat' split) <;> simp

@[simp] theorem State.afterPull_keeps  :
    (s.afterPull).alu = s.alu ∧ (s.afterPull).agu.r = s.agu.r ∧ (s.afterPull).agu.n = s.agu.n ∧
    (s.afterPull).agu.m = s.agu.m ∧ (s.afterPull).pcu.pc = s.pcu.pc ∧ (s.afterPull).pcu.sr = s.pcu.sr ∧
    (s.afterPull).pcu.omr = s.pcu.omr ∧ (s.afterPull).pcu.vba = s.pcu.vba ∧ (s.afterPull).pcu.la = s.pcu.la ∧
    (s.afterPull).pcu.lc = s.pcu.lc ∧ (s.afterPull).pcu.sp = s.pcu.sp ∧ (s.afterPull).pcu.sz = s.pcu.sz ∧
    (s.afterPull).mem = s.mem ∧ (s.afterPull).port = s.port ∧ (s.afterPull).dma = s.dma ∧
    (s.afterPull).cache = s.cache ∧ (s.afterPull).irq = s.irq ∧ (s.afterPull).ctl = s.ctl ∧
    (s.afterPull).once = s.once ∧ (s.afterPull).jtag = s.jtag ∧ (s.afterPull).env = s.env := by
  simp only [State.afterPull]; (repeat' split) <;> simp

@[simp] theorem State.push_keeps (h l : Word) :
    (s.push h l).alu = s.alu ∧ (s.push h l).agu.r = s.agu.r ∧ (s.push h l).agu.n = s.agu.n ∧
    (s.push h l).agu.m = s.agu.m ∧ (s.push h l).pcu.pc = s.pcu.pc ∧ (s.push h l).pcu.sr = s.pcu.sr ∧
    (s.push h l).pcu.vba = s.pcu.vba ∧ (s.push h l).pcu.la = s.pcu.la ∧ (s.push h l).pcu.lc = s.pcu.lc ∧
    (s.push h l).pcu.sz = s.pcu.sz ∧ (s.push h l).mem.p = s.mem.p ∧ (s.push h l).mem.pExt = s.mem.pExt ∧
    (s.push h l).dma.last = s.dma.last ∧ (s.push h l).dma.held = s.dma.held ∧ (s.push h l).cache = s.cache ∧
    (s.push h l).irq.pins = s.irq.pins ∧ (s.push h l).irq.nmi = s.irq.nmi ∧ (s.push h l).irq.de = s.irq.de ∧
    (s.push h l).irq.rst = s.irq.rst ∧ (s.push h l).irq.oldMask = s.irq.oldMask ∧
    (s.push h l).irq.window = s.irq.window ∧ (s.push h l).ctl.phase = s.ctl.phase ∧ (s.push h l).ctl.ctx = s.ctl.ctx ∧
    (s.push h l).ctl.rep = s.ctl.rep ∧ (s.push h l).ctl.freeCtr = s.ctl.freeCtr ∧
    (s.push h l).ctl.fresh = s.ctl.fresh ∧ (s.push h l).ctl.written = s.ctl.written ∧
    (s.push h l).ctl.late = s.ctl.late ∧ (s.push h l).ctl.spilled = s.ctl.spilled ∧
    (s.push h l).ctl.hist = s.ctl.hist ∧ (s.push h l).ctl.pdb = s.ctl.pdb ∧ (s.push h l).jtag = s.jtag ∧
    (s.push h l).env = s.env := by simp [State.push]

@[simp] theorem State.pop_keeps  :
    (s.pop).alu = s.alu ∧ (s.pop).agu.r = s.agu.r ∧ (s.pop).agu.n = s.agu.n ∧ (s.pop).agu.m = s.agu.m ∧
    (s.pop).pcu.pc = s.pcu.pc ∧ (s.pop).pcu.sr = s.pcu.sr ∧ (s.pop).pcu.vba = s.pcu.vba ∧ (s.pop).pcu.la = s.pcu.la ∧
    (s.pop).pcu.lc = s.pcu.lc ∧ (s.pop).pcu.sz = s.pcu.sz ∧ (s.pop).mem = s.mem ∧ (s.pop).port = s.port ∧
    (s.pop).dma = s.dma ∧ (s.pop).cache = s.cache ∧ (s.pop).irq.iprc = s.irq.iprc ∧ (s.pop).irq.iprp = s.irq.iprp ∧
    (s.pop).irq.pins = s.irq.pins ∧ (s.pop).irq.nmi = s.irq.nmi ∧ (s.pop).irq.de = s.irq.de ∧
    (s.pop).irq.rst = s.irq.rst ∧ (s.pop).irq.oldMask = s.irq.oldMask ∧ (s.pop).irq.window = s.irq.window ∧
    (s.pop).ctl = s.ctl ∧ (s.pop).once = s.once ∧ (s.pop).jtag = s.jtag ∧ (s.pop).env = s.env := by simp [State.pop]

@[simp] theorem State.pushHigh_keeps (h : Word) :
    (s.pushHigh h).alu = s.alu ∧ (s.pushHigh h).agu.r = s.agu.r ∧ (s.pushHigh h).agu.n = s.agu.n ∧
    (s.pushHigh h).agu.m = s.agu.m ∧ (s.pushHigh h).pcu.pc = s.pcu.pc ∧ (s.pushHigh h).pcu.sr = s.pcu.sr ∧
    (s.pushHigh h).pcu.vba = s.pcu.vba ∧ (s.pushHigh h).pcu.la = s.pcu.la ∧ (s.pushHigh h).pcu.lc = s.pcu.lc ∧
    (s.pushHigh h).pcu.sz = s.pcu.sz ∧ (s.pushHigh h).mem.p = s.mem.p ∧ (s.pushHigh h).mem.pExt = s.mem.pExt ∧
    (s.pushHigh h).dma.last = s.dma.last ∧ (s.pushHigh h).dma.held = s.dma.held ∧ (s.pushHigh h).cache = s.cache ∧
    (s.pushHigh h).irq.pins = s.irq.pins ∧ (s.pushHigh h).irq.nmi = s.irq.nmi ∧ (s.pushHigh h).irq.de = s.irq.de ∧
    (s.pushHigh h).irq.rst = s.irq.rst ∧ (s.pushHigh h).irq.oldMask = s.irq.oldMask ∧
    (s.pushHigh h).irq.window = s.irq.window ∧ (s.pushHigh h).ctl.phase = s.ctl.phase ∧
    (s.pushHigh h).ctl.ctx = s.ctl.ctx ∧ (s.pushHigh h).ctl.rep = s.ctl.rep ∧
    (s.pushHigh h).ctl.freeCtr = s.ctl.freeCtr ∧ (s.pushHigh h).ctl.fresh = s.ctl.fresh ∧
    (s.pushHigh h).ctl.written = s.ctl.written ∧ (s.pushHigh h).ctl.late = s.ctl.late ∧
    (s.pushHigh h).ctl.spilled = s.ctl.spilled ∧ (s.pushHigh h).ctl.hist = s.ctl.hist ∧
    (s.pushHigh h).ctl.pdb = s.ctl.pdb ∧ (s.pushHigh h).jtag = s.jtag ∧
    (s.pushHigh h).env = s.env := by simp [State.pushHigh]

/-! ## Registers -/

@[simp] theorem State.applyUpd_keeps (u : Option (Fin 8 × Word)) :
    (s.applyUpd u).alu = s.alu ∧ (s.applyUpd u).agu.n = s.agu.n ∧ (s.applyUpd u).agu.m = s.agu.m ∧
    (s.applyUpd u).agu.ep = s.agu.ep ∧ (s.applyUpd u).pcu = s.pcu ∧ (s.applyUpd u).mem = s.mem ∧
    (s.applyUpd u).port = s.port ∧ (s.applyUpd u).dma = s.dma ∧ (s.applyUpd u).cache = s.cache ∧
    (s.applyUpd u).irq = s.irq ∧ (s.applyUpd u).ctl = s.ctl ∧ (s.applyUpd u).once = s.once ∧
    (s.applyUpd u).jtag = s.jtag ∧ (s.applyUpd u).env = s.env := by unfold State.applyUpd; split <;> simp

@[simp] theorem State.wrXY_keeps (r : XYReg) (w : Word) :
    (s.wrXY r w).alu.a = s.alu.a ∧ (s.wrXY r w).alu.b = s.alu.b ∧ (s.wrXY r w).agu = s.agu ∧
    (s.wrXY r w).pcu = s.pcu ∧ (s.wrXY r w).mem = s.mem ∧ (s.wrXY r w).port = s.port ∧ (s.wrXY r w).dma = s.dma ∧
    (s.wrXY r w).cache = s.cache ∧ (s.wrXY r w).irq = s.irq ∧ (s.wrXY r w).ctl.phase = s.ctl.phase ∧
    (s.wrXY r w).ctl.ctx = s.ctl.ctx ∧ (s.wrXY r w).ctl.rep = s.ctl.rep ∧ (s.wrXY r w).ctl.freeCtr = s.ctl.freeCtr ∧
    (s.wrXY r w).ctl.fresh = s.ctl.fresh ∧ (s.wrXY r w).ctl.late = s.ctl.late ∧
    (s.wrXY r w).ctl.spilled = s.ctl.spilled ∧ (s.wrXY r w).ctl.hist = s.ctl.hist ∧
    (s.wrXY r w).ctl.echo = s.ctl.echo ∧ (s.wrXY r w).ctl.pdb = s.ctl.pdb ∧ (s.wrXY r w).once = s.once ∧
    (s.wrXY r w).jtag = s.jtag ∧ (s.wrXY r w).env = s.env := by
  simp only [State.wrXY]; (repeat' split) <;> simp

@[simp] theorem State.wrAlu_keeps (r : AluReg) (w : Word) :
    (s.wrAlu r w).agu = s.agu ∧ (s.wrAlu r w).pcu = s.pcu ∧ (s.wrAlu r w).mem = s.mem ∧ (s.wrAlu r w).port = s.port ∧
    (s.wrAlu r w).dma = s.dma ∧ (s.wrAlu r w).cache = s.cache ∧ (s.wrAlu r w).irq = s.irq ∧
    (s.wrAlu r w).ctl.phase = s.ctl.phase ∧ (s.wrAlu r w).ctl.ctx = s.ctl.ctx ∧ (s.wrAlu r w).ctl.rep = s.ctl.rep ∧
    (s.wrAlu r w).ctl.freeCtr = s.ctl.freeCtr ∧ (s.wrAlu r w).ctl.fresh = s.ctl.fresh ∧
    (s.wrAlu r w).ctl.late = s.ctl.late ∧ (s.wrAlu r w).ctl.spilled = s.ctl.spilled ∧
    (s.wrAlu r w).ctl.hist = s.ctl.hist ∧ (s.wrAlu r w).ctl.echo = s.ctl.echo ∧ (s.wrAlu r w).ctl.pdb = s.ctl.pdb ∧
    (s.wrAlu r w).once = s.once ∧ (s.wrAlu r w).jtag = s.jtag ∧
    (s.wrAlu r w).env = s.env := by cases r <;> simp [State.wrAlu]

@[simp] theorem State.wrD_keeps (d : DReg) (w : Word) :
    (s.wrD d w).agu.m = s.agu.m ∧ (s.wrD d w).agu.ep = s.agu.ep ∧ (s.wrD d w).pcu = s.pcu ∧ (s.wrD d w).mem = s.mem ∧
    (s.wrD d w).port = s.port ∧ (s.wrD d w).dma = s.dma ∧ (s.wrD d w).cache = s.cache ∧ (s.wrD d w).irq = s.irq ∧
    (s.wrD d w).ctl.phase = s.ctl.phase ∧ (s.wrD d w).ctl.ctx = s.ctl.ctx ∧ (s.wrD d w).ctl.rep = s.ctl.rep ∧
    (s.wrD d w).ctl.freeCtr = s.ctl.freeCtr ∧ (s.wrD d w).ctl.fresh = s.ctl.fresh ∧
    (s.wrD d w).ctl.late = s.ctl.late ∧ (s.wrD d w).ctl.spilled = s.ctl.spilled ∧ (s.wrD d w).ctl.hist = s.ctl.hist ∧
    (s.wrD d w).ctl.echo = s.ctl.echo ∧ (s.wrD d w).ctl.pdb = s.ctl.pdb ∧ (s.wrD d w).once = s.once ∧
    (s.wrD d w).jtag = s.jtag ∧ (s.wrD d w).env = s.env := by cases d <;> simp [State.wrD]

@[simp] theorem State.wrC_keeps (c : CReg) (w : Word) :
    (s.wrC c w).alu = s.alu ∧ (s.wrC c w).agu.r = s.agu.r ∧ (s.wrC c w).agu.n = s.agu.n ∧
    (s.wrC c w).mem.pExt = s.mem.pExt ∧ (s.wrC c w).dma.last = s.dma.last ∧ (s.wrC c w).dma.held = s.dma.held ∧
    (s.wrC c w).irq.pins = s.irq.pins ∧ (s.wrC c w).irq.nmi = s.irq.nmi ∧ (s.wrC c w).irq.de = s.irq.de ∧
    (s.wrC c w).irq.rst = s.irq.rst ∧ (s.wrC c w).irq.oldMask = s.irq.oldMask ∧
    (s.wrC c w).irq.window = s.irq.window ∧ (s.wrC c w).ctl.phase = s.ctl.phase ∧ (s.wrC c w).ctl.ctx = s.ctl.ctx ∧
    (s.wrC c w).ctl.rep = s.ctl.rep ∧ (s.wrC c w).ctl.freeCtr = s.ctl.freeCtr ∧ (s.wrC c w).ctl.fresh = s.ctl.fresh ∧
    (s.wrC c w).ctl.written = s.ctl.written ∧ (s.wrC c w).ctl.late = s.ctl.late ∧
    (s.wrC c w).ctl.spilled = s.ctl.spilled ∧ (s.wrC c w).ctl.hist = s.ctl.hist ∧ (s.wrC c w).ctl.pdb = s.ctl.pdb ∧
    (s.wrC c w).jtag = s.jtag ∧ (s.wrC c w).env = s.env := by cases c <;> simp [State.wrC]

@[simp] theorem State.wrReg_keeps (r : Reg) (w : Word) :
    (s.wrReg r w).mem.pExt = s.mem.pExt ∧ (s.wrReg r w).dma.last = s.dma.last ∧ (s.wrReg r w).dma.held = s.dma.held ∧
    (s.wrReg r w).irq.pins = s.irq.pins ∧ (s.wrReg r w).irq.nmi = s.irq.nmi ∧ (s.wrReg r w).irq.de = s.irq.de ∧
    (s.wrReg r w).irq.rst = s.irq.rst ∧ (s.wrReg r w).irq.oldMask = s.irq.oldMask ∧
    (s.wrReg r w).irq.window = s.irq.window ∧ (s.wrReg r w).ctl.phase = s.ctl.phase ∧
    (s.wrReg r w).ctl.ctx = s.ctl.ctx ∧ (s.wrReg r w).ctl.rep = s.ctl.rep ∧
    (s.wrReg r w).ctl.freeCtr = s.ctl.freeCtr ∧ (s.wrReg r w).ctl.fresh = s.ctl.fresh ∧
    (s.wrReg r w).ctl.late = s.ctl.late ∧ (s.wrReg r w).ctl.spilled = s.ctl.spilled ∧
    (s.wrReg r w).ctl.hist = s.ctl.hist ∧ (s.wrReg r w).ctl.pdb = s.ctl.pdb ∧ (s.wrReg r w).jtag = s.jtag ∧
    (s.wrReg r w).env = s.env := by cases r <;> simp [State.wrReg]

@[simp] theorem State.mergeSL_keeps (r : Rd) :
    (s.mergeSL r).alu = s.alu ∧ (s.mergeSL r).agu = s.agu ∧ (s.mergeSL r).pcu.pc = s.pcu.pc ∧
    (s.mergeSL r).pcu.omr = s.pcu.omr ∧ (s.mergeSL r).pcu.vba = s.pcu.vba ∧ (s.mergeSL r).pcu.la = s.pcu.la ∧
    (s.mergeSL r).pcu.lc = s.pcu.lc ∧ (s.mergeSL r).pcu.sp = s.pcu.sp ∧ (s.mergeSL r).pcu.sc = s.pcu.sc ∧
    (s.mergeSL r).pcu.sz = s.pcu.sz ∧ (s.mergeSL r).pcu.ssh = s.pcu.ssh ∧ (s.mergeSL r).pcu.ssl = s.pcu.ssl ∧
    (s.mergeSL r).mem = s.mem ∧ (s.mergeSL r).port = s.port ∧ (s.mergeSL r).dma = s.dma ∧
    (s.mergeSL r).cache = s.cache ∧ (s.mergeSL r).irq = s.irq ∧ (s.mergeSL r).ctl = s.ctl ∧
    (s.mergeSL r).once = s.once ∧ (s.mergeSL r).jtag = s.jtag ∧ (s.mergeSL r).env = s.env := by simp [State.mergeSL]

@[simp] theorem State.setC_keeps (t : Bool) :
    (s.setC t).alu = s.alu ∧ (s.setC t).agu = s.agu ∧ (s.setC t).pcu.pc = s.pcu.pc ∧ (s.setC t).pcu.omr = s.pcu.omr ∧
    (s.setC t).pcu.vba = s.pcu.vba ∧ (s.setC t).pcu.la = s.pcu.la ∧ (s.setC t).pcu.lc = s.pcu.lc ∧
    (s.setC t).pcu.sp = s.pcu.sp ∧ (s.setC t).pcu.sc = s.pcu.sc ∧ (s.setC t).pcu.sz = s.pcu.sz ∧
    (s.setC t).pcu.ssh = s.pcu.ssh ∧ (s.setC t).pcu.ssl = s.pcu.ssl ∧ (s.setC t).mem = s.mem ∧
    (s.setC t).port = s.port ∧ (s.setC t).dma = s.dma ∧ (s.setC t).cache = s.cache ∧ (s.setC t).irq = s.irq ∧
    (s.setC t).ctl = s.ctl ∧ (s.setC t).once = s.once ∧ (s.setC t).jtag = s.jtag ∧
    (s.setC t).env = s.env := by simp [State.setC]

@[simp] theorem State.rdReg_snd_keeps (r : Reg) :
    ((s.rdReg r).2).alu = s.alu ∧ ((s.rdReg r).2).agu.r = s.agu.r ∧ ((s.rdReg r).2).agu.n = s.agu.n ∧
    ((s.rdReg r).2).agu.m = s.agu.m ∧ ((s.rdReg r).2).pcu.pc = s.pcu.pc ∧ ((s.rdReg r).2).pcu.vba = s.pcu.vba ∧
    ((s.rdReg r).2).pcu.la = s.pcu.la ∧ ((s.rdReg r).2).pcu.lc = s.pcu.lc ∧ ((s.rdReg r).2).pcu.sz = s.pcu.sz ∧
    ((s.rdReg r).2).mem = s.mem ∧ ((s.rdReg r).2).port = s.port ∧ ((s.rdReg r).2).dma = s.dma ∧
    ((s.rdReg r).2).cache = s.cache ∧ ((s.rdReg r).2).irq.iprc = s.irq.iprc ∧ ((s.rdReg r).2).irq.iprp = s.irq.iprp ∧
    ((s.rdReg r).2).irq.pins = s.irq.pins ∧ ((s.rdReg r).2).irq.nmi = s.irq.nmi ∧ ((s.rdReg r).2).irq.de = s.irq.de ∧
    ((s.rdReg r).2).irq.rst = s.irq.rst ∧ ((s.rdReg r).2).irq.oldMask = s.irq.oldMask ∧
    ((s.rdReg r).2).irq.window = s.irq.window ∧ ((s.rdReg r).2).ctl = s.ctl ∧ ((s.rdReg r).2).once = s.once ∧
    ((s.rdReg r).2).jtag = s.jtag ∧ ((s.rdReg r).2).env = s.env := by unfold State.rdReg; (repeat' split) <;> simp

@[simp] theorem State.freeTwice_keeps (d : Option Acc) :
    (s.freeTwice d).alu.x1 = s.alu.x1 ∧ (s.freeTwice d).alu.x0 = s.alu.x0 ∧ (s.freeTwice d).alu.y1 = s.alu.y1 ∧
    (s.freeTwice d).alu.y0 = s.alu.y0 ∧ (s.freeTwice d).agu = s.agu ∧ (s.freeTwice d).pcu = s.pcu ∧
    (s.freeTwice d).mem = s.mem ∧ (s.freeTwice d).port = s.port ∧ (s.freeTwice d).dma = s.dma ∧
    (s.freeTwice d).cache = s.cache ∧ (s.freeTwice d).irq = s.irq ∧ (s.freeTwice d).ctl = s.ctl ∧
    (s.freeTwice d).once = s.once ∧ (s.freeTwice d).jtag = s.jtag ∧ (s.freeTwice d).env = s.env := by
  simp only [State.freeTwice]; (repeat' split) <;> simp

@[simp] theorem State.commitAcc_keeps (o : AluOut) :
    (s.commitAcc o).alu.x1 = s.alu.x1 ∧ (s.commitAcc o).alu.x0 = s.alu.x0 ∧ (s.commitAcc o).alu.y1 = s.alu.y1 ∧
    (s.commitAcc o).alu.y0 = s.alu.y0 ∧ (s.commitAcc o).agu = s.agu ∧ (s.commitAcc o).pcu = s.pcu ∧
    (s.commitAcc o).mem = s.mem ∧ (s.commitAcc o).port = s.port ∧ (s.commitAcc o).dma = s.dma ∧
    (s.commitAcc o).cache = s.cache ∧ (s.commitAcc o).irq = s.irq ∧ (s.commitAcc o).ctl = s.ctl ∧
    (s.commitAcc o).once = s.once ∧ (s.commitAcc o).jtag = s.jtag ∧
    (s.commitAcc o).env = s.env := by simp [State.commitAcc]

@[simp] theorem State.commitAlu_keeps (o : AluOut) :
    (s.commitAlu o).alu.x1 = s.alu.x1 ∧ (s.commitAlu o).alu.x0 = s.alu.x0 ∧ (s.commitAlu o).alu.y1 = s.alu.y1 ∧
    (s.commitAlu o).alu.y0 = s.alu.y0 ∧ (s.commitAlu o).agu = s.agu ∧ (s.commitAlu o).pcu.pc = s.pcu.pc ∧
    (s.commitAlu o).pcu.omr = s.pcu.omr ∧ (s.commitAlu o).pcu.vba = s.pcu.vba ∧ (s.commitAlu o).pcu.la = s.pcu.la ∧
    (s.commitAlu o).pcu.lc = s.pcu.lc ∧ (s.commitAlu o).pcu.sp = s.pcu.sp ∧ (s.commitAlu o).pcu.sc = s.pcu.sc ∧
    (s.commitAlu o).pcu.sz = s.pcu.sz ∧ (s.commitAlu o).pcu.ssh = s.pcu.ssh ∧ (s.commitAlu o).pcu.ssl = s.pcu.ssl ∧
    (s.commitAlu o).mem = s.mem ∧ (s.commitAlu o).port = s.port ∧ (s.commitAlu o).dma = s.dma ∧
    (s.commitAlu o).cache = s.cache ∧ (s.commitAlu o).irq = s.irq ∧ (s.commitAlu o).ctl = s.ctl ∧
    (s.commitAlu o).once = s.once ∧ (s.commitAlu o).jtag = s.jtag ∧
    (s.commitAlu o).env = s.env := by simp [State.commitAlu]

/-! ## Parallel moves -/

@[simp] theorem State.applyUpds_keeps (u : List (Fin 8 × Word)) :
    (s.applyUpds u).alu = s.alu ∧ (s.applyUpds u).agu.n = s.agu.n ∧ (s.applyUpds u).agu.m = s.agu.m ∧
    (s.applyUpds u).agu.ep = s.agu.ep ∧ (s.applyUpds u).pcu = s.pcu ∧ (s.applyUpds u).mem = s.mem ∧
    (s.applyUpds u).port = s.port ∧ (s.applyUpds u).dma = s.dma ∧ (s.applyUpds u).cache = s.cache ∧
    (s.applyUpds u).irq = s.irq ∧ (s.applyUpds u).ctl = s.ctl ∧ (s.applyUpds u).once = s.once ∧
    (s.applyUpds u).jtag = s.jtag ∧ (s.applyUpds u).env = s.env := by
  unfold State.applyUpds; induction u generalizing s <;> simp_all

@[simp] theorem State.applyRegs_keeps (u : List (DReg × Word)) :
    (s.applyRegs u).agu.m = s.agu.m ∧ (s.applyRegs u).agu.ep = s.agu.ep ∧ (s.applyRegs u).pcu = s.pcu ∧
    (s.applyRegs u).mem = s.mem ∧ (s.applyRegs u).port = s.port ∧ (s.applyRegs u).dma = s.dma ∧
    (s.applyRegs u).cache = s.cache ∧ (s.applyRegs u).irq = s.irq ∧ (s.applyRegs u).ctl.phase = s.ctl.phase ∧
    (s.applyRegs u).ctl.ctx = s.ctl.ctx ∧ (s.applyRegs u).ctl.rep = s.ctl.rep ∧
    (s.applyRegs u).ctl.freeCtr = s.ctl.freeCtr ∧ (s.applyRegs u).ctl.fresh = s.ctl.fresh ∧
    (s.applyRegs u).ctl.late = s.ctl.late ∧ (s.applyRegs u).ctl.spilled = s.ctl.spilled ∧
    (s.applyRegs u).ctl.hist = s.ctl.hist ∧ (s.applyRegs u).ctl.echo = s.ctl.echo ∧
    (s.applyRegs u).ctl.pdb = s.ctl.pdb ∧ (s.applyRegs u).once = s.once ∧ (s.applyRegs u).jtag = s.jtag ∧
    (s.applyRegs u).env = s.env := by
  unfold State.applyRegs; induction u generalizing s <;> simp_all

@[simp] theorem State.applyMems_keeps (u : List (Space × Word × Word)) :
    (s.applyMems u).alu = s.alu ∧ (s.applyMems u).agu = s.agu ∧ (s.applyMems u).pcu = s.pcu ∧
    (s.applyMems u).mem.p = s.mem.p ∧ (s.applyMems u).mem.pExt = s.mem.pExt ∧ (s.applyMems u).dma.last = s.dma.last ∧
    (s.applyMems u).dma.held = s.dma.held ∧ (s.applyMems u).cache = s.cache ∧ (s.applyMems u).irq.pins = s.irq.pins ∧
    (s.applyMems u).irq.nmi = s.irq.nmi ∧ (s.applyMems u).irq.de = s.irq.de ∧ (s.applyMems u).irq.rst = s.irq.rst ∧
    (s.applyMems u).irq.oldMask = s.irq.oldMask ∧ (s.applyMems u).irq.window = s.irq.window ∧
    (s.applyMems u).ctl.phase = s.ctl.phase ∧ (s.applyMems u).ctl.ctx = s.ctl.ctx ∧
    (s.applyMems u).ctl.rep = s.ctl.rep ∧ (s.applyMems u).ctl.freeCtr = s.ctl.freeCtr ∧
    (s.applyMems u).ctl.fresh = s.ctl.fresh ∧ (s.applyMems u).ctl.written = s.ctl.written ∧
    (s.applyMems u).ctl.late = s.ctl.late ∧ (s.applyMems u).ctl.spilled = s.ctl.spilled ∧
    (s.applyMems u).ctl.hist = s.ctl.hist ∧ (s.applyMems u).ctl.pdb = s.ctl.pdb ∧ (s.applyMems u).jtag = s.jtag ∧
    (s.applyMems u).env = s.env := by
  unfold State.applyMems; induction u generalizing s <;> simp_all

@[simp] theorem State.commit_keeps (o : AluOut) (p : Plan) :
    (s.commit o p).agu.m = s.agu.m ∧ (s.commit o p).agu.ep = s.agu.ep ∧ (s.commit o p).pcu.pc = s.pcu.pc ∧
    (s.commit o p).pcu.omr = s.pcu.omr ∧ (s.commit o p).pcu.vba = s.pcu.vba ∧ (s.commit o p).pcu.la = s.pcu.la ∧
    (s.commit o p).pcu.lc = s.pcu.lc ∧ (s.commit o p).pcu.sp = s.pcu.sp ∧ (s.commit o p).pcu.sc = s.pcu.sc ∧
    (s.commit o p).pcu.sz = s.pcu.sz ∧ (s.commit o p).pcu.ssh = s.pcu.ssh ∧ (s.commit o p).pcu.ssl = s.pcu.ssl ∧
    (s.commit o p).mem.p = s.mem.p ∧ (s.commit o p).mem.pExt = s.mem.pExt ∧ (s.commit o p).dma.last = s.dma.last ∧
    (s.commit o p).dma.held = s.dma.held ∧ (s.commit o p).cache = s.cache ∧ (s.commit o p).irq.pins = s.irq.pins ∧
    (s.commit o p).irq.nmi = s.irq.nmi ∧ (s.commit o p).irq.de = s.irq.de ∧ (s.commit o p).irq.rst = s.irq.rst ∧
    (s.commit o p).irq.oldMask = s.irq.oldMask ∧ (s.commit o p).irq.window = s.irq.window ∧
    (s.commit o p).ctl.phase = s.ctl.phase ∧ (s.commit o p).ctl.ctx = s.ctl.ctx ∧ (s.commit o p).ctl.rep = s.ctl.rep ∧
    (s.commit o p).ctl.freeCtr = s.ctl.freeCtr ∧ (s.commit o p).ctl.fresh = s.ctl.fresh ∧
    (s.commit o p).ctl.late = s.ctl.late ∧ (s.commit o p).ctl.spilled = s.ctl.spilled ∧
    (s.commit o p).ctl.hist = s.ctl.hist ∧ (s.commit o p).ctl.pdb = s.ctl.pdb ∧ (s.commit o p).jtag = s.jtag ∧
    (s.commit o p).env = s.env := by simp [State.commit]

/-! ## The flow of control -/

@[simp] theorem State.advance_keeps (n : Nat) :
    (s.advance n).alu = s.alu ∧ (s.advance n).agu = s.agu ∧ (s.advance n).pcu.sr = s.pcu.sr ∧
    (s.advance n).pcu.omr = s.pcu.omr ∧ (s.advance n).pcu.vba = s.pcu.vba ∧ (s.advance n).pcu.la = s.pcu.la ∧
    (s.advance n).pcu.lc = s.pcu.lc ∧ (s.advance n).pcu.sp = s.pcu.sp ∧ (s.advance n).pcu.sc = s.pcu.sc ∧
    (s.advance n).pcu.sz = s.pcu.sz ∧ (s.advance n).pcu.ssh = s.pcu.ssh ∧ (s.advance n).pcu.ssl = s.pcu.ssl ∧
    (s.advance n).mem = s.mem ∧ (s.advance n).port = s.port ∧ (s.advance n).dma = s.dma ∧
    (s.advance n).cache = s.cache ∧ (s.advance n).irq = s.irq ∧ (s.advance n).ctl = s.ctl ∧
    (s.advance n).once = s.once ∧ (s.advance n).jtag = s.jtag ∧ (s.advance n).env = s.env := by simp [State.advance]

@[simp] theorem State.jump_keeps (a : Word) :
    (s.jump a).alu = s.alu ∧ (s.jump a).agu = s.agu ∧ (s.jump a).pcu.sr = s.pcu.sr ∧ (s.jump a).pcu.omr = s.pcu.omr ∧
    (s.jump a).pcu.vba = s.pcu.vba ∧ (s.jump a).pcu.la = s.pcu.la ∧ (s.jump a).pcu.lc = s.pcu.lc ∧
    (s.jump a).pcu.sp = s.pcu.sp ∧ (s.jump a).pcu.sc = s.pcu.sc ∧ (s.jump a).pcu.sz = s.pcu.sz ∧
    (s.jump a).pcu.ssh = s.pcu.ssh ∧ (s.jump a).pcu.ssl = s.pcu.ssl ∧ (s.jump a).mem = s.mem ∧
    (s.jump a).port = s.port ∧ (s.jump a).dma = s.dma ∧ (s.jump a).cache = s.cache ∧ (s.jump a).irq = s.irq ∧
    (s.jump a).ctl.phase = s.ctl.phase ∧ (s.jump a).ctl.rep = s.ctl.rep ∧ (s.jump a).ctl.freeCtr = s.ctl.freeCtr ∧
    (s.jump a).ctl.fresh = s.ctl.fresh ∧ (s.jump a).ctl.written = s.ctl.written ∧ (s.jump a).ctl.late = s.ctl.late ∧
    (s.jump a).ctl.spilled = s.ctl.spilled ∧ (s.jump a).ctl.hist = s.ctl.hist ∧ (s.jump a).ctl.echo = s.ctl.echo ∧
    (s.jump a).ctl.pdb = s.ctl.pdb ∧ (s.jump a).once = s.once ∧ (s.jump a).jtag = s.jtag ∧
    (s.jump a).env = s.env := by simp [State.jump]

@[simp] theorem State.longEntry_keeps (l : BitVec 2) (a : Word) :
    (s.longEntry l a).alu = s.alu ∧ (s.longEntry l a).agu.r = s.agu.r ∧ (s.longEntry l a).agu.n = s.agu.n ∧
    (s.longEntry l a).agu.m = s.agu.m ∧ (s.longEntry l a).pcu.vba = s.pcu.vba ∧ (s.longEntry l a).pcu.la = s.pcu.la ∧
    (s.longEntry l a).pcu.lc = s.pcu.lc ∧ (s.longEntry l a).pcu.sz = s.pcu.sz ∧ (s.longEntry l a).mem.p = s.mem.p ∧
    (s.longEntry l a).mem.pExt = s.mem.pExt ∧ (s.longEntry l a).dma.last = s.dma.last ∧
    (s.longEntry l a).dma.held = s.dma.held ∧ (s.longEntry l a).cache = s.cache ∧
    (s.longEntry l a).irq.pins = s.irq.pins ∧ (s.longEntry l a).irq.nmi = s.irq.nmi ∧
    (s.longEntry l a).irq.de = s.irq.de ∧ (s.longEntry l a).irq.rst = s.irq.rst ∧
    (s.longEntry l a).irq.oldMask = s.irq.oldMask ∧ (s.longEntry l a).irq.window = s.irq.window ∧
    (s.longEntry l a).ctl.phase = s.ctl.phase ∧ (s.longEntry l a).ctl.rep = s.ctl.rep ∧
    (s.longEntry l a).ctl.freeCtr = s.ctl.freeCtr ∧ (s.longEntry l a).ctl.fresh = s.ctl.fresh ∧
    (s.longEntry l a).ctl.written = s.ctl.written ∧ (s.longEntry l a).ctl.late = s.ctl.late ∧
    (s.longEntry l a).ctl.spilled = s.ctl.spilled ∧ (s.longEntry l a).ctl.hist = s.ctl.hist ∧
    (s.longEntry l a).ctl.pdb = s.ctl.pdb ∧ (s.longEntry l a).jtag = s.jtag ∧
    (s.longEntry l a).env = s.env := by simp [State.longEntry]

@[simp] theorem State.call_keeps (n : Nat) (a : Word) :
    (s.call n a).alu = s.alu ∧ (s.call n a).agu.r = s.agu.r ∧ (s.call n a).agu.n = s.agu.n ∧
    (s.call n a).agu.m = s.agu.m ∧ (s.call n a).pcu.vba = s.pcu.vba ∧ (s.call n a).pcu.la = s.pcu.la ∧
    (s.call n a).pcu.lc = s.pcu.lc ∧ (s.call n a).pcu.sz = s.pcu.sz ∧ (s.call n a).mem.p = s.mem.p ∧
    (s.call n a).mem.pExt = s.mem.pExt ∧ (s.call n a).dma.last = s.dma.last ∧ (s.call n a).dma.held = s.dma.held ∧
    (s.call n a).cache = s.cache ∧ (s.call n a).irq.pins = s.irq.pins ∧ (s.call n a).irq.nmi = s.irq.nmi ∧
    (s.call n a).irq.de = s.irq.de ∧ (s.call n a).irq.rst = s.irq.rst ∧ (s.call n a).irq.oldMask = s.irq.oldMask ∧
    (s.call n a).irq.window = s.irq.window ∧ (s.call n a).ctl.phase = s.ctl.phase ∧ (s.call n a).ctl.rep = s.ctl.rep ∧
    (s.call n a).ctl.freeCtr = s.ctl.freeCtr ∧ (s.call n a).ctl.fresh = s.ctl.fresh ∧
    (s.call n a).ctl.written = s.ctl.written ∧ (s.call n a).ctl.late = s.ctl.late ∧
    (s.call n a).ctl.spilled = s.ctl.spilled ∧ (s.call n a).ctl.hist = s.ctl.hist ∧ (s.call n a).ctl.pdb = s.ctl.pdb ∧
    (s.call n a).jtag = s.jtag ∧ (s.call n a).env = s.env := by unfold State.call; split <;> simp

@[simp] theorem State.returnFromSubroutine_keeps  :
    (s.returnFromSubroutine).alu = s.alu ∧ (s.returnFromSubroutine).agu.r = s.agu.r ∧
    (s.returnFromSubroutine).agu.n = s.agu.n ∧ (s.returnFromSubroutine).agu.m = s.agu.m ∧
    (s.returnFromSubroutine).pcu.sr = s.pcu.sr ∧ (s.returnFromSubroutine).pcu.vba = s.pcu.vba ∧
    (s.returnFromSubroutine).pcu.la = s.pcu.la ∧ (s.returnFromSubroutine).pcu.lc = s.pcu.lc ∧
    (s.returnFromSubroutine).pcu.sz = s.pcu.sz ∧ (s.returnFromSubroutine).mem = s.mem ∧
    (s.returnFromSubroutine).port = s.port ∧ (s.returnFromSubroutine).dma = s.dma ∧
    (s.returnFromSubroutine).cache = s.cache ∧ (s.returnFromSubroutine).irq.iprc = s.irq.iprc ∧
    (s.returnFromSubroutine).irq.iprp = s.irq.iprp ∧ (s.returnFromSubroutine).irq.pins = s.irq.pins ∧
    (s.returnFromSubroutine).irq.nmi = s.irq.nmi ∧ (s.returnFromSubroutine).irq.de = s.irq.de ∧
    (s.returnFromSubroutine).irq.rst = s.irq.rst ∧ (s.returnFromSubroutine).irq.oldMask = s.irq.oldMask ∧
    (s.returnFromSubroutine).irq.window = s.irq.window ∧ (s.returnFromSubroutine).ctl.phase = s.ctl.phase ∧
    (s.returnFromSubroutine).ctl.rep = s.ctl.rep ∧ (s.returnFromSubroutine).ctl.freeCtr = s.ctl.freeCtr ∧
    (s.returnFromSubroutine).ctl.fresh = s.ctl.fresh ∧ (s.returnFromSubroutine).ctl.written = s.ctl.written ∧
    (s.returnFromSubroutine).ctl.late = s.ctl.late ∧ (s.returnFromSubroutine).ctl.spilled = s.ctl.spilled ∧
    (s.returnFromSubroutine).ctl.hist = s.ctl.hist ∧ (s.returnFromSubroutine).ctl.echo = s.ctl.echo ∧
    (s.returnFromSubroutine).ctl.pdb = s.ctl.pdb ∧ (s.returnFromSubroutine).once = s.once ∧
    (s.returnFromSubroutine).jtag = s.jtag ∧
    (s.returnFromSubroutine).env = s.env := by simp [State.returnFromSubroutine]

@[simp] theorem State.returnFromInterrupt_keeps  :
    (s.returnFromInterrupt).alu = s.alu ∧ (s.returnFromInterrupt).agu.r = s.agu.r ∧
    (s.returnFromInterrupt).agu.n = s.agu.n ∧ (s.returnFromInterrupt).agu.m = s.agu.m ∧
    (s.returnFromInterrupt).pcu.vba = s.pcu.vba ∧ (s.returnFromInterrupt).pcu.la = s.pcu.la ∧
    (s.returnFromInterrupt).pcu.lc = s.pcu.lc ∧ (s.returnFromInterrupt).pcu.sz = s.pcu.sz ∧
    (s.returnFromInterrupt).mem.x = s.mem.x ∧ (s.returnFromInterrupt).mem.y = s.mem.y ∧
    (s.returnFromInterrupt).mem.pExt = s.mem.pExt ∧ (s.returnFromInterrupt).port = s.port ∧
    (s.returnFromInterrupt).dma = s.dma ∧ (s.returnFromInterrupt).irq.iprc = s.irq.iprc ∧
    (s.returnFromInterrupt).irq.iprp = s.irq.iprp ∧ (s.returnFromInterrupt).irq.pins = s.irq.pins ∧
    (s.returnFromInterrupt).irq.nmi = s.irq.nmi ∧ (s.returnFromInterrupt).irq.de = s.irq.de ∧
    (s.returnFromInterrupt).irq.rst = s.irq.rst ∧ (s.returnFromInterrupt).irq.oldMask = s.irq.oldMask ∧
    (s.returnFromInterrupt).irq.window = s.irq.window ∧ (s.returnFromInterrupt).ctl.phase = s.ctl.phase ∧
    (s.returnFromInterrupt).ctl.rep = s.ctl.rep ∧ (s.returnFromInterrupt).ctl.freeCtr = s.ctl.freeCtr ∧
    (s.returnFromInterrupt).ctl.fresh = s.ctl.fresh ∧ (s.returnFromInterrupt).ctl.written = s.ctl.written ∧
    (s.returnFromInterrupt).ctl.late = s.ctl.late ∧ (s.returnFromInterrupt).ctl.spilled = s.ctl.spilled ∧
    (s.returnFromInterrupt).ctl.hist = s.ctl.hist ∧ (s.returnFromInterrupt).ctl.echo = s.ctl.echo ∧
    (s.returnFromInterrupt).ctl.pdb = s.ctl.pdb ∧ (s.returnFromInterrupt).once = s.once ∧
    (s.returnFromInterrupt).jtag = s.jtag ∧ (s.returnFromInterrupt).env = s.env := by simp [State.returnFromInterrupt]

@[simp] theorem State.leaveLoop_keeps  :
    (s.leaveLoop).alu = s.alu ∧ (s.leaveLoop).agu.r = s.agu.r ∧ (s.leaveLoop).agu.n = s.agu.n ∧
    (s.leaveLoop).agu.m = s.agu.m ∧ (s.leaveLoop).pcu.pc = s.pcu.pc ∧ (s.leaveLoop).pcu.vba = s.pcu.vba ∧
    (s.leaveLoop).pcu.sz = s.pcu.sz ∧ (s.leaveLoop).mem = s.mem ∧ (s.leaveLoop).port = s.port ∧
    (s.leaveLoop).dma = s.dma ∧ (s.leaveLoop).cache = s.cache ∧ (s.leaveLoop).irq.iprc = s.irq.iprc ∧
    (s.leaveLoop).irq.iprp = s.irq.iprp ∧ (s.leaveLoop).irq.pins = s.irq.pins ∧ (s.leaveLoop).irq.nmi = s.irq.nmi ∧
    (s.leaveLoop).irq.de = s.irq.de ∧ (s.leaveLoop).irq.rst = s.irq.rst ∧ (s.leaveLoop).irq.oldMask = s.irq.oldMask ∧
    (s.leaveLoop).irq.window = s.irq.window ∧ (s.leaveLoop).ctl = s.ctl ∧ (s.leaveLoop).once = s.once ∧
    (s.leaveLoop).jtag = s.jtag ∧ (s.leaveLoop).env = s.env := by simp [State.leaveLoop]

@[simp] theorem State.enterLoop_keeps (la : Word) (f : Bool) :
    (s.enterLoop la f).alu = s.alu ∧ (s.enterLoop la f).agu.r = s.agu.r ∧ (s.enterLoop la f).agu.n = s.agu.n ∧
    (s.enterLoop la f).agu.m = s.agu.m ∧ (s.enterLoop la f).pcu.pc = s.pcu.pc ∧
    (s.enterLoop la f).pcu.vba = s.pcu.vba ∧ (s.enterLoop la f).pcu.lc = s.pcu.lc ∧
    (s.enterLoop la f).pcu.sz = s.pcu.sz ∧ (s.enterLoop la f).mem.p = s.mem.p ∧
    (s.enterLoop la f).mem.pExt = s.mem.pExt ∧ (s.enterLoop la f).dma.last = s.dma.last ∧
    (s.enterLoop la f).dma.held = s.dma.held ∧ (s.enterLoop la f).cache = s.cache ∧
    (s.enterLoop la f).irq.pins = s.irq.pins ∧ (s.enterLoop la f).irq.nmi = s.irq.nmi ∧
    (s.enterLoop la f).irq.de = s.irq.de ∧ (s.enterLoop la f).irq.rst = s.irq.rst ∧
    (s.enterLoop la f).irq.oldMask = s.irq.oldMask ∧ (s.enterLoop la f).irq.window = s.irq.window ∧
    (s.enterLoop la f).ctl.phase = s.ctl.phase ∧ (s.enterLoop la f).ctl.ctx = s.ctl.ctx ∧
    (s.enterLoop la f).ctl.rep = s.ctl.rep ∧ (s.enterLoop la f).ctl.freeCtr = s.ctl.freeCtr ∧
    (s.enterLoop la f).ctl.fresh = s.ctl.fresh ∧ (s.enterLoop la f).ctl.written = s.ctl.written ∧
    (s.enterLoop la f).ctl.late = s.ctl.late ∧ (s.enterLoop la f).ctl.spilled = s.ctl.spilled ∧
    (s.enterLoop la f).ctl.hist = s.ctl.hist ∧ (s.enterLoop la f).ctl.pdb = s.ctl.pdb ∧
    (s.enterLoop la f).jtag = s.jtag ∧ (s.enterLoop la f).env = s.env := by simp [State.enterLoop]

@[simp] theorem State.endOfLoop_keeps  :
    (s.endOfLoop).alu = s.alu ∧ (s.endOfLoop).agu.r = s.agu.r ∧ (s.endOfLoop).agu.n = s.agu.n ∧
    (s.endOfLoop).agu.m = s.agu.m ∧ (s.endOfLoop).pcu.vba = s.pcu.vba ∧ (s.endOfLoop).pcu.sz = s.pcu.sz ∧
    (s.endOfLoop).mem = s.mem ∧ (s.endOfLoop).port = s.port ∧ (s.endOfLoop).dma = s.dma ∧
    (s.endOfLoop).cache = s.cache ∧ (s.endOfLoop).irq.iprc = s.irq.iprc ∧ (s.endOfLoop).irq.iprp = s.irq.iprp ∧
    (s.endOfLoop).irq.pins = s.irq.pins ∧ (s.endOfLoop).irq.nmi = s.irq.nmi ∧ (s.endOfLoop).irq.de = s.irq.de ∧
    (s.endOfLoop).irq.rst = s.irq.rst ∧ (s.endOfLoop).irq.oldMask = s.irq.oldMask ∧
    (s.endOfLoop).irq.window = s.irq.window ∧ (s.endOfLoop).ctl = s.ctl ∧ (s.endOfLoop).once = s.once ∧
    (s.endOfLoop).jtag = s.jtag ∧ (s.endOfLoop).env = s.env := by
  simp only [State.endOfLoop]; (repeat' split) <;> simp

@[simp] theorem State.illegal_keeps (n : Nat) :
    (s.illegal n).alu = s.alu ∧ (s.illegal n).agu = s.agu ∧ (s.illegal n).pcu.sr = s.pcu.sr ∧
    (s.illegal n).pcu.omr = s.pcu.omr ∧ (s.illegal n).pcu.vba = s.pcu.vba ∧ (s.illegal n).pcu.la = s.pcu.la ∧
    (s.illegal n).pcu.lc = s.pcu.lc ∧ (s.illegal n).pcu.sp = s.pcu.sp ∧ (s.illegal n).pcu.sc = s.pcu.sc ∧
    (s.illegal n).pcu.sz = s.pcu.sz ∧ (s.illegal n).pcu.ssh = s.pcu.ssh ∧ (s.illegal n).pcu.ssl = s.pcu.ssl ∧
    (s.illegal n).mem = s.mem ∧ (s.illegal n).port = s.port ∧ (s.illegal n).dma = s.dma ∧
    (s.illegal n).cache = s.cache ∧ (s.illegal n).irq.iprc = s.irq.iprc ∧ (s.illegal n).irq.iprp = s.irq.iprp ∧
    (s.illegal n).irq.pins = s.irq.pins ∧ (s.illegal n).irq.nmi = s.irq.nmi ∧ (s.illegal n).irq.de = s.irq.de ∧
    (s.illegal n).irq.rst = s.irq.rst ∧ (s.illegal n).irq.oldMask = s.irq.oldMask ∧
    (s.illegal n).irq.window = s.irq.window ∧ (s.illegal n).ctl = s.ctl ∧ (s.illegal n).once = s.once ∧
    (s.illegal n).jtag = s.jtag ∧ (s.illegal n).env = s.env := by simp [State.illegal]

@[simp] theorem State.trap_keeps  :
    (s.trap).alu = s.alu ∧ (s.trap).agu = s.agu ∧ (s.trap).pcu.sr = s.pcu.sr ∧ (s.trap).pcu.omr = s.pcu.omr ∧
    (s.trap).pcu.vba = s.pcu.vba ∧ (s.trap).pcu.la = s.pcu.la ∧ (s.trap).pcu.lc = s.pcu.lc ∧
    (s.trap).pcu.sp = s.pcu.sp ∧ (s.trap).pcu.sc = s.pcu.sc ∧ (s.trap).pcu.sz = s.pcu.sz ∧
    (s.trap).pcu.ssh = s.pcu.ssh ∧ (s.trap).pcu.ssl = s.pcu.ssl ∧ (s.trap).mem = s.mem ∧ (s.trap).port = s.port ∧
    (s.trap).dma = s.dma ∧ (s.trap).cache = s.cache ∧ (s.trap).irq.iprc = s.irq.iprc ∧
    (s.trap).irq.iprp = s.irq.iprp ∧ (s.trap).irq.pins = s.irq.pins ∧ (s.trap).irq.nmi = s.irq.nmi ∧
    (s.trap).irq.de = s.irq.de ∧ (s.trap).irq.rst = s.irq.rst ∧ (s.trap).irq.oldMask = s.irq.oldMask ∧
    (s.trap).irq.window = s.irq.window ∧ (s.trap).ctl = s.ctl ∧ (s.trap).once = s.once ∧ (s.trap).jtag = s.jtag ∧
    (s.trap).env = s.env := by simp [State.trap]

end Sys2Proof.Machine
end

