-- ==== Sys2Proof/Laws/Commit.lean ====
section
/-!
SUPPORT. The condition codes bit by bit, and what the end of a Data ALU operation leaves in the accumulators and in SR
(40_alu_common R208, R210, R211; 46_move R420).
-/
namespace Sys2Proof.Machine

variable (s : State)

/-! ## Bits of the CCR -/

theorem State.ccr_getLsbD (i : Nat) : s.ccr.getLsbD i = (decide (i < 8) && s.srBit i) := by
  simp [State.ccr, State.srBit]

@[simp] theorem State.srBit_withCcr (c : Byte) (i : Nat) :
    (s.withCcr c).srBit i = if i < 8 then c.getLsbD i else s.srBit i := by
  simp only [State.srBit, State.withCcr_sr, BitVec.getLsbD_or, BitVec.getLsbD_and, BitVec.getLsbD_setWidth]
  by_cases h : i < 8
  · have : (0xFFFF00#24).getLsbD i = false := by interval_cases i <;> rfl
    rw [this, if_pos h, Bool.and_false, Bool.false_or, decide_eq_true (by omega : i < 24), Bool.true_and]
  · have hc : c.getLsbD i = false := BitVec.getLsbD_of_ge c i (by omega)
    rw [if_neg h, hc, Bool.and_false, Bool.or_false]
    by_cases h2 : i < 24
    · have : (0xFFFF00#24).getLsbD i = true := by interval_cases i <;> first | omega | rfl
      rw [this, Bool.and_true]
    · rw [BitVec.getLsbD_of_ge _ i (by omega), Bool.false_and]

theorem CcrUpd.getLsbD_apply (u : CcrUpd) (c : Byte) (i : Nat) :
    (u.apply c).getLsbD i =
      ((if u.mask.getLsbD i then u.val.getLsbD i else c.getLsbD i) ||
        (decide (i = 6) && (u.mask.getLsbD 1 && u.val.getLsbD 1))) := by
  by_cases hi : i < 8
  · have hV : (u.mask &&& u.val &&& ccrV = 0) ↔ (u.mask.getLsbD 1 && u.val.getLsbD 1) = false := by
      have : ccrV = BitVec.twoPow 8 1 := rfl
      rw [this, BitVec.and_twoPow, BitVec.getLsbD_and]
      cases u.mask.getLsbD 1 && u.val.getLsbD 1 <;> decide
    unfold CcrUpd.apply
    rw [BitVec.getLsbD_or]
    have first : ((c &&& ~~~u.mask) ||| (u.val &&& u.mask)).getLsbD i =
        if u.mask.getLsbD i then u.val.getLsbD i else c.getLsbD i := by
      simp only [BitVec.getLsbD_or, BitVec.getLsbD_and, BitVec.getLsbD_not, hi, decide_true, Bool.true_and]
      cases u.mask.getLsbD i <;> simp
    rw [first]
    congr 1
    by_cases hz : u.mask &&& u.val &&& ccrV = 0
    · rw [if_pos hz, hV.1 hz, Bool.and_false]; exact BitVec.getLsbD_zero
    · have h1 : (u.mask.getLsbD 1 && u.val.getLsbD 1) = true := by
        by_contra h; exact hz (hV.2 (by simpa using h))
      rw [if_neg hz, h1]
      interval_cases i <;> rfl
  · have h1 := BitVec.getLsbD_of_ge u.mask i (by omega)
    have h2 := BitVec.getLsbD_of_ge c i (by omega)
    have h3 := BitVec.getLsbD_of_ge (u.apply c) i (by omega)
    have h6 : ¬i = 6 := by omega
    simp [h1, h2, h3, h6]

theorem getLsbD_orSL (a b : Bool) (c : Byte) (i : Nat) :
    (orSL a b c).getLsbD i = (c.getLsbD i || (a && decide (i = 7)) || (b && decide (i = 6))) := by
  simp [orSL]

/-! ## Reading SR through updates of other places -/

@[simp] theorem State.scaling_congr {t : State} (h : t.pcu.sr = s.pcu.sr) : t.scaling = s.scaling := by
  simp [State.scaling, State.srBit, h]

/-! ## The accumulators after register writes -/

@[simp] theorem State.acc_setR (n : Fin 8) (v : Word) (d : Acc) : (s.setR n v).acc d = s.acc d := by cases d <;> rfl

theorem State.acc_wrD_of_spared (d : Acc) (r : DReg) (w : Word) (h : partOf d r = false) : (s.wrD r w).acc d = s.acc d := by
  cases r with
  | r n => exact s.acc_setR n _ d
  | n n => cases d <;> rfl
  | alu r =>
    cases r <;> cases d <;> simp_all [partOf, State.wrD, State.wrAlu] <;>
      (simp only [State.wrXY]; split <;> rfl)

theorem State.acc_applyRegs_of_spared (d : Acc) (l : List (DReg × Word)) (h : ∀ p ∈ l, partOf d p.1 = false) :
    (s.applyRegs l).acc d = s.acc d := by
  unfold State.applyRegs
  induction l generalizing s with
  | nil => rfl
  | cons p l ih =>
    rw [List.foldl_cons, ih _ fun q hq => h q (List.mem_cons_of_mem _ hq)]
    exact s.acc_wrD_of_spared d p.1 p.2 (h p List.mem_cons_self)

@[simp] theorem State.acc_applyUpds (l : List (Fin 8 × Word)) (d : Acc) : (s.applyUpds l).acc d = s.acc d := by
  cases d <;> simp [State.acc]

@[simp] theorem State.acc_applyMems (l : List (Space × Word × Word)) (d : Acc) : (s.applyMems l).acc d = s.acc d := by
  cases d <;> simp [State.acc]

@[simp] theorem State.acc_withCcr (c : Byte) (d : Acc) : (s.withCcr c).acc d = s.acc d := by cases d <;> rfl

@[simp] theorem State.acc_advance (n : Nat) (d : Acc) : (s.advance n).acc d = s.acc d := by cases d <;> rfl

theorem State.acc_freeTwice (e : Option Acc) (d : Acc) (h : e ≠ some d) : (s.freeTwice e).acc d = s.acc d := by
  match e, d with
  | none, _ => rfl
  | some .a, .a => exact absurd rfl h
  | some .a, .b => rfl
  | some .b, .a => rfl
  | some .b, .b => exact absurd rfl h

/-- An accumulator that both halves of a move load is one of those it writes (U5). -/
theorem State.plan_twice (m : PMove) (d : Acc) (h : (s.plan m).twice = some d) :
    ∃ p ∈ (s.plan m).regs, partOf d p.1 = true := by
  cases m with
  | xy yw ym xs ys xw yn xm xn =>
    cases yw <;> cases xw <;> cases xs <;> cases ys <;>
      simp [State.plan, State.planXY, State.planMem, bothLoad] at h ⊢ <;> subst h <;> simp [partOf, xSideReg, ySideReg]
  | xEa d w e => cases w <;> simp [State.plan, State.planMem] at h
  | xAa d w e => cases w <;> simp [State.plan, State.planMem] at h
  | yEa d w e => cases w <;> simp [State.plan, State.planMem] at h
  | yAa d w e => cases w <;> simp [State.plan, State.planMem] at h
  | xr1 _ _ _ w e => cases w <;> simp [State.plan, State.planMem, State.planClass1] at h
  | ry1 _ _ _ w e => cases w <;> simp [State.plan, State.planMem, State.planClass1] at h
  | lEa l w e => cases w <;> simp [State.plan, State.planLong] at h
  | lAa l w e => cases w <;> simp [State.plan, State.planLong] at h
  | _ => simp [State.plan, Plan.nothing, State.planClass2] at h

/-! ## The end of a Data ALU operation -/

theorem State.acc_commitAcc (o : AluOut) (d : Acc) :
    (s.commitAcc o).acc d = if d = o.dst then (s.acc d &&& ~~~o.mask) ||| (o.val &&& o.mask) else s.acc d := by
  unfold State.commitAcc
  rw [State.acc_withAcc]
  split
  · next h => rw [h]
  · rfl

theorem State.twiceWritten_of_spared (o : AluOut) (m : PMove) (d : Acc)
    (h : ∀ p ∈ (s.plan m).regs, partOf d p.1 = false) : twiceWritten o (s.plan m) ≠ some d := by
  unfold twiceWritten
  split
  · next hc =>
    intro he
    injection he with he
    subst he
    simp only [Bool.and_eq_true, List.any_eq_true] at hc
    obtain ⟨p, hp, hq, _⟩ := hc
    rw [h p hp] at hq
    cases hq
  · intro he
    obtain ⟨p, hp, hq⟩ := s.plan_twice m d he
    rw [h p hp] at hq
    cases hq

/-- An accumulator that the move does not write holds the operation's result, or what it held. -/
theorem State.acc_commit (o : AluOut) (m : PMove) (d : Acc) (h : ∀ p ∈ (s.plan m).regs, partOf d p.1 = false) :
    (s.commit o (s.plan m)).acc d =
      if d = o.dst then (s.acc d &&& ~~~o.mask) ||| (o.val &&& o.mask) else s.acc d := by
  simp only [State.commit, State.acc_applyMems, State.acc_withCcr]
  rw [State.acc_freeTwice _ _ _ (s.twiceWritten_of_spared o m d h), State.acc_applyRegs_of_spared _ d _ h,
    State.acc_commitAcc, State.acc_applyUpds]

/-- SR after an instruction with a parallel move, bit by bit. -/
theorem State.srBit_commit (o : AluOut) (p : Plan) (i : Nat) :
    (s.commit o p).srBit i =
      if i < 8 then
        ((if o.ccr.mask.getLsbD i then o.ccr.val.getLsbD i else s.srBit i) ||
          (decide (i = 6) && (o.ccr.mask.getLsbD 1 && o.ccr.val.getLsbD 1)) ||
          (p.sTerm && decide (i = 7)) || (p.lTerm && decide (i = 6)))
      else s.srBit i := by
  have h : (s.commit o p).srBit i =
      ((((s.applyUpds p.upds).commitAcc o).applyRegs p.regs).freeTwice (twiceWritten o p)
        |>.withCcr (orSL p.sTerm p.lTerm (o.ccr.apply s.ccr))).srBit i := by
    simp only [State.commit, State.srBit, State.applyMems_keeps]
  rw [h, State.srBit_withCcr]
  by_cases hi : i < 8
  · simp only [hi, if_true, getLsbD_orSL, CcrUpd.getLsbD_apply, State.ccr_getLsbD, decide_true, Bool.true_and]
  · simp [hi, State.srBit]

@[simp] theorem State.srBit_advance (n i : Nat) : (s.advance n).srBit i = s.srBit i := rfl

theorem State.acc_commitAlu (o : AluOut) (d : Acc) :
    (s.commitAlu o).acc d = if d = o.dst then (s.acc d &&& ~~~o.mask) ||| (o.val &&& o.mask) else s.acc d := by
  simp only [State.commitAlu, State.acc_withCcr, State.acc_withAcc]
  split
  · next h => rw [h]
  · rfl

/-- A Data ALU operation alone is one with no move. -/
theorem State.commitAlu_eq_commit (o : AluOut) : s.commitAlu o = s.commit o (s.plan .none) := by
  have ht : twiceWritten o .nothing = none := by simp [twiceWritten, Plan.nothing]
  have ho : ∀ c, orSL false false c = c := by intro c; simp [orSL, bitAt]
  simp [State.commitAlu, State.commit, State.plan, Plan.nothing, State.applyUpds, State.applyRegs, State.applyMems,
    State.commitAcc, State.freeTwice, ho]
  rw [show twiceWritten o ⟨false, false, [], [], [], none⟩ = none from ht]

end Sys2Proof.Machine
end

