-- ==== Sys2Proof/Laws/Decode.lean ====
section
/-!
SUPPORT. The rows of the non-parallel format do not overlap, but for the two long-displacement moves that stand first; so
a word that hits a row, and neither of those two, is decoded by that row.
-/
namespace Sys2Proof

/-- No word hits both rows. -/
def Row.apart {n : Nat} {α : Type} (r q : Row n α) : Bool := r.mask &&& q.mask &&& (r.pat ^^^ q.pat) != 0

theorem Row.not_hit_of_apart {n : Nat} {α : Type} {w : BitVec n} {r q : Row n α} (a : r.apart q = true)
    (h : q.hit w = true) : r.hit w = false := by
  simp only [Row.apart, Row.hit, bne_iff_ne, ne_eq, beq_iff_eq, beq_eq_false_iff_ne] at *
  intro hr
  apply a
  rw [← hr, ← h]
  show _ = 0#n
  ext i
  simp only [BitVec.getElem_and, BitVec.getElem_xor, BitVec.getElem_zero]
  cases w[i] <;> cases r.mask[i] <;> cases q.mask[i] <;> rfl

/-- In a list of rows that are pairwise apart, the one that is hit is the one that is found. -/
theorem find_row {n : Nat} {α : Type} {w : BitVec n} :
    ∀ {l : List (Row n α)} {k : Nat} {r : Row n α}, l.Pairwise (fun r q => r.apart q = true) → l[k]? = some r →
      r.hit w = true → l.find? (Row.hit w) = some r
  | [], _, _, _, h, _ => by simp at h
  | a :: l, 0, r, _, h, hit => by
    obtain rfl : a = r := by simpa using h
    simp [hit]
  | a :: l, k + 1, r, hp, h, hit => by
    have hp := List.pairwise_cons.1 hp
    have h : l[k]? = some r := by simpa using h
    have := Row.not_hit_of_apart (hp.1 r (List.mem_of_getElem? h)) hit
    rw [List.find?_cons, this]
    exact find_row hp.2 h hit

set_option maxRecDepth 20000 in
theorem rows_apart : (nonparallelRows.drop 2).Pairwise (fun r q => r.apart q = true) := by decide +kernel

/-- The row that decodes a word: `k` is its place after the first two. -/
theorem find_nonparallel {w : Word} {k : Nat} {r : Row 24 Instr} (hx : w &&& 0xFFF880#24 ≠ 0x0A7080#24)
    (hy : w &&& 0xFFF880#24 ≠ 0x0B7080#24) (hk : nonparallelRows[k + 2]? = some r) (hit : r.hit w = true) :
    nonparallelRows.find? (Row.hit w) = some r := by
  have hd : (nonparallelRows.drop 2)[k]? = some r := by rw [List.getElem?_drop, Nat.add_comm]; exact hk
  have := find_row (w := w) rows_apart hd hit
  generalize hr : nonparallelRows = l at *
  match l, hr with
  | [], hr => simp at hk
  | [a], hr => simp at hk
  | a :: b :: t, hr =>
    have ha : a.mask = 0xFFF880#24 ∧ a.pat = 0x0A7080#24 := by
      have := congrArg (fun l => (l.head?.map fun r => (r.mask, r.pat))) hr
      simp [nonparallelRows, rows0] at this
      exact ⟨this.1.symm, this.2.symm⟩
    have hb : b.mask = 0xFFF880#24 ∧ b.pat = 0x0B7080#24 := by
      have := congrArg (fun l => (l[1]?.map fun r => (r.mask, r.pat))) hr
      simp [nonparallelRows, rows0] at this
      exact ⟨this.1.symm, this.2.symm⟩
    have h1 : a.hit w = false := by simp [Row.hit, ha, hx]
    have h2 : b.hit w = false := by simp [Row.hit, hb, hy]
    simpa [List.find?_cons, h1, h2] using this

/-! ## Fields of a word -/

theorem extract_low {a b k n : Nat} (x : BitVec a) (y : BitVec b) (h : k + n ≤ b) :
    (x ++ y).extractLsb' k n = y.extractLsb' k n := by
  ext i hi; simp [BitVec.getLsbD_append, show k + i < b by omega]

theorem extract_high {a b k n : Nat} (x : BitVec a) (y : BitVec b) (h : b ≤ k) :
    (x ++ y).extractLsb' k n = x.extractLsb' (k - b) n := by
  ext i hi; simp [BitVec.getLsbD_append, show ¬ k + i < b by omega, show k + i - b = k - b + i by omega]

theorem extract_all {n : Nat} (x : BitVec n) : x.extractLsb' 0 n = x := by ext i hi; simp

/-! ## Each code read back -/

@[simp] theorem Acc.ofBits_bits (v : Acc) : Acc.ofBits v.bits = v := by cases v <;> rfl
@[simp] theorem Space.ofBits_bits (v : Space) : Space.ofBits v.bits = v := by cases v <;> rfl
@[simp] theorem Dir.ofBits_bits (v : Dir) : Dir.ofBits v.bits = v := by cases v <;> rfl
@[simp] theorem XYLong.ofBits_bits (v : XYLong) : XYLong.ofBits v.bits = v := by cases v <;> rfl
@[simp] theorem MulPair.ofBits_bits (v : MulPair) : MulPair.ofBits v.bits = v := by cases v <;> rfl
@[simp] theorem Cond.ofBits_bits (v : Cond) : Cond.ofBits v.bits = v := by cases v <;> rfl
@[simp] theorem PcuByte.ofBits_bits (v : PcuByte) : PcuByte.ofBits v.bits = v := by cases v <;> rfl
@[simp] theorem UpdMode.ofBits_bits (v : UpdMode) : UpdMode.ofBits v.bits = v := by cases v <;> rfl
@[simp] theorem XYMode.ofBits_bits (v : XYMode) : XYMode.ofBits v.bits = v := by cases v <;> rfl
@[simp] theorem LongReg.ofBits_bits (v : LongReg) : LongReg.ofBits v.bits = v := by cases v <;> rfl
@[simp] theorem XSide.ofBits_bits (v : XSide) : XSide.ofBits v.bits = v := by cases v <;> rfl
@[simp] theorem YSide.ofBits_bits (v : YSide) : YSide.ofBits v.bits = v := by cases v <;> rfl
@[simp] theorem X01.ofBits_bits (v : X01) : X01.ofBits v.bits = v := by cases v <;> rfl
@[simp] theorem Y01.ofBits_bits (v : Y01) : Y01.ofBits v.bits = v := by cases v <;> rfl
@[simp] theorem Sign1.ofBits_bits (v : Sign1) : Sign1.ofBits v.bits = v := by cases v <;> rfl
@[simp] theorem XYReg.ofJJ_jj (v : XYReg) : XYReg.ofJJ v.jj = v := by cases v <;> rfl
@[simp] theorem XYReg.ofQQ_qq (v : XYReg) : XYReg.ofQQ v.qq = v := by cases v <;> rfl
@[simp] theorem Sign2.ofBits_bits (v : Sign2) : Sign2.ofBits v.bits = some v := by cases v <;> rfl
@[simp] theorem ShiftSrc.ofBits_bits (v : ShiftSrc) : ShiftSrc.ofBits v.bits = some v := by cases v <;> rfl
@[simp] theorem InsSrc.ofBits_bits (v : InsSrc) : InsSrc.ofBits v.bits = some v := by cases v <;> rfl
@[simp] theorem AluReg.ofBits_bits (v : AluReg) : AluReg.ofBits v.bits = some v := by cases v <;> rfl
@[simp] theorem MulOps.ofBits_bits (v : MulOps) : MulOps.ofBits v.bits = v := by rcases v with ⟨a, b⟩; cases a <;> cases b <;> rfl
@[simp] theorem fin8OfBits_fin8Bits (n : Fin 8) : fin8OfBits (fin8Bits n) = n := by revert n; decide
@[simp] theorem fin4OfBits_fin4Bits (n : Fin 4) : fin4OfBits (fin4Bits n) = n := by revert n; decide
@[simp] theorem boolOfBits_boolBits (b : Bool) : boolOfBits (boolBits b) = b := by cases b <;> rfl
@[simp] theorem AguReg.ofBits_bits (v : AguReg) : AguReg.ofBits v.bits = v := by cases v <;> (rename_i n; revert n; decide)
@[simp] theorem DReg.ofBits_bits (v : DReg) : DReg.ofBits v.bits = some v := by
  cases v with
  | alu r => cases r <;> rfl
  | r n => revert n; decide
  | n n => revert n; decide
@[simp] theorem CReg.ofBits_bits (v : CReg) : CReg.ofBits v.bits = some v := by
  cases v with
  | m n => revert n; decide
  | _ => rfl
@[simp] theorem Reg.ofBits_bits (v : Reg) : Reg.ofBits v.bits = some v := by
  cases v with
  | d r => cases r with
    | alu r => cases r <;> rfl
    | r n => revert n; decide
    | n n => revert n; decide
  | c r => cases r with
    | m n => revert n; decide
    | _ => rfl

end Sys2Proof
end

