-- ==== Sys2Proof/Laws/Inv.lean ====
section
/-!
SUPPORT. Every shared operation keeps the invariant (Safety.lean), the canonical form of the memories with it.
-/
namespace Sys2Proof.Machine

/-- An update that leaves alone every part the invariant speaks of but the interrupt controller. -/
theorem Inv.of_irq {s t : State} (h : Inv s) (irq : IrqOk t.irq) (same : t.mem = s.mem ∧ t.cache = s.cache ∧
    t.pcu.sr = s.pcu.sr ∧ t.pcu.omr = s.pcu.omr ∧ t.pcu.vba = s.pcu.vba ∧ t.ctl.ctx = s.ctl.ctx ∧
    t.once.trace = s.once.trace) : Inv t := by
  obtain ⟨hm, hc, hsr, homr, hvba, hctx, hon⟩ := same
  exact ⟨by rw [Memory.wf_congr hm (by rw [hc])]; exact h.mem, hsr ▸ h.sr, homr ▸ h.omr, hvba ▸ h.vba, hc ▸ h.lru,
    irq, hctx ▸ h.ctx, hon ▸ h.trace⟩

/-- An update that leaves alone every part the invariant speaks of. -/
theorem Inv.of_same {s t : State} (h : Inv s) (same : t.irq = s.irq ∧ t.mem = s.mem ∧ t.cache = s.cache ∧
    t.pcu.sr = s.pcu.sr ∧ t.pcu.omr = s.pcu.omr ∧ t.pcu.vba = s.pcu.vba ∧ t.ctl.ctx = s.ctl.ctx ∧
    t.once.trace = s.once.trace) : Inv t :=
  h.of_irq (same.1 ▸ h.irq) same.2

/-- An update of the memories and of the cache's words alone. -/
theorem Inv.of_mem {s t : State} (h : Inv s) (mem : Memory.wf t = true) (lru : LruOk t.cache) (same : t.irq = s.irq ∧
    t.pcu.sr = s.pcu.sr ∧ t.pcu.omr = s.pcu.omr ∧ t.pcu.vba = s.pcu.vba ∧ t.ctl.ctx = s.ctl.ctx ∧
    t.once.trace = s.once.trace) : Inv t := by
  obtain ⟨hirq, hsr, homr, hvba, hctx, hon⟩ := same
  exact ⟨mem, hsr ▸ h.sr, homr ▸ h.omr, hvba ▸ h.vba, lru, hirq ▸ h.irq, hctx ▸ h.ctx, hon ▸ h.trace⟩

/-! ## Masks -/

theorem Clear.or {n : Nat} {m a b : BitVec n} (ha : Clear m a) (hb : Clear m b) : Clear m (a ||| b) := by
  unfold Clear at *; rw [BitVec.and_comm, BitVec.and_or_distrib_left, BitVec.and_comm m a, BitVec.and_comm m b, ha, hb]; simp

theorem Clear.and_left {n : Nat} {m a : BitVec n} (b : BitVec n) (ha : Clear m a) : Clear m (a &&& b) := by
  unfold Clear at *; rw [BitVec.and_assoc, BitVec.and_comm b m, ← BitVec.and_assoc, ha]; simp

theorem Clear.of_mask {n : Nat} {m b : BitVec n} (a : BitVec n) (hb : Clear m b) : Clear m (a &&& b) := by
  rw [BitVec.and_comm]; exact hb.and_left a

theorem Clear.setBit {n : Nat} {m v : BitVec n} {i : Nat} (b : Bool) (hv : Clear m v) (hi : Clear m (BitVec.twoPow n i)) :
    Clear m (setBit v i b) := by
  unfold Sys2Proof.setBit
  split
  · exact hv.or hi
  · exact hv.and_left _

theorem Clear.self_not {n : Nat} (m : BitVec n) : Clear (~~~m) m := by simp [Clear]

/-! ## SR, OMR, VBA -/

theorem SrOk.masked (v : Word) : SrOk (v &&& 0xFBEFFF#24) := Clear.of_mask v (by decide)

theorem SrOk.ccr {v : Word} (c : Byte) (h : SrOk v) : SrOk ((v &&& 0xFFFF00#24) ||| c.setWidth 24) := by
  refine Clear.or (Clear.and_left _ h) ?_
  unfold Clear
  ext i hi
  simp only [BitVec.getElem_and, BitVec.getElem_setWidth]
  interval_cases i <;> simp

theorem SrOk.loopFlags {v : Word} (a b : Bool) (h : SrOk v) : SrOk (setBit (setBit v 15 a) 16 b) :=
  Clear.setBit b (Clear.setBit a h (by decide)) (by decide)

theorem SrOk.entry {v : Word} (l : BitVec 2) (h : SrOk v) : SrOk (entrySr v l) := by
  refine Clear.or (Clear.and_left _ h) ?_
  generalize raisedMask (v.extractLsb' 8 2) l = m
  revert m; decide

theorem OmrOk.masked (v : Word) : OmrOk (v &&& omrMask) := Clear.of_mask v (Clear.self_not _)

theorem OmrOk.sub {v : Word} (h : v &&& 0x1F3FDF#24 = v) : OmrOk v := by
  have : OmrOk (v &&& 0x1F3FDF#24) := by
    refine Clear.of_mask v ?_
    simp only [Clear, omrMask]
    generalize bitAt 24 23 Config.hasPen = a
    generalize (if Config.hasMsw then 0x600000#24 else 0) = b
    generalize bitAt 24 15 Config.hasAte = c
    generalize bitAt 24 14 Config.hasApd = d
    ext i hi
    simp only [BitVec.getElem_and, BitVec.getElem_not, BitVec.getElem_or]
    cases (0x1F3FDF#24)[i] <;> simp
  rwa [h] at this

theorem OmrOk.or {v w : Word} (h : OmrOk v) (hw : w &&& 0x1F3FDF#24 = w) : OmrOk (v ||| w) := Clear.or h (OmrOk.sub hw)

theorem VbaOk.masked (v : Word) : VbaOk (v &&& 0xFFFF00#24) := Clear.of_mask v (by decide)

/-! ## The interrupt controller -/

/-- A cleared mask of edge latches, bit by bit. -/
theorem clear_irqKeep_iff (p : Word) (v : BitVec 128) :
    Clear (~~~irqKeep p) v ↔ ∀ i : Fin 4, irqLatches p i = false → v.getLsbD (8 + i) = false := by
  have key : ∀ (k : Nat) (b : Bool), k < 128 →
      (v &&& bitAt 128 k b = 0 ↔ (b = true → v.getLsbD k = false)) := by
    intro k b hk
    cases b
    · simp [bitAt]
    · simp only [bitAt, if_true, BitVec.and_twoPow, true_implies]
      cases v.getLsbD k
      · simp
      · simp only [if_true, Bool.true_eq_false, iff_false]
        intro h
        have := congrArg (fun w : BitVec 128 => w.getLsbD k) h
        simp [hk] at this
  have split : ∀ a b : BitVec 128, v &&& (a ||| b) = 0 ↔ v &&& a = 0 ∧ v &&& b = 0 := by
    intro a b
    rw [BitVec.and_or_distrib_left]
    constructor
    · intro h
      have hx : ∀ i : Nat, (v &&& a).getLsbD i = false ∧ (v &&& b).getLsbD i = false := by
        intro i
        have := congrArg (fun w : BitVec 128 => w.getLsbD i) h
        simpa [-BitVec.getLsbD_and] using this
      exact ⟨BitVec.eq_of_getLsbD_eq fun i _ => by simpa using (hx i).1,
        BitVec.eq_of_getLsbD_eq fun i _ => by simpa using (hx i).2⟩
    · rintro ⟨h1, h2⟩; rw [h1, h2]; rfl
  simp only [Clear, irqKeep, BitVec.not_not, split, key 8 _ (by omega), key 9 _ (by omega), key 10 _ (by omega),
    key 11 _ (by omega), Bool.not_eq_true']
  constructor
  · rintro ⟨⟨⟨h0, h1⟩, h2⟩, h3⟩ i
    match i with
    | 0 => exact h0
    | 1 => exact h1
    | 2 => exact h2
    | 3 => exact h3
  · intro h; exact ⟨⟨⟨h 0, h 1⟩, h 2⟩, h 3⟩

/-- Setting or clearing a flag that is not an edge latch, or clearing any, keeps the controller in order. -/
theorem IrqOk.setPend {i : Irq} (h : IrqOk i) (k : Nat) (b : Bool) (hk : k < 8 ∨ 12 ≤ k ∨ b = false) :
    IrqOk { i with pend := Sys2Proof.setBit i.pend k b } := by
  refine ⟨?_, h.2⟩
  have h1 := (clear_irqKeep_iff _ _).1 h.1
  refine (clear_irqKeep_iff _ _).2 fun j hj => ?_
  rw [getLsbD_setBit]
  have hj4 : j.val < 4 := j.isLt
  split
  · next hc => rcases hk with h8 | h12 | hb <;> [omega; omega; exact hb]
  · exact h1 j hj

theorem IrqOk.iprc {i : Irq} (h : IrqOk i) (v : Word) :
    IrqOk { i with iprc := v, pend := i.pend &&& irqKeep v } :=
  ⟨Clear.of_mask _ (Clear.self_not _), h.2⟩

theorem IrqOk.of_level3 {i : Irq} (h : IrqOk i) (p q : Word) :
    IrqOk { i with iprc := p, iprp := q, pend := i.pend &&& level3Mask } := by
  refine ⟨(clear_irqKeep_iff _ _).2 fun j _ => ?_, h.2⟩
  simp only [BitVec.getLsbD_and, level3Mask]
  have : ∀ j : Fin 4, (0xFF#128).getLsbD (8 + j) = false := by decide
  simp [this j]

/-! ## The cache -/

theorem LruOk.touch {c : ICache} (h : LruOk c) (sec : Fin 8) : LruOk (c.touch sec) := by
  have hn : c.lru.Nodup := h.nodup_iff.2 (by decide)
  have hm : ∀ t, t ∈ c.lru := fun t => h.mem_iff.2 (by revert t; decide)
  refine (List.perm_ext_iff_of_nodup ?_ (by decide)).2 fun t => ?_
  · simp only [ICache.touch, List.nodup_cons]
    exact ⟨by simp, hn.filter _⟩
  · simp only [ICache.touch, List.mem_cons, List.mem_filter, hm, true_and]
    have : t ∈ sectors := by revert t; decide
    simp [this, em]

theorem LruOk.flush (c : ICache) : LruOk c.flush := List.Perm.refl _

/-! ## Single updates -/

variable {s : State}

theorem Inv.withPc (h : Inv s) (v : Word) : Inv (s.withPc v) := h.of_same (by simp)
theorem Inv.withSp (h : Inv s) (v : Word) : Inv (s.withSp v) := h.of_same (by simp)
theorem Inv.withSc (h : Inv s) (v : BitVec 5) : Inv (s.withSc v) := h.of_same (by simp)
theorem Inv.withLa (h : Inv s) (v : Word) : Inv (s.withLa v) := h.of_same (by simp)
theorem Inv.withLc (h : Inv s) (v : Word) : Inv (s.withLc v) := h.of_same (by simp)
theorem Inv.setSsh (h : Inv s) (i : Fin 16) (v : Word) : Inv (s.setSsh i v) := h.of_same (by simp)
theorem Inv.setSsl (h : Inv s) (i : Fin 16) (v : Word) : Inv (s.setSsl i v) := h.of_same (by simp)
theorem Inv.setR (h : Inv s) (n : Fin 8) (v : Word) : Inv (s.setR n v) := h.of_same (by simp)
theorem Inv.withAcc (h : Inv s) (d : Acc) (v : AccWord) : Inv (s.withAcc d v) := h.of_same (by simp)
theorem Inv.withPhase (h : Inv s) (p : Phase) : Inv (s.withPhase p) := h.of_same (by simp)
theorem Inv.withRep (h : Inv s) (r : Option Rep) : Inv (s.withRep r) := h.of_same (by simp)
theorem Inv.withChannel (h : Inv s) (n : Fin 6) (c : DmaChannel) : Inv (s.withChannel n c) := h.of_same (by simp)
theorem Inv.setDtd (h : Inv s) (n : Fin 6) (b : Bool) : Inv (s.setDtd n b) := h.of_same (by simp)
theorem Inv.clearTriggers (h : Inv s) : Inv s.clearTriggers := h.of_same (by simp)
theorem Inv.tick (h : Inv s) : Inv s.tick := h.of_same (by simp)
theorem Inv.begin (h : Inv s) (a : Word) : Inv (s.begin a) := h.of_same (by simp [State.begin])
theorem Inv.withPdb (h : Inv s) (p : List (Word × Word)) : Inv (s.withPdb p) := h.of_same (by simp)
theorem Inv.withEcho (h : Inv s) (k : Nat) (m w : Word) (n : Nat) : Inv (s.withEcho k m w n) := h.of_same (by simp)
theorem Inv.refresh (h : Inv s) : Inv s.refresh := h.of_same (by simp)
theorem Inv.notePWrite (h : Inv s) (a : Word) : Inv (s.notePWrite a) := h.of_same (by simp)
theorem Inv.dmaLoad (h : Inv s) (n : Fin 6) (v : Word) : Inv (s.dmaLoad n v) := h.of_same (by simp)
theorem Inv.serveTrigger (h : Inv s) (n : Fin 6) : Inv (s.serveTrigger n) := h.of_same (by simp)

theorem Inv.withSr (h : Inv s) {v : Word} (hv : SrOk v) : Inv (s.withSr v) :=
  ⟨h.mem, hv, h.omr, h.vba, h.lru, h.irq, h.ctx, h.trace⟩
theorem Inv.withOmr (h : Inv s) {v : Word} (hv : OmrOk v) : Inv (s.withOmr v) :=
  ⟨h.mem, h.sr, hv, h.vba, h.lru, h.irq, h.ctx, h.trace⟩
theorem Inv.withCcr (h : Inv s) (c : Byte) : Inv (s.withCcr c) := h.withSr (SrOk.ccr c h.sr)
theorem Inv.withLoopFlags (h : Inv s) (a b : Bool) : Inv (s.withLoopFlags a b) := h.withSr (SrOk.loopFlags a b h.sr)
theorem Inv.withCtx (h : Inv s) {c : Option IntCtx} (hc : CtxOk c) : Inv (s.withCtx c) :=
  ⟨h.mem, h.sr, h.omr, h.vba, h.lru, h.irq, hc, h.trace⟩
theorem Inv.noCtx (h : Inv s) : Inv (s.withCtx none) := h.withCtx fun _ h => by cases h
theorem Inv.setPend (h : Inv s) (k : Nat) (b : Bool) (hk : k < 8 ∨ 12 ≤ k ∨ b = false) : Inv (s.setPend k b) :=
  h.of_irq (h.irq.setPend k b hk) (by simp)
theorem Inv.writeIprc (h : Inv s) (v : Word) : Inv (s.writeIprc v) := h.of_irq (h.irq.iprc v) (by simp)
theorem Inv.resetPeripherals (h : Inv s) : Inv s.resetPeripherals := h.of_irq (h.irq.of_level3 0 0) (by simp)
theorem Inv.stackError (h : Inv s) : Inv s.stackError := h.setPend 1 true (.inl (by omega))
theorem Inv.writeOmr (h : Inv s) (v : Word) : Inv (s.writeOmr v) := by
  unfold State.writeOmr
  split
  · exact (h.withOmr (OmrOk.masked v)).refresh
  · exact h.withOmr (OmrOk.masked v)

/-! ## Memory and I/O -/

theorem Inv.withDataMem (h : Inv s) (sp : Space) (a : Nat) (w : Word) :
    Inv (s.withDataMem sp ((s.dataMem sp).write a w)) := by
  obtain ⟨p, x, y, e, d⟩ := (Memory.wf_iff s).1 h.mem
  refine h.of_mem ((Memory.wf_iff _).2 ?_) (by simpa using h.lru) (by simp)
  cases sp
  · exact ⟨p, Mem.wf_write a w x, y, e, d⟩
  · exact ⟨p, x, Mem.wf_write a w y, e, d⟩

theorem Inv.dmaInterrupt (h : Inv s) (n : Fin 6) (d : Word) : Inv (s.dmaInterrupt n d) := by
  unfold State.dmaInterrupt
  split
  · exact h.setPend _ true (.inr (.inl (by omega)))
  · exact h

theorem Inv.writeDcr (h : Inv s) (n : Fin 6) (v : Word) : Inv (s.writeDcr n v) := by
  simp only [State.writeDcr]
  repeat' split
  · exact (h.withChannel n _).setDtd n false
  · exact h.withChannel n _
  · exact (h.withChannel n _).setDtd n true
  · exact ((h.withChannel n _).setDtd n true).dmaInterrupt n v
  · exact h.withChannel n _

theorem Inv.writeDmaReg (h : Inv s) (n : Fin 6) (f : Nat) (v : Word) : Inv (s.writeDmaReg n f v) := by
  unfold State.writeDmaReg
  split
  · exact ((h.writeDcr n v).withEcho _ _ _ _).withEcho _ _ _ _
  · exact h.of_same (by simp)

theorem Inv.writeDramCtrl (h : Inv s) (v : Word) : Inv (s.writeDramCtrl v) := h.of_same (by simp)

theorem Inv.writeCoreReg (h : Inv s) (k : Nat) (v : Word) : Inv (s.writeCoreReg k v) := by
  unfold State.writeCoreReg
  split
  · exact h.writeIprc v
  split
  · exact h.of_irq h.irq (by simp)
  repeat' split
  all_goals first | exact h | exact h.writeDmaReg _ _ v | exact h.writeDramCtrl v | exact h.of_same (by simp)

theorem Inv.writeData (h : Inv s) (sp : Space) (a w : Word) : Inv (s.writeData sp a w) := by
  unfold State.writeData
  repeat' split
  all_goals first | exact h | exact h.writeCoreReg _ w | exact h.withDataMem sp _ w

theorem Inv.withPMem (h : Inv s) (e : Bool) {m : Mem} (hm : m.wf = true) : Inv (s.withPMem e m) := by
  obtain ⟨p, x, y, x', d⟩ := (Memory.wf_iff s).1 h.mem
  refine h.of_mem ((Memory.wf_iff _).2 ?_) (by simpa using h.lru) (by simp)
  cases e
  · exact ⟨hm, x, y, x', d⟩
  · exact ⟨p, x, y, hm, d⟩

theorem Inv.pMem (h : Inv s) (e : Bool) : (s.pMem e).wf = true := by
  obtain ⟨p, _, _, x, _⟩ := (Memory.wf_iff s).1 h.mem
  cases e
  · exact p
  · exact x

theorem Inv.pRawWrite (h : Inv s) (a w : Word) : Inv (s.pRawWrite a w) := by
  unfold State.pRawWrite
  split
  · exact h
  · exact h.withPMem _ (Mem.wf_write _ w (h.pMem _))

/-! ## The cache in the state -/

/-- The cache replaced by one in order. -/
theorem Inv.withCache (h : Inv s) {c : ICache} (hl : LruOk c) (hd : c.data.wf = true) : Inv (s.withCache c) := by
  obtain ⟨p, x, y, e, _⟩ := (Memory.wf_iff s).1 h.mem
  exact h.of_mem ((Memory.wf_iff _).2 ⟨p, x, y, e, hd⟩) hl (by simp)

theorem Inv.cacheData (h : Inv s) : s.cache.data.wf = true := ((Memory.wf_iff s).1 h.mem).2.2.2.2

theorem ICache.put_data (c : ICache) (sec : Fin 8) (a w : Word) (h : c.data.wf = true) : (c.put sec a w).data.wf = true :=
  Mem.wf_write _ w h

theorem ICache.fill_data (s : State) (c : ICache) (sec : Fin 8) (a : Word) (h : c.data.wf = true) :
    (s.fill c sec a).data.wf = true := by
  unfold State.fill
  generalize fillAddrs s.burst a = l
  induction l generalizing c with
  | nil => exact h
  | cons b l ih => exact ih _ (c.put_data sec b _ h)

theorem ICache.fill_lru (s : State) (c : ICache) (sec : Fin 8) (a : Word) : (s.fill c sec a).lru = c.lru := by
  unfold State.fill
  generalize fillAddrs s.burst a = l
  induction l generalizing c with
  | nil => rfl
  | cons b l ih => exact ih _

theorem LruOk.congr {c d : ICache} (h : LruOk c) (e : d.lru = c.lru) : LruOk d := by unfold LruOk; rw [e]; exact h

/-- An instruction fetch changes the cache alone. -/
theorem Inv.fetchCached (h : Inv s) {a w : Word} {t : State} (e : s.fetchCached a = some (w, t)) : Inv t := by
  unfold State.fetchCached at e
  repeat' split at e
  all_goals cases e
  · exact h.withCache (h.lru.touch _) h.cacheData
  · exact h.withCache (LruOk.touch (h.lru.congr (ICache.fill_lru ..)) _) (ICache.fill_data _ _ _ _ h.cacheData)
  · exact h
  · exact h.withCache (LruOk.touch (h.lru.congr (ICache.fill_lru _ (s.cache.take _ a) _ a)) _)
      (ICache.fill_data _ _ _ _ h.cacheData)

theorem Inv.fetch (h : Inv s) {a w : Word} {t : State} (e : s.fetch a = some (w, t)) : Inv t := by
  unfold State.fetch at e
  repeat' split at e
  · exact h.fetchCached e
  · cases e
  · cases e; exact h

theorem Inv.writeP (h : Inv s) (a w : Word) : Inv (s.writeP a w) := by
  simp only [State.writeP]
  repeat' split
  all_goals first | exact h | exact h.pRawWrite a w | skip
  all_goals first | exact h.withCache h.lru (ICache.put_data _ _ _ _ h.cacheData)
                  | exact (h.pRawWrite a w).withCache h.lru (ICache.put_data _ _ _ _ h.cacheData)

theorem Mem.wf_writes {α : Type} (l : List α) (f : α → Nat) (g : α → Word) {m : Mem} (h : m.wf = true) :
    (l.foldl (fun m i => m.write (f i) (g i)) m).wf = true := by
  induction l generalizing m with
  | nil => exact h
  | cons i l ih => exact ih (Mem.wf_write _ _ h)

theorem Inv.scrambleCacheRam (h : Inv s) : Inv s.scrambleCacheRam := by
  obtain ⟨p, x, y, e, d⟩ := (Memory.wf_iff _).1 h.mem
  refine h.of_mem ((Memory.wf_iff _).2 ⟨?_, ?_⟩) (by simpa using h.lru) (by simp)
  · simp only [State.scrambleCacheRam]
    generalize List.range 1024 = l
    exact Mem.wf_writes l _ _ p
  · simpa using ⟨x, y, e, d⟩

theorem Inv.leaveCacheMode (h : Inv s) : Inv s.leaveCacheMode :=
  (h.withCache (LruOk.flush _) h.cacheData).scrambleCacheRam

theorem Inv.writeSr (h : Inv s) (v : Word) : Inv (s.writeSr v) := by
  simp only [State.writeSr]
  split
  · exact (h.withSr (SrOk.masked v)).leaveCacheMode
  · exact h.withSr (SrOk.masked v)

/-! ## The stack -/

theorem Inv.spUp (h : Inv s) : Inv s.spUp := by
  have ho : OmrOk (s.pcu.omr ||| 0x040000#24) := h.omr.or (by decide)
  simp only [State.spUp]
  repeat' split
  · exact (h.withOmr ho).withSp _
  · exact (h.stackError.withOmr ho).withSp _
  · exact h.withSp _
  · exact h.stackError.withSp _
  · exact h.withSp _

theorem Inv.spDown (h : Inv s) : Inv s.spDown := by
  have ho : OmrOk (s.pcu.omr ||| 0x020000#24) := h.omr.or (by decide)
  simp only [State.spDown]
  repeat' split
  · exact (h.withOmr ho).withSp _
  · exact (h.stackError.withOmr ho).withSp _
  · exact h.withSp _
  · exact h.stackError.withSp _
  · exact h.withSp _

theorem Inv.spill (h : Inv s) : Inv s.spill := by
  have h1 : Inv (s.withOmr (s.pcu.omr ||| 0x080000#24)) := h.withOmr (h.omr.or (by decide))
  have h3 := (h1.writeData s.xys s.agu.ep s.pcu.ssh[(Fin.ofNat 16 (s.pcu.sp.toNat + 33 - s.pcu.sc.toNat))]).writeData
    s.xys (s.agu.ep + 1) s.pcu.ssl[(Fin.ofNat 16 (s.pcu.sp.toNat + 33 - s.pcu.sc.toNat))]
  exact h3.of_same ⟨rfl, rfl, rfl, rfl, rfl, rfl, rfl, rfl⟩

theorem Inv.refill (h : Inv s) : Inv s.refill := h.of_same (by simp [State.refill])

theorem Inv.balance (h : Inv s) : Inv s.balance := by
  unfold State.balance
  repeat' split
  all_goals first | exact h.spill | exact h.refill | exact h

theorem Inv.afterPush (h : Inv s) : Inv s.afterPush := by
  unfold State.afterPush
  split
  · exact h.spill
  · exact h

theorem Inv.afterPull (h : Inv s) : Inv s.afterPull := by
  unfold State.afterPull
  split
  · exact h.refill
  · exact h

theorem Inv.push (h : Inv s) (a b : Word) : Inv (s.push a b) :=
  (((h.spUp.setSsh _ a).setSsl _ b).withSc _).afterPush

theorem Inv.pop (h : Inv s) : Inv s.pop := (h.spDown.withSc _).afterPull

theorem Inv.pushHigh (h : Inv s) (a : Word) : Inv (s.pushHigh a) := ((h.spUp.setSsh _ a).withSc _).afterPush

/-! ## Registers -/

theorem Inv.wrXY (h : Inv s) (r : XYReg) (w : Word) : Inv (s.wrXY r w) := h.of_same (by simp)
theorem Inv.wrAlu (h : Inv s) (r : AluReg) (w : Word) : Inv (s.wrAlu r w) := h.of_same (by simp)
theorem Inv.wrD (h : Inv s) (d : DReg) (w : Word) : Inv (s.wrD d w) := h.of_same (by simp)
theorem Inv.mergeSL (h : Inv s) (r : Rd) : Inv (s.mergeSL r) := h.withCcr _
theorem Inv.setC (h : Inv s) (t : Bool) : Inv (s.setC t) := h.withCcr _
theorem Inv.applyUpd (h : Inv s) (u : Option (Fin 8 × Word)) : Inv (s.applyUpd u) := h.of_same (by simp)

theorem Inv.wrC (h : Inv s) (c : CReg) (w : Word) : Inv (s.wrC c w) := by
  cases c with
  | m n => exact h.of_same (by simp [State.wrC])
  | ep => exact h.of_same (by simp [State.wrC])
  | vba =>
    exact ⟨h.mem, h.sr, h.omr, VbaOk.masked _, h.lru, h.irq, h.ctx, h.trace⟩
  | sc => exact (h.withSc _).balance
  | sz => exact h.of_same (by simp [State.wrC])
  | sr => exact h.writeSr _
  | omr => exact h.writeOmr _
  | sp => exact h.withSp _
  | ssh => exact h.pushHigh _
  | ssl => exact h.setSsl _ _
  | la => exact h.of_same (by simp [State.wrC])
  | lc => exact h.of_same (by simp [State.wrC])

theorem Inv.wrReg (h : Inv s) (r : Reg) (w : Word) : Inv (s.wrReg r w) := by
  cases r with
  | d d => exact h.wrD d w
  | c c => exact h.wrC c w

theorem Inv.rdReg (h : Inv s) (r : Reg) : Inv (s.rdReg r).2 := by
  cases r with
  | d d => exact h.mergeSL _
  | c c =>
    simp only [State.rdReg]
    split
    · exact h.pop
    · exact h

theorem Inv.bitRead (h : Inv s) (o : BitOpd) : Inv (s.bitRead o).st := by
  cases o with
  | mem sp e => exact h.applyUpd _
  | io sp a => exact h
  | reg r => exact h.rdReg r

theorem Inv.bitWrite (h : Inv s) (o : BitOpd) (a w : Word) : Inv (s.bitWrite o a w) := by
  cases o with
  | mem sp e => exact h.writeData sp a w
  | io sp b => exact h.writeData sp a w
  | reg r => exact h.wrReg r w

/-! ## Data ALU operations and parallel moves -/

theorem Inv.commitAcc (h : Inv s) (o : AluOut) : Inv (s.commitAcc o) := h.withAcc _ _
theorem Inv.commitAlu (h : Inv s) (o : AluOut) : Inv (s.commitAlu o) := (h.withAcc _ _).withCcr _
theorem Inv.freeTwice (h : Inv s) (d : Option Acc) : Inv (s.freeTwice d) := h.of_same (by simp)
theorem Inv.applyUpds (h : Inv s) (u : List (Fin 8 × Word)) : Inv (s.applyUpds u) := h.of_same (by simp)
theorem Inv.applyRegs (h : Inv s) (u : List (DReg × Word)) : Inv (s.applyRegs u) := h.of_same (by simp)

theorem Inv.applyMems (h : Inv s) (u : List (Space × Word × Word)) : Inv (s.applyMems u) := by
  unfold State.applyMems
  induction u generalizing s with
  | nil => exact h
  | cons p u ih => exact ih (h.writeData _ _ _)

theorem Inv.commit (h : Inv s) (o : AluOut) (p : Plan) : Inv (s.commit o p) :=
  ((((((h.applyUpds _).commitAcc o).applyRegs _).freeTwice _).withCcr _).applyMems _)

/-! ## The flow of control -/

theorem Inv.advance (h : Inv s) (n : Nat) : Inv (s.advance n) := h.withPc _
theorem Inv.jump (h : Inv s) (a : Word) : Inv (s.jump a) := h.noCtx.withPc a
theorem Inv.longEntry (h : Inv s) (l : BitVec 2) (a : Word) : Inv (s.longEntry l a) :=
  ((h.push _ _).withSr (SrOk.entry l (h.push _ _).sr)).jump a
theorem Inv.call (h : Inv s) (n : Nat) (a : Word) : Inv (s.call n a) := by
  unfold State.call
  split
  · exact (h.push _ _).jump a
  · exact h.longEntry _ a
theorem Inv.returnFromInterrupt (h : Inv s) : Inv s.returnFromInterrupt := (h.pop.writeSr _).jump _
theorem Inv.returnFromSubroutine (h : Inv s) : Inv s.returnFromSubroutine := h.pop.jump _
theorem Inv.leaveLoop (h : Inv s) : Inv s.leaveLoop := (((h.pop.withLoopFlags _ _).pop.withLa _).withLc _)
theorem Inv.enterLoop (h : Inv s) (la : Word) (f : Bool) : Inv (s.enterLoop la f) :=
  ((h.push _ _).withLa la).withLoopFlags true f
theorem Inv.endOfLoop (h : Inv s) : Inv s.endOfLoop := by
  unfold State.endOfLoop
  split
  · exact (h.withLc _).withPc _
  · exact h.leaveLoop.withPc _
theorem Inv.illegal (h : Inv s) (n : Nat) : Inv (s.illegal n) := (h.setPend 2 true (.inl (by omega))).advance n
theorem Inv.trap (h : Inv s) : Inv s.trap := (h.setPend 4 true (.inl (by omega))).advance 1

theorem Inv.controlByte (h : Inv s) (f : Word → Word → Word) (i : Word) (e : PcuByte) : Inv (controlByte f i e s) := by
  cases e with
  | mr => exact h.writeSr _
  | ccr => exact h.writeSr _
  | com => exact h.writeOmr _
  | eom => exact h.writeOmr _

/-! ## Debug mode -/

theorem Inv.once (h : Inv s) {o : Once} (ht : o.trace.length ≤ 12) : Inv { s with once := o } :=
  ⟨h.mem, h.sr, h.omr, h.vba, h.lru, h.irq, h.ctx, ht⟩

theorem Inv.latchPipeline (h : Inv s) : Inv s.latchPipeline := h.once h.trace

theorem Inv.debugLatches (h : Inv s) : Inv s.debugLatches := h.latchPipeline.once h.trace

theorem Inv.endHalt (h : Inv s) : Inv s.endHalt := by
  unfold State.endHalt
  have hw : (0#3).toNat ≤ 6 := by decide
  split
  · exact (h.of_irq ⟨(h.irq.of_level3 s.irq.iprc s.irq.iprp).1, hw⟩ (by simp)).withPhase .normal
  · exact (h.of_irq (t := { s with irq := { s.irq with window := 0 } }) ⟨h.irq.1, hw⟩ (by simp)).withPhase .normal
  all_goals exact h

theorem Inv.enterDebug (h : Inv s) (c : BitVec 3) : Inv (s.enterDebug c) := by
  simp only [State.enterDebug]
  repeat' split
  · exact h
  · exact h.endHalt.setPend 3 true (.inl (by omega))
  · exact (h.endHalt.withPhase .debug).debugLatches.once (h.endHalt.withPhase .debug).debugLatches.trace

theorem Inv.debugCall (h : Inv s) : Inv s.debugCall := (h.advance 1).enterDebug _

/-! ## Cache commands -/

theorem ICache.locate_keeps (c : ICache) (a : Word) {sec : Fin 8} {d : ICache} (e : c.locate a = some (sec, d)) :
    d.lru = c.lru ∧ d.data = c.data := by
  simp only [ICache.locate] at e
  split at e
  · cases e; exact ⟨rfl, rfl⟩
  · simp only [Option.map_eq_some_iff, Prod.mk.injEq] at e
    obtain ⟨_, _, _, rfl⟩ := e
    exact ⟨rfl, rfl⟩

theorem ICache.setLock_keeps {c : ICache} (hl : LruOk c) (hd : c.data.wf = true) (a : Word) (b : Bool) :
    LruOk (c.setLock a b) ∧ (c.setLock a b).data.wf = true := by
  simp only [ICache.setLock]
  split
  · exact ⟨hl, hd⟩
  · next sec d e =>
    obtain ⟨h1, h2⟩ := c.locate_keeps a e
    exact ⟨LruOk.touch (hl.congr h1) sec, by simpa [ICache.touch, h2] using hd⟩

theorem ICache.flushUnlocked_keeps {c : ICache} (hd : c.data.wf = true) :
    LruOk c.flushUnlocked ∧ c.flushUnlocked.data.wf = true := by
  refine ⟨List.Perm.refl _, ?_⟩
  have key : ∀ (l : List (Fin 8)) (d : ICache), d.data = c.data → (l.foldl (fun (d : ICache) (sec : Fin 8) =>
      if c.lock.getLsbD sec.val then d
      else { d with tag := d.tag.set sec 0x1FFFF#17, valid := d.valid.set sec 0 }) d).data = c.data := by
    intro l
    induction l with
    | nil => intro d e; exact e
    | cons x l ih => intro d e; apply ih; dsimp only; split <;> exact e
  show (sectors.foldl _ c).data.wf = true
  rw [key sectors c rfl]; exact hd

end Sys2Proof.Machine
end

