-- ==== Sys2Proof/Laws/Outcome.lean ====
section
/-!
SUPPORT. The shared meanings of Ops.lean: each answers a next state that keeps the invariant, or stops for the one reason
it has.
-/
namespace Sys2Proof.Machine

/-- Whatever next state the outcome has keeps the invariant. -/
def KeepsInv (r : Res) : Prop := ∀ t, r = .next t → Inv t

theorem KeepsInv.next {t : State} (h : Inv t) : KeepsInv (.next t) := fun _ e => by cases e; exact h
theorem KeepsInv.refused (r : Refusal) : KeepsInv (.refused r) := fun _ e => by cases e
theorem KeepsInv.fault (r : Fault) : KeepsInv (.fault r) := fun _ e => by cases e

variable {s : State}

theorem runAlu_inv (h : Inv s) (op : State → AluOut) (n : Nat) : KeepsInv (runAlu op n s) :=
  .next ((h.commitAlu _).advance n)

theorem runIf_inv (h : Inv s) (c : Cond) (op : State → AluOut) : KeepsInv (runIf c op s) := by
  refine .next (Inv.advance ?_ 1)
  split
  · exact h.commitAcc _
  · exact h

theorem runIfU_inv (h : Inv s) (c : Cond) (op : State → AluOut) : KeepsInv (runIfU c op s) := by
  refine .next (Inv.advance ?_ 1)
  split
  · exact h.commitAlu _
  · exact h

theorem runParallel_inv (h : Inv s) (op : State → AluOut) (m : PMove) : KeepsInv (runParallel op m s) :=
  .next ((h.commit _ _).advance _)

theorem runMove_inv (h : Inv s) (m : PMove) : KeepsInv (runMove m s) := runParallel_inv h _ m

theorem loadReg_inv (h : Inv s) (w : Word) (u : Option (Fin 8 × Word)) (r : Reg) (n : Nat) :
    KeepsInv (loadReg w u r n s) :=
  .next (((h.applyUpd u).wrReg r w).advance n)

theorem storeReg_inv (h : Inv s) (put : State → Word → State) (hp : ∀ t v, Inv t → Inv (put t v))
    (u : Option (Fin 8 × Word)) (r : Reg) (n : Nat) : KeepsInv (storeReg put u r n s) :=
  .next ((hp _ _ ((h.rdReg r).applyUpd u)).advance n)

theorem moveData_inv (h : Inv s) (sp : Space) (w : Dir) (e : Ea) (r : Reg) : KeepsInv (moveData sp w e r s) := by
  cases w
  · exact storeReg_inv h _ (fun t v ht => ht.writeData sp _ v) _ r _
  · exact loadReg_inv h _ _ r _

theorem moveAt_inv (h : Inv s) (sp : Space) (w : Dir) (a : Word) (r : Reg) (n : Nat) : KeepsInv (moveAt sp w a r n s) := by
  cases w
  · exact storeReg_inv h _ (fun t v ht => ht.writeData sp _ v) _ r _
  · exact loadReg_inv h _ _ r _

theorem moveProgram_inv (h : Inv s) (w : Dir) (a : Word) (u : Option (Fin 8 × Word)) (r : Reg) (n : Nat) :
    KeepsInv (moveProgram w a u r n s) := by
  cases w
  · exact storeReg_inv h _ (fun t v ht => ht.writeP a v) _ r _
  · exact loadReg_inv h _ _ r _

theorem moveRegs_inv (h : Inv s) (src dst : Reg) : KeepsInv (moveRegs src dst s) :=
  .next (((h.rdReg src).wrReg dst _).advance 1)

theorem movePeripheral_inv (h : Inv s) (ps : Space) (io : Word) (w : Dir) (sp : Space) (e : Ea) :
    KeepsInv (movePeripheral ps io w sp e s) := by
  cases w <;> exact .next (((h.applyUpd _).writeData _ _ _).advance _)

theorem movePeripheralP_inv (h : Inv s) (ps : Space) (io : Word) (w : Dir) (e : Ea) :
    KeepsInv (movePeripheralP ps io w e s) := by
  cases w
  · exact .next (((h.applyUpd _).writeP _ _).advance _)
  · exact .next (((h.applyUpd _).writeData _ _ _).advance _)

theorem movePeripheralReg_inv (h : Inv s) (ps : Space) (io : Word) (w : Dir) (r : Reg) :
    KeepsInv (movePeripheralReg ps io w r s) := by
  cases w
  · exact loadReg_inv h _ _ r _
  · exact storeReg_inv h _ (fun t v ht => ht.writeData ps io v) _ r _

theorem runTcc_inv (h : Inv s) (c : Cond) (o : State → AluOut) (r : Option (Fin 8 × Fin 8)) : KeepsInv (runTcc c o r s) := by
  refine .next (Inv.advance ?_ 1)
  split
  · cases r with
    | none => exact h.commitAcc _
    | some p => exact (h.commitAcc _).setR _ _
  · exact h

/-! ## Bit instructions -/

theorem bitModify_inv (h : Inv s) (f : Bool → Bool) (n : BitVec 5) (o : BitOpd) (len : Nat) :
    KeepsInv (bitModify f n o len s) := by
  simp only [bitModify]
  split
  · exact .refused _
  · refine .next (Inv.advance ?_ len)
    split
    · exact (h.bitRead o).bitWrite o _ _
    · exact ((h.bitRead o).bitWrite o _ _).setC _

theorem bitTest_inv (h : Inv s) (n : BitVec 5) (o : BitOpd) (len : Nat) : KeepsInv (bitTest n o len s) := by
  simp only [bitTest]
  split
  · exact .refused _
  · exact .next (((h.bitRead o).setC _).advance len)

theorem bitJump_inv (h : Inv s) (want : Bool) (n : BitVec 5) (o : BitOpd) (a : Word) : KeepsInv (bitJump want n o a s) := by
  simp only [bitJump]
  split
  · exact .refused _
  · refine .next ?_
    split
    · exact (h.bitRead o).jump a
    · exact (h.bitRead o).advance 2

theorem bitCall_inv (h : Inv s) (want : Bool) (n : BitVec 5) (o : BitOpd) (a : Word) : KeepsInv (bitCall want n o a s) := by
  simp only [bitCall]
  split
  · exact .refused _
  · refine .next ?_
    split
    · exact (h.bitRead o).call 2 a
    · exact (h.bitRead o).advance 2

/-! ## Jumps, calls, loops -/

theorem jumpIf_inv (h : Inv s) (c : Cond) (a : Word) (n : Nat) : KeepsInv (jumpIf c a n s) := by
  refine .next ?_
  split
  · exact h.jump a
  · exact h.advance n

theorem callIf_inv (h : Inv s) (c : Cond) (a : Word) (n : Nat) : KeepsInv (callIf c a n s) := by
  refine .next ?_
  split
  · exact h.call n a
  · exact h.advance n

theorem jumpEaIf_inv (h : Inv s) (take : Bool) (e : Ea) : KeepsInv (jumpEaIf take e s) := by
  refine .next ?_
  split
  · exact (h.applyUpd _).jump _
  · exact (h.applyUpd _).advance _

theorem callEaIf_inv (h : Inv s) (take : Bool) (e : Ea) : KeepsInv (callEaIf take e s) := by
  refine .next ?_
  split
  · exact (h.applyUpd _).call _ _
  · exact (h.applyUpd _).advance _

theorem startLoop_inv (h : Inv s) (src : State → Word × State) (hs : ∀ t, Inv t → Inv (src t).2) (la : Word) :
    KeepsInv (startLoop src la s) := by
  have h2 : Inv (((src (s.push s.pcu.la s.pcu.lc)).2.withLc (src (s.push s.pcu.la s.pcu.lc)).1).enterLoop la false) :=
    ((hs _ (h.push _ _)).withLc _).enterLoop la false
  simp only [startLoop]
  split
  · exact .next (h2.leaveLoop.withPc _)
  · exact .next (h2.advance 2)

theorem startForever_inv (h : Inv s) (la : Word) : KeepsInv (startForever la s) :=
  .next (((h.push _ _).enterLoop la true).advance 2)

theorem startRep_inv (r : Word × State) (hr : Inv r.2) : KeepsInv (startRep r s) := by
  simp only [startRep]
  split
  · exact .next (hr.advance 2)
  · exact .next (((hr.advance 1).withLc r.1).withRep _)

/-! ## Cache commands -/

theorem cacheCommand_inv (h : Inv s) (f : ICache → ICache)
    (hf : ∀ c : ICache, LruOk c → c.data.wf = true → LruOk (f c) ∧ (f c).data.wf = true) (n : Nat) :
    KeepsInv (cacheCommand f n s) := by
  unfold cacheCommand
  split
  · obtain ⟨h1, h2⟩ := hf _ h.lru h.cacheData
    exact .next ((h.withCache h1 h2).advance n)
  · exact .next (h.illegal n)

theorem lockEa_inv (h : Inv s) (b : Bool) (e : Ea) : KeepsInv (lockEa b e s) := by
  unfold lockEa
  split
  · obtain ⟨h1, h2⟩ := ICache.setLock_keeps h.lru h.cacheData (s.ea e).addr b
    exact .next (((h.applyUpd _).withCache h1 h2).advance _)
  · exact .next (h.illegal _)

theorem storeViterbi_inv (h : Inv s) (d : Acc) (i : Bool) (e : Ea) : KeepsInv (storeViterbi d i e s) :=
  .next ((((h.applyUpd _).writeData _ _ _).writeData _ _ _).advance _)

end Sys2Proof.Machine
end

