-- ==== Sys2Proof/Laws/Exec.lean ====
section
/-!
SUPPORT. Each meaning keeps the invariant: one line per instruction over the lemmas of the shared meanings.
-/
namespace Sys2Proof.Machine

variable {st : State}

theorem execMoveParallel_inv (h : Inv st) (m : PMove) : KeepsInv (execMoveParallel m st) := runMove_inv h _
theorem execTfrAcc_inv (h : Inv st) (d : Acc) (m : PMove) : KeepsInv (execTfrAcc d m st) := runParallel_inv h _ _
theorem execTfrReg_inv (h : Inv st) (s : XYReg) (d : Acc) (m : PMove) : KeepsInv (execTfrReg s d m st) :=
  runParallel_inv h _ _
theorem execAddr_inv (h : Inv st) (d : Acc) (m : PMove) : KeepsInv (execAddr d m st) := runParallel_inv h _ _
theorem execTst_inv (h : Inv st) (d : Acc) (m : PMove) : KeepsInv (execTst d m st) := runParallel_inv h _ _
theorem execCmpAcc_inv (h : Inv st) (d : Acc) (m : PMove) : KeepsInv (execCmpAcc d m st) := runParallel_inv h _ _
theorem execCmpReg_inv (h : Inv st) (s : XYReg) (d : Acc) (m : PMove) : KeepsInv (execCmpReg s d m st) :=
  runParallel_inv h _ _
theorem execSubr_inv (h : Inv st) (d : Acc) (m : PMove) : KeepsInv (execSubr d m st) := runParallel_inv h _ _
theorem execCmpmAcc_inv (h : Inv st) (d : Acc) (m : PMove) : KeepsInv (execCmpmAcc d m st) := runParallel_inv h _ _
theorem execCmpmReg_inv (h : Inv st) (s : XYReg) (d : Acc) (m : PMove) : KeepsInv (execCmpmReg s d m st) :=
  runParallel_inv h _ _
theorem execAddAcc_inv (h : Inv st) (d : Acc) (m : PMove) : KeepsInv (execAddAcc d m st) := runParallel_inv h _ _
theorem execAddXY_inv (h : Inv st) (s : XYLong) (d : Acc) (m : PMove) : KeepsInv (execAddXY s d m st) :=
  runParallel_inv h _ _
theorem execAddReg_inv (h : Inv st) (s : XYReg) (d : Acc) (m : PMove) : KeepsInv (execAddReg s d m st) :=
  runParallel_inv h _ _
theorem execRnd_inv (h : Inv st) (d : Acc) (m : PMove) : KeepsInv (execRnd d m st) := runParallel_inv h _ _
theorem execAddl_inv (h : Inv st) (d : Acc) (m : PMove) : KeepsInv (execAddl d m st) := runParallel_inv h _ _
theorem execClr_inv (h : Inv st) (d : Acc) (m : PMove) : KeepsInv (execClr d m st) := runParallel_inv h _ _
theorem execSubAcc_inv (h : Inv st) (d : Acc) (m : PMove) : KeepsInv (execSubAcc d m st) := runParallel_inv h _ _
theorem execSubXY_inv (h : Inv st) (s : XYLong) (d : Acc) (m : PMove) : KeepsInv (execSubXY s d m st) :=
  runParallel_inv h _ _
theorem execSubReg_inv (h : Inv st) (s : XYReg) (d : Acc) (m : PMove) : KeepsInv (execSubReg s d m st) :=
  runParallel_inv h _ _
theorem execMaxm_inv (h : Inv st) (m : PMove) : KeepsInv (execMaxm m st) := runParallel_inv h _ _
theorem execMax_inv (h : Inv st) (m : PMove) : KeepsInv (execMax m st) := runParallel_inv h _ _
theorem execSubl_inv (h : Inv st) (d : Acc) (m : PMove) : KeepsInv (execSubl d m st) := runParallel_inv h _ _
theorem execNot_inv (h : Inv st) (d : Acc) (m : PMove) : KeepsInv (execNot d m st) := runParallel_inv h _ _
theorem execAdc_inv (h : Inv st) (s : XYLong) (d : Acc) (m : PMove) : KeepsInv (execAdc s d m st) :=
  runParallel_inv h _ _
theorem execAsr_inv (h : Inv st) (d : Acc) (m : PMove) : KeepsInv (execAsr d m st) := runParallel_inv h _ _
theorem execLsr_inv (h : Inv st) (d : Acc) (m : PMove) : KeepsInv (execLsr d m st) := runParallel_inv h _ _
theorem execSbc_inv (h : Inv st) (s : XYLong) (d : Acc) (m : PMove) : KeepsInv (execSbc s d m st) :=
  runParallel_inv h _ _
theorem execAbs_inv (h : Inv st) (d : Acc) (m : PMove) : KeepsInv (execAbs d m st) := runParallel_inv h _ _
theorem execRor_inv (h : Inv st) (d : Acc) (m : PMove) : KeepsInv (execRor d m st) := runParallel_inv h _ _
theorem execAsl_inv (h : Inv st) (d : Acc) (m : PMove) : KeepsInv (execAsl d m st) := runParallel_inv h _ _
theorem execLsl_inv (h : Inv st) (d : Acc) (m : PMove) : KeepsInv (execLsl d m st) := runParallel_inv h _ _
theorem execNeg_inv (h : Inv st) (d : Acc) (m : PMove) : KeepsInv (execNeg d m st) := runParallel_inv h _ _
theorem execRol_inv (h : Inv st) (d : Acc) (m : PMove) : KeepsInv (execRol d m st) := runParallel_inv h _ _
theorem execOr_inv (h : Inv st) (s : XYReg) (d : Acc) (m : PMove) : KeepsInv (execOr s d m st) :=
  runParallel_inv h _ _
theorem execEor_inv (h : Inv st) (s : XYReg) (d : Acc) (m : PMove) : KeepsInv (execEor s d m st) :=
  runParallel_inv h _ _
theorem execAnd_inv (h : Inv st) (s : XYReg) (d : Acc) (m : PMove) : KeepsInv (execAnd s d m st) :=
  runParallel_inv h _ _
theorem execMpy_inv (h : Inv st) (q : MulPair) (d : Acc) (minus : Bool) (m : PMove) : KeepsInv (execMpy q d minus m st) :=
  runParallel_inv h _ _
theorem execMpyr_inv (h : Inv st) (q : MulPair) (d : Acc) (minus : Bool) (m : PMove) : KeepsInv (execMpyr q d minus m st) :=
  runParallel_inv h _ _
theorem execMac_inv (h : Inv st) (q : MulPair) (d : Acc) (minus : Bool) (m : PMove) : KeepsInv (execMac q d minus m st) :=
  runParallel_inv h _ _
theorem execMacr_inv (h : Inv st) (q : MulPair) (d : Acc) (minus : Bool) (m : PMove) : KeepsInv (execMacr q d minus m st) :=
  runParallel_inv h _ _
theorem execReservedA_inv (h : Inv st) (_d : Acc) (_m : PMove) : KeepsInv (execReservedA _d _m st) :=
  .next (h.illegal _)
theorem execReservedB_inv (h : Inv st) (_m : PMove) : KeepsInv (execReservedB _m st) := .next (h.illegal _)
theorem execMoveImm_inv (h : Inv st) (i : BitVec 8) (d : DReg) : KeepsInv (execMoveImm i d st) := runMove_inv h _
theorem execMoveReg_inv (h : Inv st) (s : DReg) (d : DReg) : KeepsInv (execMoveReg s d st) := runMove_inv h _
theorem execMoveUpd_inv (h : Inv st) (u : UpdMode) (rn : Fin 8) : KeepsInv (execMoveUpd u rn st) := runMove_inv h _
theorem execIfcc_inv (h : Inv st) (c : Cond) (op : AluOp) : KeepsInv (execIfcc c op st) := runIf_inv h _ _
theorem execIfccU_inv (h : Inv st) (c : Cond) (op : AluOp) : KeepsInv (execIfccU c op st) := runIfU_inv h _ _
theorem execMoveXEa_inv (h : Inv st) (d : DReg) (w : Dir) (ea : Ea) : KeepsInv (execMoveXEa d w ea st) :=
  runMove_inv h _
theorem execMoveXAa_inv (h : Inv st) (d : DReg) (w : Dir) (aa : BitVec 6) : KeepsInv (execMoveXAa d w aa st) :=
  runMove_inv h _
theorem execMoveYEa_inv (h : Inv st) (d : DReg) (w : Dir) (ea : Ea) : KeepsInv (execMoveYEa d w ea st) :=
  runMove_inv h _
theorem execMoveYAa_inv (h : Inv st) (d : DReg) (w : Dir) (aa : BitVec 6) : KeepsInv (execMoveYAa d w aa st) :=
  runMove_inv h _
theorem execMoveXR1_inv (h : Inv st) (xs : XSide) (s2 : Acc) (d2 : Y01) (w : Dir) (ea : Ea) : KeepsInv (execMoveXR1 xs s2 d2 w ea st) :=
  runMove_inv h _
theorem execMoveXR2_inv (h : Inv st) (d : Acc) (ea : Ea) : KeepsInv (execMoveXR2 d ea st) := runMove_inv h _
theorem execMoveRY1_inv (h : Inv st) (s1 : Acc) (d1 : X01) (ys : YSide) (w : Dir) (ea : Ea) : KeepsInv (execMoveRY1 s1 d1 ys w ea st) :=
  runMove_inv h _
theorem execMoveRY2_inv (h : Inv st) (d : Acc) (ea : Ea) : KeepsInv (execMoveRY2 d ea st) := runMove_inv h _
theorem execMoveLEa_inv (h : Inv st) (l : LongReg) (w : Dir) (ea : Ea) : KeepsInv (execMoveLEa l w ea st) :=
  runMove_inv h _
theorem execMoveLAa_inv (h : Inv st) (l : LongReg) (w : Dir) (aa : BitVec 6) : KeepsInv (execMoveLAa l w aa st) :=
  runMove_inv h _
theorem execMoveXY_inv (h : Inv st) (yw : Dir) (ym : XYMode) (xs : XSide) (ys : YSide) (xw : Dir) (yn : Fin 4) (xm : XYMode) (xn : Fin 8) : KeepsInv (execMoveXY yw ym xs ys xw yn xm xn st) :=
  runMove_inv h _
theorem execAddShort_inv (h : Inv st) (i : BitVec 6) (d : Acc) : KeepsInv (execAddShort i d st) := runAlu_inv h _ _
theorem execAddImm_inv (h : Inv st) (d : Acc) (imm : Word) : KeepsInv (execAddImm d imm st) := runAlu_inv h _ _
theorem execAndShort_inv (h : Inv st) (i : BitVec 6) (d : Acc) : KeepsInv (execAndShort i d st) := runAlu_inv h _ _
theorem execAndImm_inv (h : Inv st) (d : Acc) (imm : Word) : KeepsInv (execAndImm d imm st) := runAlu_inv h _ _
theorem execAndi_inv (h : Inv st) (i : BitVec 8) (e : PcuByte) : KeepsInv (execAndi i e st) :=
  .next ((h.controlByte _ _ _).advance 1)
theorem execAslNum_inv (h : Inv st) (i : BitVec 6) (s : Acc) (d : Acc) : KeepsInv (execAslNum i s d st) :=
  runAlu_inv h _ _
theorem execAslBy_inv (h : Inv st) (c : ShiftSrc) (s : Acc) (d : Acc) : KeepsInv (execAslBy c s d st) :=
  runAlu_inv h _ _
theorem execAsrNum_inv (h : Inv st) (i : BitVec 6) (s : Acc) (d : Acc) : KeepsInv (execAsrNum i s d st) :=
  runAlu_inv h _ _
theorem execAsrBy_inv (h : Inv st) (c : ShiftSrc) (s : Acc) (d : Acc) : KeepsInv (execAsrBy c s d st) :=
  runAlu_inv h _ _
theorem execBccLong_inv (h : Inv st) (c : Cond) (disp : Word) : KeepsInv (execBccLong c disp st) := jumpIf_inv h _ _ _
theorem execBccShort_inv (h : Inv st) (c : Cond) (disp : BitVec 9) : KeepsInv (execBccShort c disp st) :=
  jumpIf_inv h _ _ _
theorem execBccReg_inv (h : Inv st) (c : Cond) (rn : Fin 8) : KeepsInv (execBccReg c rn st) := jumpIf_inv h _ _ _
theorem execBchgEa_inv (h : Inv st) (n : BitVec 5) (sp : Space) (ea : Ea) : KeepsInv (execBchgEa n sp ea st) :=
  bitModify_inv h _ _ _ _
theorem execBchgAa_inv (h : Inv st) (n : BitVec 5) (sp : Space) (aa : BitVec 6) : KeepsInv (execBchgAa n sp aa st) :=
  bitModify_inv h _ _ _ _
theorem execBchgPp_inv (h : Inv st) (n : BitVec 5) (sp : Space) (pp : BitVec 6) : KeepsInv (execBchgPp n sp pp st) :=
  bitModify_inv h _ _ _ _
theorem execBchgQq_inv (h : Inv st) (n : BitVec 5) (sp : Space) (qq : BitVec 6) : KeepsInv (execBchgQq n sp qq st) :=
  bitModify_inv h _ _ _ _
theorem execBchgReg_inv (h : Inv st) (n : BitVec 5) (r : Reg) : KeepsInv (execBchgReg n r st) :=
  bitModify_inv h _ _ _ _
theorem execBclrEa_inv (h : Inv st) (n : BitVec 5) (sp : Space) (ea : Ea) : KeepsInv (execBclrEa n sp ea st) :=
  bitModify_inv h _ _ _ _
theorem execBclrAa_inv (h : Inv st) (n : BitVec 5) (sp : Space) (aa : BitVec 6) : KeepsInv (execBclrAa n sp aa st) :=
  bitModify_inv h _ _ _ _
theorem execBclrPp_inv (h : Inv st) (n : BitVec 5) (sp : Space) (pp : BitVec 6) : KeepsInv (execBclrPp n sp pp st) :=
  bitModify_inv h _ _ _ _
theorem execBclrQq_inv (h : Inv st) (n : BitVec 5) (sp : Space) (qq : BitVec 6) : KeepsInv (execBclrQq n sp qq st) :=
  bitModify_inv h _ _ _ _
theorem execBclrReg_inv (h : Inv st) (n : BitVec 5) (r : Reg) : KeepsInv (execBclrReg n r st) :=
  bitModify_inv h _ _ _ _
theorem execBsetEa_inv (h : Inv st) (n : BitVec 5) (sp : Space) (ea : Ea) : KeepsInv (execBsetEa n sp ea st) :=
  bitModify_inv h _ _ _ _
theorem execBsetAa_inv (h : Inv st) (n : BitVec 5) (sp : Space) (aa : BitVec 6) : KeepsInv (execBsetAa n sp aa st) :=
  bitModify_inv h _ _ _ _
theorem execBsetPp_inv (h : Inv st) (n : BitVec 5) (sp : Space) (pp : BitVec 6) : KeepsInv (execBsetPp n sp pp st) :=
  bitModify_inv h _ _ _ _
theorem execBsetQq_inv (h : Inv st) (n : BitVec 5) (sp : Space) (qq : BitVec 6) : KeepsInv (execBsetQq n sp qq st) :=
  bitModify_inv h _ _ _ _
theorem execBsetReg_inv (h : Inv st) (n : BitVec 5) (r : Reg) : KeepsInv (execBsetReg n r st) :=
  bitModify_inv h _ _ _ _
theorem execBtstEa_inv (h : Inv st) (n : BitVec 5) (sp : Space) (ea : Ea) : KeepsInv (execBtstEa n sp ea st) :=
  bitTest_inv h _ _ _
theorem execBtstAa_inv (h : Inv st) (n : BitVec 5) (sp : Space) (aa : BitVec 6) : KeepsInv (execBtstAa n sp aa st) :=
  bitTest_inv h _ _ _
theorem execBtstPp_inv (h : Inv st) (n : BitVec 5) (sp : Space) (pp : BitVec 6) : KeepsInv (execBtstPp n sp pp st) :=
  bitTest_inv h _ _ _
theorem execBtstQq_inv (h : Inv st) (n : BitVec 5) (sp : Space) (qq : BitVec 6) : KeepsInv (execBtstQq n sp qq st) :=
  bitTest_inv h _ _ _
theorem execBtstReg_inv (h : Inv st) (n : BitVec 5) (r : Reg) : KeepsInv (execBtstReg n r st) := bitTest_inv h _ _ _
theorem execBraLong_inv (h : Inv st) (disp : Word) : KeepsInv (execBraLong disp st) := .next (h.jump _)
theorem execBraShort_inv (h : Inv st) (disp : BitVec 9) : KeepsInv (execBraShort disp st) := .next (h.jump _)
theorem execBraReg_inv (h : Inv st) (rn : Fin 8) : KeepsInv (execBraReg rn st) := .next (h.jump _)
theorem execBrclrEa_inv (h : Inv st) (n : BitVec 5) (sp : Space) (ea : Ea) (disp : Word) : KeepsInv (execBrclrEa n sp ea disp st) :=
  bitJump_inv h _ _ _ _
theorem execBrclrAa_inv (h : Inv st) (n : BitVec 5) (sp : Space) (aa : BitVec 6) (disp : Word) : KeepsInv (execBrclrAa n sp aa disp st) :=
  bitJump_inv h _ _ _ _
theorem execBrclrPp_inv (h : Inv st) (n : BitVec 5) (sp : Space) (pp : BitVec 6) (disp : Word) : KeepsInv (execBrclrPp n sp pp disp st) :=
  bitJump_inv h _ _ _ _
theorem execBrclrQq_inv (h : Inv st) (n : BitVec 5) (sp : Space) (qq : BitVec 6) (disp : Word) : KeepsInv (execBrclrQq n sp qq disp st) :=
  bitJump_inv h _ _ _ _
theorem execBrclrReg_inv (h : Inv st) (n : BitVec 5) (r : Reg) (disp : Word) : KeepsInv (execBrclrReg n r disp st) :=
  bitJump_inv h _ _ _ _
theorem execBrsetEa_inv (h : Inv st) (n : BitVec 5) (sp : Space) (ea : Ea) (disp : Word) : KeepsInv (execBrsetEa n sp ea disp st) :=
  bitJump_inv h _ _ _ _
theorem execBrsetAa_inv (h : Inv st) (n : BitVec 5) (sp : Space) (aa : BitVec 6) (disp : Word) : KeepsInv (execBrsetAa n sp aa disp st) :=
  bitJump_inv h _ _ _ _
theorem execBrsetPp_inv (h : Inv st) (n : BitVec 5) (sp : Space) (pp : BitVec 6) (disp : Word) : KeepsInv (execBrsetPp n sp pp disp st) :=
  bitJump_inv h _ _ _ _
theorem execBrsetQq_inv (h : Inv st) (n : BitVec 5) (sp : Space) (qq : BitVec 6) (disp : Word) : KeepsInv (execBrsetQq n sp qq disp st) :=
  bitJump_inv h _ _ _ _
theorem execBrsetReg_inv (h : Inv st) (n : BitVec 5) (r : Reg) (disp : Word) : KeepsInv (execBrsetReg n r disp st) :=
  bitJump_inv h _ _ _ _
theorem execBsclrEa_inv (h : Inv st) (n : BitVec 5) (sp : Space) (ea : Ea) (disp : Word) : KeepsInv (execBsclrEa n sp ea disp st) :=
  bitCall_inv h _ _ _ _
theorem execBsclrAa_inv (h : Inv st) (n : BitVec 5) (sp : Space) (aa : BitVec 6) (disp : Word) : KeepsInv (execBsclrAa n sp aa disp st) :=
  bitCall_inv h _ _ _ _
theorem execBsclrPp_inv (h : Inv st) (n : BitVec 5) (sp : Space) (pp : BitVec 6) (disp : Word) : KeepsInv (execBsclrPp n sp pp disp st) :=
  bitCall_inv h _ _ _ _
theorem execBsclrQq_inv (h : Inv st) (n : BitVec 5) (sp : Space) (qq : BitVec 6) (disp : Word) : KeepsInv (execBsclrQq n sp qq disp st) :=
  bitCall_inv h _ _ _ _
theorem execBsclrReg_inv (h : Inv st) (n : BitVec 5) (r : Reg) (disp : Word) : KeepsInv (execBsclrReg n r disp st) :=
  bitCall_inv h _ _ _ _
theorem execBssetEa_inv (h : Inv st) (n : BitVec 5) (sp : Space) (ea : Ea) (disp : Word) : KeepsInv (execBssetEa n sp ea disp st) :=
  bitCall_inv h _ _ _ _
theorem execBssetAa_inv (h : Inv st) (n : BitVec 5) (sp : Space) (aa : BitVec 6) (disp : Word) : KeepsInv (execBssetAa n sp aa disp st) :=
  bitCall_inv h _ _ _ _
theorem execBssetPp_inv (h : Inv st) (n : BitVec 5) (sp : Space) (pp : BitVec 6) (disp : Word) : KeepsInv (execBssetPp n sp pp disp st) :=
  bitCall_inv h _ _ _ _
theorem execBssetQq_inv (h : Inv st) (n : BitVec 5) (sp : Space) (qq : BitVec 6) (disp : Word) : KeepsInv (execBssetQq n sp qq disp st) :=
  bitCall_inv h _ _ _ _
theorem execBssetReg_inv (h : Inv st) (n : BitVec 5) (r : Reg) (disp : Word) : KeepsInv (execBssetReg n r disp st) :=
  bitCall_inv h _ _ _ _
theorem execBrkcc_inv (h : Inv st) (c : Cond) : KeepsInv (execBrkcc c st) := by
  refine .next ?_
  split
  · exact h.leaveLoop.withPc _
  · exact h.advance 1
theorem execBsccLong_inv (h : Inv st) (c : Cond) (disp : Word) : KeepsInv (execBsccLong c disp st) :=
  callIf_inv h _ _ _
theorem execBsccShort_inv (h : Inv st) (c : Cond) (disp : BitVec 9) : KeepsInv (execBsccShort c disp st) :=
  callIf_inv h _ _ _
theorem execBsccReg_inv (h : Inv st) (c : Cond) (rn : Fin 8) : KeepsInv (execBsccReg c rn st) := callIf_inv h _ _ _
theorem execBsrLong_inv (h : Inv st) (disp : Word) : KeepsInv (execBsrLong disp st) := .next (h.call _ _)
theorem execBsrShort_inv (h : Inv st) (disp : BitVec 9) : KeepsInv (execBsrShort disp st) := .next (h.call _ _)
theorem execBsrReg_inv (h : Inv st) (rn : Fin 8) : KeepsInv (execBsrReg rn st) := .next (h.call _ _)
theorem execClb_inv (h : Inv st) (s : Acc) (d : Acc) : KeepsInv (execClb s d st) := runAlu_inv h _ _
theorem execCmpShort_inv (h : Inv st) (i : BitVec 6) (d : Acc) : KeepsInv (execCmpShort i d st) := runAlu_inv h _ _
theorem execCmpImm_inv (h : Inv st) (d : Acc) (imm : Word) : KeepsInv (execCmpImm d imm st) := runAlu_inv h _ _
theorem execCmpu_inv (h : Inv st) (g : AccOrReg) (d : Acc) : KeepsInv (execCmpu g d st) := runAlu_inv h _ _
theorem execDebugcc_inv (h : Inv st) (c : Cond) : KeepsInv (execDebugcc c st) := by
  refine .next ?_
  split
  · exact h.debugCall
  · exact h.advance 1
theorem execDec_inv (h : Inv st) (d : Acc) : KeepsInv (execDec d st) := runAlu_inv h _ _
theorem execDiv_inv (h : Inv st) (s : XYReg) (d : Acc) : KeepsInv (execDiv s d st) := runAlu_inv h _ _
theorem execDmac_inv (h : Inv st) (sg : Sign2) (q : MulOps) (d : Acc) (minus : Bool) : KeepsInv (execDmac sg q d minus st) :=
  runAlu_inv h _ _
theorem execDoEa_inv (h : Inv st) (sp : Space) (ea : Ea) (la : Word) : KeepsInv (execDoEa sp ea la st) :=
  startLoop_inv h _ (fun _ ht => ht.applyUpd _) _
theorem execDoAa_inv (h : Inv st) (sp : Space) (aa : BitVec 6) (la : Word) : KeepsInv (execDoAa sp aa la st) :=
  startLoop_inv h _ (fun _ ht => ht) _
theorem execDoNum_inv (h : Inv st) (cnt : BitVec 12) (la : Word) : KeepsInv (execDoNum cnt la st) :=
  startLoop_inv h _ (fun _ ht => ht) _
theorem execDoReg_inv (h : Inv st) (r : Reg) (la : Word) : KeepsInv (execDoReg r la st) := by
  simp only [execDoReg]
  split
  · exact .refused _
  · exact startLoop_inv h _ (fun _ ht => ht.rdReg _) _
theorem execDorEa_inv (h : Inv st) (sp : Space) (ea : Ea) (disp : Word) : KeepsInv (execDorEa sp ea disp st) :=
  startLoop_inv h _ (fun _ ht => ht.applyUpd _) _
theorem execDorAa_inv (h : Inv st) (sp : Space) (aa : BitVec 6) (disp : Word) : KeepsInv (execDorAa sp aa disp st) :=
  startLoop_inv h _ (fun _ ht => ht) _
theorem execDorNum_inv (h : Inv st) (cnt : BitVec 12) (disp : Word) : KeepsInv (execDorNum cnt disp st) :=
  startLoop_inv h _ (fun _ ht => ht) _
theorem execDorReg_inv (h : Inv st) (r : Reg) (disp : Word) : KeepsInv (execDorReg r disp st) := by
  simp only [execDorReg]
  split
  · exact .refused _
  · exact startLoop_inv h _ (fun _ ht => ht.rdReg _) _
theorem execRepEa_inv (h : Inv st) (sp : Space) (ea : Ea) : KeepsInv (execRepEa sp ea st) :=
  startRep_inv _ (h.applyUpd _)
theorem execRepAa_inv (h : Inv st) (sp : Space) (aa : BitVec 6) : KeepsInv (execRepAa sp aa st) := startRep_inv _ h
theorem execRepNum_inv (h : Inv st) (cnt : BitVec 12) : KeepsInv (execRepNum cnt st) := startRep_inv _ h
theorem execRepReg_inv (h : Inv st) (r : Reg) : KeepsInv (execRepReg r st) := startRep_inv _ (h.rdReg _)
theorem execDoForever_inv (h : Inv st) (la : Word) : KeepsInv (execDoForever la st) := startForever_inv h _
theorem execDorForever_inv (h : Inv st) (disp : Word) : KeepsInv (execDorForever disp st) := startForever_inv h _
theorem execEorShort_inv (h : Inv st) (i : BitVec 6) (d : Acc) : KeepsInv (execEorShort i d st) := runAlu_inv h _ _
theorem execEorImm_inv (h : Inv st) (d : Acc) (imm : Word) : KeepsInv (execEorImm d imm st) := runAlu_inv h _ _
theorem execExtractBy_inv (h : Inv st) (c : ShiftSrc) (s : Acc) (d : Acc) : KeepsInv (execExtractBy c s d st) :=
  runAlu_inv h _ _
theorem execExtractNum_inv (h : Inv st) (s : Acc) (d : Acc) (co : Word) : KeepsInv (execExtractNum s d co st) :=
  runAlu_inv h _ _
theorem execExtractuBy_inv (h : Inv st) (c : ShiftSrc) (s : Acc) (d : Acc) : KeepsInv (execExtractuBy c s d st) :=
  runAlu_inv h _ _
theorem execExtractuNum_inv (h : Inv st) (s : Acc) (d : Acc) (co : Word) : KeepsInv (execExtractuNum s d co st) :=
  runAlu_inv h _ _
theorem execInc_inv (h : Inv st) (d : Acc) : KeepsInv (execInc d st) := runAlu_inv h _ _
theorem execInsertBy_inv (h : Inv st) (c : ShiftSrc) (s : InsSrc) (d : Acc) : KeepsInv (execInsertBy c s d st) :=
  runAlu_inv h _ _
theorem execInsertNum_inv (h : Inv st) (s : InsSrc) (d : Acc) (co : Word) : KeepsInv (execInsertNum s d co st) :=
  runAlu_inv h _ _
theorem execJccShort_inv (h : Inv st) (c : Cond) (a : BitVec 12) : KeepsInv (execJccShort c a st) :=
  jumpIf_inv h _ _ _
theorem execJccEa_inv (h : Inv st) (c : Cond) (ea : Ea) : KeepsInv (execJccEa c ea st) := jumpEaIf_inv h _ _
theorem execJclrEa_inv (h : Inv st) (n : BitVec 5) (sp : Space) (ea : Ea) (target : Word) : KeepsInv (execJclrEa n sp ea target st) :=
  bitJump_inv h _ _ _ _
theorem execJclrAa_inv (h : Inv st) (n : BitVec 5) (sp : Space) (aa : BitVec 6) (target : Word) : KeepsInv (execJclrAa n sp aa target st) :=
  bitJump_inv h _ _ _ _
theorem execJclrPp_inv (h : Inv st) (n : BitVec 5) (sp : Space) (pp : BitVec 6) (target : Word) : KeepsInv (execJclrPp n sp pp target st) :=
  bitJump_inv h _ _ _ _
theorem execJclrQq_inv (h : Inv st) (n : BitVec 5) (sp : Space) (qq : BitVec 6) (target : Word) : KeepsInv (execJclrQq n sp qq target st) :=
  bitJump_inv h _ _ _ _
theorem execJclrReg_inv (h : Inv st) (n : BitVec 5) (r : Reg) (target : Word) : KeepsInv (execJclrReg n r target st) :=
  bitJump_inv h _ _ _ _
theorem execJsetEa_inv (h : Inv st) (n : BitVec 5) (sp : Space) (ea : Ea) (target : Word) : KeepsInv (execJsetEa n sp ea target st) :=
  bitJump_inv h _ _ _ _
theorem execJsetAa_inv (h : Inv st) (n : BitVec 5) (sp : Space) (aa : BitVec 6) (target : Word) : KeepsInv (execJsetAa n sp aa target st) :=
  bitJump_inv h _ _ _ _
theorem execJsetPp_inv (h : Inv st) (n : BitVec 5) (sp : Space) (pp : BitVec 6) (target : Word) : KeepsInv (execJsetPp n sp pp target st) :=
  bitJump_inv h _ _ _ _
theorem execJsetQq_inv (h : Inv st) (n : BitVec 5) (sp : Space) (qq : BitVec 6) (target : Word) : KeepsInv (execJsetQq n sp qq target st) :=
  bitJump_inv h _ _ _ _
theorem execJsetReg_inv (h : Inv st) (n : BitVec 5) (r : Reg) (target : Word) : KeepsInv (execJsetReg n r target st) :=
  bitJump_inv h _ _ _ _
theorem execJsclrEa_inv (h : Inv st) (n : BitVec 5) (sp : Space) (ea : Ea) (target : Word) : KeepsInv (execJsclrEa n sp ea target st) :=
  bitCall_inv h _ _ _ _
theorem execJsclrAa_inv (h : Inv st) (n : BitVec 5) (sp : Space) (aa : BitVec 6) (target : Word) : KeepsInv (execJsclrAa n sp aa target st) :=
  bitCall_inv h _ _ _ _
theorem execJsclrPp_inv (h : Inv st) (n : BitVec 5) (sp : Space) (pp : BitVec 6) (target : Word) : KeepsInv (execJsclrPp n sp pp target st) :=
  bitCall_inv h _ _ _ _
theorem execJsclrQq_inv (h : Inv st) (n : BitVec 5) (sp : Space) (qq : BitVec 6) (target : Word) : KeepsInv (execJsclrQq n sp qq target st) :=
  bitCall_inv h _ _ _ _
theorem execJsclrReg_inv (h : Inv st) (n : BitVec 5) (r : Reg) (target : Word) : KeepsInv (execJsclrReg n r target st) :=
  bitCall_inv h _ _ _ _
theorem execJssetEa_inv (h : Inv st) (n : BitVec 5) (sp : Space) (ea : Ea) (target : Word) : KeepsInv (execJssetEa n sp ea target st) :=
  bitCall_inv h _ _ _ _
theorem execJssetAa_inv (h : Inv st) (n : BitVec 5) (sp : Space) (aa : BitVec 6) (target : Word) : KeepsInv (execJssetAa n sp aa target st) :=
  bitCall_inv h _ _ _ _
theorem execJssetPp_inv (h : Inv st) (n : BitVec 5) (sp : Space) (pp : BitVec 6) (target : Word) : KeepsInv (execJssetPp n sp pp target st) :=
  bitCall_inv h _ _ _ _
theorem execJssetQq_inv (h : Inv st) (n : BitVec 5) (sp : Space) (qq : BitVec 6) (target : Word) : KeepsInv (execJssetQq n sp qq target st) :=
  bitCall_inv h _ _ _ _
theorem execJssetReg_inv (h : Inv st) (n : BitVec 5) (r : Reg) (target : Word) : KeepsInv (execJssetReg n r target st) :=
  bitCall_inv h _ _ _ _
theorem execJmpShort_inv (h : Inv st) (a : BitVec 12) : KeepsInv (execJmpShort a st) := .next (h.jump _)
theorem execJmpEa_inv (h : Inv st) (ea : Ea) : KeepsInv (execJmpEa ea st) := jumpEaIf_inv h _ _
theorem execJsccShort_inv (h : Inv st) (c : Cond) (a : BitVec 12) : KeepsInv (execJsccShort c a st) :=
  callIf_inv h _ _ _
theorem execJsccEa_inv (h : Inv st) (c : Cond) (ea : Ea) : KeepsInv (execJsccEa c ea st) := callEaIf_inv h _ _
theorem execJsrShort_inv (h : Inv st) (a : BitVec 12) : KeepsInv (execJsrShort a st) := .next (h.call _ _)
theorem execJsrEa_inv (h : Inv st) (ea : Ea) : KeepsInv (execJsrEa ea st) := callEaIf_inv h _ _
theorem execLraReg_inv (h : Inv st) (rn : Fin 8) (d : DReg) : KeepsInv (execLraReg rn d st) :=
  .next ((h.wrD _ _).advance _)
theorem execLraLong_inv (h : Inv st) (d : DReg) (disp : Word) : KeepsInv (execLraLong d disp st) :=
  .next ((h.wrD _ _).advance _)
theorem execLslNum_inv (h : Inv st) (i : BitVec 5) (d : Acc) : KeepsInv (execLslNum i d st) := runAlu_inv h _ _
theorem execLslBy_inv (h : Inv st) (c : ShiftSrc) (d : Acc) : KeepsInv (execLslBy c d st) := runAlu_inv h _ _
theorem execLsrNum_inv (h : Inv st) (i : BitVec 5) (d : Acc) : KeepsInv (execLsrNum i d st) := runAlu_inv h _ _
theorem execLsrBy_inv (h : Inv st) (c : ShiftSrc) (d : Acc) : KeepsInv (execLsrBy c d st) := runAlu_inv h _ _
theorem execLuaEa_inv (h : Inv st) (u : UpdMode) (rn : Fin 8) (d : DReg) : KeepsInv (execLuaEa u rn d st) :=
  .next ((h.wrD _ _).advance _)
theorem execLuaDisp_inv (h : Inv st) (disp : BitVec 7) (rn : Fin 8) (d : AguReg) : KeepsInv (execLuaDisp disp rn d st) :=
  .next ((h.wrD _ _).advance _)
theorem execMacNum_inv (h : Inv st) (s : XYReg) (n : BitVec 5) (d : Acc) (minus : Bool) : KeepsInv (execMacNum s n d minus st) :=
  runAlu_inv h _ _
theorem execMacSu_inv (h : Inv st) (sg : Sign1) (q : MulOps) (d : Acc) (minus : Bool) : KeepsInv (execMacSu sg q d minus st) :=
  runAlu_inv h _ _
theorem execMaci_inv (h : Inv st) (s : XYReg) (d : Acc) (minus : Bool) (imm : Word) : KeepsInv (execMaci s d minus imm st) :=
  runAlu_inv h _ _
theorem execMacrNum_inv (h : Inv st) (s : XYReg) (n : BitVec 5) (d : Acc) (minus : Bool) : KeepsInv (execMacrNum s n d minus st) :=
  runAlu_inv h _ _
theorem execMacri_inv (h : Inv st) (s : XYReg) (d : Acc) (minus : Bool) (imm : Word) : KeepsInv (execMacri s d minus imm st) :=
  runAlu_inv h _ _
theorem execMerge_inv (h : Inv st) (s : ShiftSrc) (d : Acc) : KeepsInv (execMerge s d st) := runAlu_inv h _ _
theorem execMoveXLong_inv (h : Inv st) (rn : Fin 8) (w : Dir) (r : Reg) (disp : Word) : KeepsInv (execMoveXLong rn w r disp st) :=
  moveAt_inv h _ _ _ _ _
theorem execMoveYLong_inv (h : Inv st) (rn : Fin 8) (w : Dir) (r : Reg) (disp : Word) : KeepsInv (execMoveYLong rn w r disp st) :=
  moveAt_inv h _ _ _ _ _
theorem execMoveXShort_inv (h : Inv st) (disp : BitVec 7) (rn : Fin 8) (w : Dir) (r : AluReg) : KeepsInv (execMoveXShort disp rn w r st) :=
  moveAt_inv h _ _ _ _ _
theorem execMoveYShort_inv (h : Inv st) (disp : BitVec 7) (rn : Fin 8) (w : Dir) (r : AluReg) : KeepsInv (execMoveYShort disp rn w r st) :=
  moveAt_inv h _ _ _ _ _
theorem execMovecEa_inv (h : Inv st) (w : Dir) (sp : Space) (ea : Ea) (r : CReg) : KeepsInv (execMovecEa w sp ea r st) :=
  moveData_inv h _ _ _ _
theorem execMovecAa_inv (h : Inv st) (w : Dir) (sp : Space) (aa : BitVec 6) (r : CReg) : KeepsInv (execMovecAa w sp aa r st) :=
  moveAt_inv h _ _ _ _ _
theorem execMovecReg_inv (h : Inv st) (w : Dir) (r2 : Reg) (r : CReg) : KeepsInv (execMovecReg w r2 r st) := by
  cases w <;> exact moveRegs_inv h _ _
theorem execMovecImm_inv (h : Inv st) (i : BitVec 8) (r : CReg) : KeepsInv (execMovecImm i r st) :=
  .next ((h.wrC _ _).advance _)
theorem execMovemEa_inv (h : Inv st) (w : Dir) (ea : Ea) (r : Reg) : KeepsInv (execMovemEa w ea r st) :=
  moveProgram_inv h _ _ _ _ _
theorem execMovemAa_inv (h : Inv st) (w : Dir) (aa : BitVec 6) (r : Reg) : KeepsInv (execMovemAa w aa r st) :=
  moveProgram_inv h _ _ _ _ _
theorem execMovepPpEa_inv (h : Inv st) (ps : Space) (w : Dir) (sp : Space) (ea : Ea) (pp : BitVec 6) : KeepsInv (execMovepPpEa ps w sp ea pp st) :=
  movePeripheral_inv h _ _ _ _ _
theorem execMovepXqqEa_inv (h : Inv st) (w : Dir) (sp : Space) (ea : Ea) (qq : BitVec 6) : KeepsInv (execMovepXqqEa w sp ea qq st) :=
  movePeripheral_inv h _ _ _ _ _
theorem execMovepYqqEa_inv (h : Inv st) (w : Dir) (sp : Space) (ea : Ea) (qq : BitVec 6) : KeepsInv (execMovepYqqEa w sp ea qq st) :=
  movePeripheral_inv h _ _ _ _ _
theorem execMovepPpP_inv (h : Inv st) (ps : Space) (w : Dir) (ea : Ea) (pp : BitVec 6) : KeepsInv (execMovepPpP ps w ea pp st) :=
  movePeripheralP_inv h _ _ _ _
theorem execMovepQqP_inv (h : Inv st) (w : Dir) (ea : Ea) (ps : Space) (qq : BitVec 6) : KeepsInv (execMovepQqP w ea ps qq st) :=
  movePeripheralP_inv h _ _ _ _
theorem execMovepPpReg_inv (h : Inv st) (ps : Space) (w : Dir) (r : Reg) (pp : BitVec 6) : KeepsInv (execMovepPpReg ps w r pp st) :=
  movePeripheralReg_inv h _ _ _ _
theorem execMovepXqqReg_inv (h : Inv st) (w : Dir) (r : Reg) (qq : BitVec 6) : KeepsInv (execMovepXqqReg w r qq st) :=
  movePeripheralReg_inv h _ _ _ _
theorem execMovepYqqReg_inv (h : Inv st) (w : Dir) (r : Reg) (qq : BitVec 6) : KeepsInv (execMovepYqqReg w r qq st) :=
  movePeripheralReg_inv h _ _ _ _
theorem execMpyNum_inv (h : Inv st) (s : XYReg) (n : BitVec 5) (d : Acc) (minus : Bool) : KeepsInv (execMpyNum s n d minus st) :=
  runAlu_inv h _ _
theorem execMpySu_inv (h : Inv st) (sg : Sign1) (q : MulOps) (d : Acc) (minus : Bool) : KeepsInv (execMpySu sg q d minus st) :=
  runAlu_inv h _ _
theorem execMpyi_inv (h : Inv st) (s : XYReg) (d : Acc) (minus : Bool) (imm : Word) : KeepsInv (execMpyi s d minus imm st) :=
  runAlu_inv h _ _
theorem execMpyrNum_inv (h : Inv st) (s : XYReg) (n : BitVec 5) (d : Acc) (minus : Bool) : KeepsInv (execMpyrNum s n d minus st) :=
  runAlu_inv h _ _
theorem execMpyri_inv (h : Inv st) (s : XYReg) (d : Acc) (minus : Bool) (imm : Word) : KeepsInv (execMpyri s d minus imm st) :=
  runAlu_inv h _ _
theorem execNorm_inv (h : Inv st) (rn : Fin 8) (d : Acc) : KeepsInv (execNorm rn d st) :=
  .next (((h.commitAlu _).setR _ _).advance 1)
theorem execNormf_inv (h : Inv st) (s : ShiftSrc) (d : Acc) : KeepsInv (execNormf s d st) := runAlu_inv h _ _
theorem execOrShort_inv (h : Inv st) (i : BitVec 6) (d : Acc) : KeepsInv (execOrShort i d st) := runAlu_inv h _ _
theorem execOrImm_inv (h : Inv st) (d : Acc) (imm : Word) : KeepsInv (execOrImm d imm st) := runAlu_inv h _ _
theorem execOri_inv (h : Inv st) (i : BitVec 8) (e : PcuByte) : KeepsInv (execOri i e st) :=
  .next ((h.controlByte _ _ _).advance 1)
theorem execPlock_inv (h : Inv st) (ea : Ea) : KeepsInv (execPlock ea st) := lockEa_inv h _ _
theorem execPlockr_inv (h : Inv st) (disp : Word) : KeepsInv (execPlockr disp st) :=
  cacheCommand_inv h _ (fun _ hl hd => ICache.setLock_keeps hl hd _ _) _
theorem execPunlock_inv (h : Inv st) (ea : Ea) : KeepsInv (execPunlock ea st) := lockEa_inv h _ _
theorem execPunlockr_inv (h : Inv st) (disp : Word) : KeepsInv (execPunlockr disp st) :=
  cacheCommand_inv h _ (fun _ hl hd => ICache.setLock_keeps hl hd _ _) _
theorem execSubShort_inv (h : Inv st) (i : BitVec 6) (d : Acc) : KeepsInv (execSubShort i d st) := runAlu_inv h _ _
theorem execSubImm_inv (h : Inv st) (d : Acc) (imm : Word) : KeepsInv (execSubImm d imm st) := runAlu_inv h _ _
theorem execTccD_inv (h : Inv st) (c : Cond) (s1 : AccOrReg) (d : Acc) : KeepsInv (execTccD c s1 d st) :=
  runTcc_inv h _ _ _
theorem execTccDR_inv (h : Inv st) (c : Cond) (s1 : AccOrReg) (d : Acc) (t : Fin 8) (u : Fin 8) : KeepsInv (execTccDR c s1 d t u st) :=
  runTcc_inv h _ _ _
theorem execTccR_inv (h : Inv st) (c : Cond) (t : Fin 8) (u : Fin 8) : KeepsInv (execTccR c t u st) :=
  runTcc_inv h _ _ _
theorem execTrapcc_inv (h : Inv st) (c : Cond) : KeepsInv (execTrapcc c st) := by
  refine .next ?_
  split
  · exact h.trap
  · exact h.advance 1
theorem execVsl_inv (h : Inv st) (s : Acc) (i : Bool) (ea : Ea) : KeepsInv (execVsl s i ea st) :=
  storeViterbi_inv h _ _ _
theorem execMoveNone_inv (h : Inv st) : KeepsInv (execMoveNone st) := runMove_inv h _
theorem execDebug_inv (h : Inv st) : KeepsInv (execDebug st) := .next h.debugCall
theorem execEnddo_inv (h : Inv st) : KeepsInv (execEnddo st) := .next (h.leaveLoop.advance 1)
theorem execIllegal_inv (h : Inv st) : KeepsInv (execIllegal st) := .next (h.illegal _)
theorem execNop_inv (h : Inv st) : KeepsInv (execNop st) := .next (h.advance 1)
theorem execPflush_inv (h : Inv st) : KeepsInv (execPflush st) :=
  cacheCommand_inv h _ (fun _ _ hd => ⟨LruOk.flush _, hd⟩) _
theorem execPflushun_inv (h : Inv st) : KeepsInv (execPflushun st) :=
  cacheCommand_inv h _ (fun _ _ hd => ICache.flushUnlocked_keeps hd) _
theorem execPfree_inv (h : Inv st) : KeepsInv (execPfree st) :=
  cacheCommand_inv h (fun c => { c with lock := 0 }) (fun _ hl hd => ⟨hl, hd⟩) 1
theorem execReset_inv (h : Inv st) : KeepsInv (execReset st) := .next (h.resetPeripherals.advance 1)
theorem execRti_inv (h : Inv st) : KeepsInv (execRti st) := .next h.returnFromInterrupt
theorem execRts_inv (h : Inv st) : KeepsInv (execRts st) := .next h.returnFromSubroutine
theorem execStop_inv (h : Inv st) : KeepsInv (execStop st) := .next ((h.clearTriggers.withPhase _).advance 1)
theorem execTrap_inv (h : Inv st) : KeepsInv (execTrap st) := .next h.trap
theorem execWait_inv (h : Inv st) : KeepsInv (execWait st) := by
  refine .next (Inv.advance ?_ 1)
  split
  · exact h
  · exact h.withPhase _

end Sys2Proof.Machine
end

