-- ==== Sys2Proof/Laws/Engine.lean ====
section
/-!
SUPPORT. What the operations between two instructions can do: `execThen` once for all that runs an instruction, the accesses
made later, the history, the debug observer, the DMA's two accesses; and that each keeps the invariant.
-/
namespace Sys2Proof.Machine

variable {s : State}

/-! ## An instruction executed -/

/-- All that `execThen` can answer as a next state: the instruction may stand here, it answers one, the bus allows it with the
end of its loop, its result is defined. -/
theorem execThen_next {i : Instr} {b u : State} {again : State → State} {k : State → State → State}
    (h : execThen i b again k = .next u) :
    ∃ t, b.hazard i = none ∧ exec i b = .next t ∧ b.busDenied i (again t) (b.loopTest i (again t)) = false ∧
      b.badResult (b.loopTest i (again t)) = none ∧ u = k (again t) (b.loopTest i (again t)) := by
  unfold execThen at h
  split at h
  · cases h
  · rename_i hz
    split at h
    · cases h
    · cases h
    · rename_i t ht
      dsimp only at h
      split at h
      · cases h
      · rename_i hb
        split at h
        · cases h
        · rename_i hr
          exact ⟨t, hz, ht, by simpa using hb, hr, by cases h; rfl⟩

/-- And it does answer so. -/
theorem execThen_of_next {i : Instr} {b t : State} {again : State → State} {k : State → State → State} (hz : b.hazard i = none)
    (ht : exec i b = .next t) (hb : b.busDenied i (again t) (b.loopTest i (again t)) = false)
    (hr : b.badResult (b.loopTest i (again t)) = none) :
    execThen i b again k = .next (k (again t) (b.loopTest i (again t))) := by
  simp [execThen, hz, ht, hb, hr]

/-- Nothing has moved between data memory and the stack where EP stands as it did. -/
theorem State.stackMoves_of_same {b t : State} (h : t.agu.ep = b.agu.ep) : b.stackMoves t = [] := by
  have n (e : Word) : e ≠ e + 2 ∧ e ≠ e + 4 ∧ e ≠ e - 2 ∧ e ≠ e - 4 := ⟨by bv_omega, by bv_omega, by bv_omega, by bv_omega⟩
  obtain ⟨a, c, d, f⟩ := n b.agu.ep
  simp only [State.stackMoves, h, if_neg a, if_neg c, if_neg d, if_neg f, ite_self]

/-- Without the end of a loop an instruction's own accesses alone can be denied. -/
theorem State.busDenied_self (b : State) (i : Instr) (t : State) :
    b.busDenied i t t = (b.ebd && (b.ownAccesses i t).any b.needsBus) := by
  simp [State.busDenied, State.stackMoves_of_same]

/-- No loop is active: an instruction ends none. -/
theorem State.loopTest_of_clear {b : State} (h : b.lf = false) (i : Instr) (t : State) : b.loopTest i t = t := by
  simp [State.loopTest, State.loopEnds, h]

/-- It stops where the instruction stops. -/
theorem execThen_of_refused {i : Instr} {b : State} {r : Refusal} {again : State → State} {k : State → State → State} (hz : b.hazard i = none)
    (ht : exec i b = .refused r) : execThen i b again k = .refused r := by simp [execThen, hz, ht]

theorem Inv.loopTest (h : Inv s) (b : State) (i : Instr) : Inv (b.loopTest i s) := by
  unfold State.loopTest
  split
  · exact h.endOfLoop
  · exact h

/-- An instruction keeps the invariant with all that surrounds it, if that does. -/
theorem execThen_inv {i : Instr} {b : State} {again : State → State} {k : State → State → State} (he : KeepsInv (exec i b))
    (ha : ∀ t, Inv t → Inv (again t)) (hk : ∀ t u, Inv u → Inv (k t u)) : KeepsInv (execThen i b again k) := by
  intro u hu
  obtain ⟨t, -, ht, -, -, rfl⟩ := execThen_next hu
  exact hk _ _ ((ha t (he t ht)).loopTest b i)

/-! ## The access made later -/

/-- No channel has a word to move and the outside world does nothing. -/
theorem State.shared_of_alone (hd : s.dmaActive = none) (he : s.env = []) : s.shared = false := by
  simp [State.shared, hd, he]

/-- A step with no other master at work defers nothing. -/
theorem State.deferLast_of_alone {b : State} (hd : b.dmaActive = none) (he : b.env = []) (i : Instr) (t u : State) :
    b.deferLast i t u = u := by
  simp [State.deferLast, State.shared_of_alone hd he]

/-- Nor does the core run ahead. -/
theorem State.ahead_of_alone (hd : s.dmaActive = none) (he : s.env = []) : s.ahead = none := by
  simp [State.ahead, State.shared_of_alone hd he]

/-- The core then takes its next instruction, or an interrupt. -/
theorem coreTurn_of_alone (hd : s.dmaActive = none) (he : s.env = []) : coreTurn s = coreInstr s := by
  simp [coreTurn, State.ahead_of_alone hd he]

/-- With an empty program data bus a word comes by a fetch. -/
theorem State.fetchWord_of_empty (h : s.ctl.pdb = []) (a : Word) : s.fetchWord a = s.fetch a := by
  have e : s.withPdb [] = s := by
    cases s with | mk _ _ _ _ _ _ _ _ c _ _ _ => cases c; cases h; rfl
  simp [State.fetchWord, State.onBus, h, e]

theorem State.landAll_of_nil (h : s.ctl.late = []) : s.landAll = s := by
  unfold State.landAll State.withLate
  rw [h]
  cases s with | mk _ _ _ _ _ _ _ _ c _ _ _ => cases c; cases h; rfl

theorem Inv.withLate (h : Inv s) (l : List Late) : Inv (s.withLate l) := h.of_same (by simp)

theorem Inv.clearAccepted (h : Inv s) (k : Nat) : Inv (s.clearAccepted k) := by
  unfold State.clearAccepted
  split
  · exact h.setPend k false (.inr (.inr rfl))
  · exact h

theorem Inv.landVector (h : Inv s) (a : Word) : Inv (s.landVector a) := by
  unfold State.landVector
  split
  · rename_i hf hc
    exact ((h.fetch hf).clearAccepted _).withCtx fun x hx => by
      cases hx
      simp only [List.length_append, List.length_take, List.length_singleton]
      omega
  · exact h

theorem Inv.land (h : Inv s) (l : Late) : Inv (s.land l) := by
  cases l with
  | vector a => exact h.landVector a
  | store sp k w _ => exact h.withDataMem sp k w
  | storeP a w => exact (h.writeP a w).notePWrite a
  | load sp k d => exact h.wrD d _
  | refill sp k high i =>
    cases high
    · exact h.setSsl i _
    · exact h.setSsh i _

theorem Inv.landAll (h : Inv s) : Inv s.landAll := by
  unfold State.landAll
  generalize s.ctl.late = l
  have h0 := h.withLate []
  generalize s.withLate [] = t at h0
  induction l generalizing t with
  | nil => exact h0
  | cons l q ih => exact ih _ (h0.land l)

/-- The state before an access keeps the invariant if the state before the instruction does. -/
theorem Inv.undo {b t : State} (hb : Inv b) (ht : Inv t) (l : Late) : Inv (b.undo t l) := by
  cases l with
  | store sp k w _ => exact ht.withDataMem sp k _
  | storeP a w =>
    have wb := (Memory.wf_iff b).1 hb.mem
    have wt := (Memory.wf_iff t).1 ht.mem
    exact ht.of_mem ((Memory.wf_iff _).2 ⟨wb.1, wt.2.1, wt.2.2.1, wb.2.2.2.1, wb.2.2.2.2⟩) hb.lru (by simp [State.undo])
  | load sp k d => exact ht
  | refill sp k high i => exact ht
  | vector a => exact ht

theorem Inv.postpone {b t : State} (hb : Inv b) (ht : Inv t) (l : List (Option Late)) : Inv (b.postpone t l) := by
  unfold State.postpone
  dsimp only
  generalize (lastOnes l).drop _ = q
  refine Inv.withLate ?_ q
  induction q generalizing t with
  | nil => exact ht
  | cons x q ih => exact ih (hb.undo ht x)

theorem Inv.deferLast {b u : State} (hb : Inv b) (hu : Inv u) (i : Instr) (t : State) : Inv (b.deferLast i t u) := by
  unfold State.deferLast
  dsimp only
  split
  · exact hb.postpone hu _
  · exact hu

/-- The first spill of a loop start made in a step of its own keeps the invariant. -/
theorem Inv.spillFirst (h : Inv s) {t : State} (e : s.spillFirst = some t) : Inv t := by
  unfold State.spillFirst at e
  split at e
  · split at e
    · cases e
      exact h.postpone (h.spill.of_same (by simp)) _
    · cases e
  · cases e

/-- So does all that the core does in a step of its own before an instruction. -/
theorem Inv.ahead (h : Inv s) {t : State} (e : s.ahead = some t) : Inv t := by
  unfold State.ahead at e
  split at e
  · split at e
    · cases e
      exact h.spillFirst ‹_›
    · split at e
      · cases e
      · unfold State.fetchAhead at e
        split at e
        · cases e
        · simp only [Option.map_eq_some_iff] at e
          obtain ⟨⟨w, u⟩, hf, rfl⟩ := e
          exact (h.fetch hf).withPdb _
  · cases e

/-! ## What follows an instruction -/

theorem Inv.notePWrites (h : Inv s) (l : List Access) : Inv (l.foldl (fun u a => u.notePWrite a.addr) s) := by
  induction l generalizing s with
  | nil => exact h
  | cons a l ih => exact ih (h.notePWrite _)

theorem Inv.fade (h : Inv s) : Inv s.fade := h.of_same (by simp)

theorem Inv.remember (h : Inv s) (b : State) (i : Instr) (n : Nat) : Inv (b.remember i n s) :=
  Inv.notePWrites (Inv.fade (s := { s with ctl := _ }) (h.of_same (by simp))) _

theorem Inv.requestDebug (h : Inv s) (c : BitVec 3) : Inv (s.requestDebug c) := h.once h.trace
theorem Inv.requestLater (h : Inv s) : Inv s.requestLater := h.once h.trace
theorem Inv.promote (h : Inv s) : Inv s.promote := by
  unfold State.promote
  split
  · exact (h.once (o := { s.once with later := false }) h.trace).requestDebug _
  · exact h
theorem Inv.settleRequest (h : Inv s) : Inv s.settleRequest := by
  unfold State.settleRequest
  split
  · exact h.once h.trace
  · exact h
theorem Inv.watchAccess (h : Inv s) (a : Access) : Inv (s.watchAccess a) := by
  unfold State.watchAccess
  split
  · dsimp only
    split
    · split
      · split
        · exact Inv.once (s := { s with once := _ }) (h.once h.trace) h.trace
        · exact Inv.once (s := { s with once := _ }) (h.once h.trace) h.trace
      · exact h.once h.trace
    · exact h.once h.trace
  · exact h
theorem Inv.watchAll (h : Inv s) (l : List Access) : Inv (s.watchAll l) := by
  unfold State.watchAll
  split
  · exact h
  · induction l generalizing s with
    | nil => exact h
    | cons a l ih => simpa using ih (s := s.watchAccess a) (h.watchAccess a) (by
        unfold State.watchAccess; split
        · dsimp only; split
          · split
            · split <;> simpa [State.requestDebug, State.requestLater]
            · simpa
          · simpa
        · assumption)
theorem Inv.traceCount (h : Inv s) : Inv s.traceCount := by
  unfold State.traceCount
  split
  · split
    · exact h.requestDebug _
    · exact h.once h.trace
  · exact h
theorem Inv.traceFlow (h : Inv s) (a : Word) (b : Bool) : Inv (s.traceFlow a b) := h.once (by simp)

theorem Inv.observe (h : Inv s) (b : State) (i : Instr) (a : Word) (l : List Access) (t : State) : Inv (b.observe i a l t s) := by
  unfold State.observe
  refine (Inv.watchAll (Inv.traceCount ?_) _).settleRequest
  split
  · exact h.promote.traceFlow _ _
  · exact h.promote

theorem Inv.window (h : Inv s) (m : BitVec 2) (w : BitVec 3) (hw : w.toNat ≤ 6) :
    Inv { s with irq := { s.irq with oldMask := m, window := w } } := h.of_irq ⟨h.irq.1, hw⟩ (by simp)

theorem Inv.maskWindow (h : Inv s) (b : State) (i : Instr) : Inv (b.maskWindow i s) := by
  have ho : Inv (b.openWindow s) := h.window _ _ (by decide)
  unfold State.maskWindow
  split
  · split
    · split
      · exact h
      · exact h.window _ _ (by decide)
    · split
      · exact h
      · exact ho
  · split
    · refine h.window s.irq.oldMask _ ?_
      have := h.irq.2
      split <;> bv_omega
    · exact ho

theorem Inv.dropPdb (h : Inv s) (b : State) (i : Instr) : Inv (b.dropPdb i s) := by
  unfold State.dropPdb
  split
  · exact h.withPdb _
  · exact h

theorem Inv.settleLatches (h : Inv s) : Inv s.settleLatches := by
  unfold State.settleLatches
  split
  · exact h.latchPipeline
  · exact h

theorem Inv.after {b : State} (hb : Inv b) (h : Inv s) (i : Instr) (a : Word) (l : List Access) (t : State) :
    Inv (b.after i a l t s) :=
  hb.deferLast (Inv.remember (Inv.settleLatches
    (Inv.dropPdb (Inv.observe (Inv.maskWindow h b i) b i a l t) b i)) b i l.length) i t

/-! ## REP -/

theorem Inv.corruptLast (h : Inv s) (b : State) (i : Instr) : Inv (b.corruptLast i s) := by
  unfold State.corruptLast
  split
  · split
    · exact h.wrD _ _
    · exact h.writeData _ _ _
    · exact h
  · exact h

theorem Inv.repeatOrEnd (h : Inv s) (r : Rep) (w a : Word) : Inv (s.repeatOrEnd r w a) := by
  unfold State.repeatOrEnd
  split
  · exact h.withLc _
  · exact ((h.withLc _).withPc _).withRep _

/-! ## The DMA -/

theorem Inv.dmaWriteWord (h : Inv s) (sp : DmaSpace) (a w : Word) : Inv (s.dmaWriteWord sp a w) := by
  cases sp with
  | data d => simp only [State.dmaWriteWord]; split; exacts [h, h.writeData _ _ _]
  | program => exact (h.pRawWrite a w).notePWrite a

theorem Inv.dmaWrite (h : Inv s) (sp : DmaSpace) (a v : Word) : Inv (s.dmaWrite sp a v) := by
  unfold State.dmaWrite
  split
  · exact ((h.dmaWriteWord _ _ _).dmaWriteWord _ _ _).dmaWriteWord _ _ _
  · exact h.dmaWriteWord _ _ _

theorem Inv.dmaTrigger (h : Inv s) (d : BitVec 5) : Inv (s.dmaTrigger d) := h.of_same (by simp [State.dmaTrigger])

theorem Inv.withDma (h : Inv s) (d : Dma) : Inv { s with dma := d } := h.of_same (by simp)

theorem Inv.endOfBlock (h : Inv s) (n : Fin 6) : Inv (s.endOfBlock n) := by
  have h1 (c : DmaChannel) (p q : Bool) (x : Word) :
      let t := State.dmaTrigger (if p then s.withChannel n c else (s.withChannel n c).setDtd n true) (BitVec.ofNat 5 (4 + n))
      Inv (if q then t else t.dmaInterrupt n x) := by
    have h2 : Inv (if p then s.withChannel n c else (s.withChannel n c).setDtd n true) := by
      split
      · exact h.withChannel _ _
      · exact (h.withChannel _ _).setDtd _ _
    dsimp only
    split
    · exact h2.dmaTrigger _
    · exact (h2.dmaTrigger _).dmaInterrupt _ _
  exact h1 _ _ _ _

theorem Inv.dmaStopped (h : Inv s) (n : Fin 6) : Inv (s.dmaStopped n) := by
  have h1 (c : DmaChannel) (p : Bool) : Inv (if p then s.withChannel n c else (s.withChannel n c).setDtd n true) := by
    split
    · exact h.withChannel _ _
    · exact (h.withChannel _ _).setDtd _ _
  unfold State.dmaStopped
  dsimp only
  split
  · split
    · exact h1 _ _
    · exact (h1 _ _).dmaInterrupt _ _
  · exact h

theorem Inv.dmaStore (h : Inv s) (n : Fin 6) (m : DmaModes) (ds : DmaSpace) (v : Word) : Inv (s.dmaStore n m ds v) := by
  have h1 (c : DmaChannel) (d : Dma) (p : Prop) [Decidable p] (q : Bool) :
      let t : State := { (s.dmaWrite ds s.dma.ch[n].ddr v).withChannel n c with dma := d }
      let u := if p then t.endOfBlock n else t
      Inv ((if q then u.serveTrigger n else u).dmaStopped n) := by
    have h2 := ((h.dmaWrite ds s.dma.ch[n].ddr v).withChannel n c).withDma d
    dsimp only
    refine Inv.dmaStopped ?_ n
    split <;> split
    · exact (h2.endOfBlock n).serveTrigger n
    · exact h2.serveTrigger n
    · exact h2.endOfBlock n
    · exact h2
  exact h1 _ _ _ _

theorem dmaTransfer_inv (h : Inv s) (n : Fin 6) : KeepsInv (dmaTransfer n s) := by
  unfold dmaTransfer
  dsimp only
  split
  · exact .refused _
  · split
    · exact .refused _
    · split
      · split
        · exact .refused _
        · split
          · exact .next (h.dmaLoad _ _)
          · exact .next (h.dmaStore _ _ _ _)
      · exact .refused _

end Sys2Proof.Machine
end

