-- ==== Sys2Proof/Laws/Results.lean ====
section
/-!
SUPPORT. What the outcomes of Alu.lean (`finish`, `outStd`, `outNoC`, `outCmp`, `outLogic`) leave in the accumulator and in
SR, in the terms of Safety.lean.
-/
namespace Sys2Proof.Machine

/-! ## Results -/

theorem extract_bit_beq (r : AccWord) (a b : Nat) : (r.extractLsb' a 1 == r.extractLsb' b 1) = (r.getLsbD a == r.getLsbD b) := by
  rw [Bool.eq_iff_iff]
  simp only [beq_iff_eq]
  constructor
  · intro e
    have := congrArg (fun v : BitVec 1 => v.getLsbD 0) e
    simpa using this
  · intro e
    ext i hi
    have : i = 0 := by omega
    subst this
    simpa using e

theorem threeBitsDiffer_eq (r : AccWord) : threeBitsDiffer r = mustSaturate r := by
  unfold threeBitsDiffer mustSaturate
  rw [extract_bit_beq, extract_bit_beq]

theorem wrapped_eq (sa : Bool) (x : Int) : wrapped sa x = accOfInt sa x := rfl

theorem outOfRange_eq (sa : Bool) (x : Int) : outOfRange sa x = overflows sa x := by
  unfold outOfRange overflows accWidth
  cases sa <;> simp

theorem clipped_eq (s : State) (rnd : Bool) (r : AccWord) (v : Bool) : clipped s rnd r v = s.satFinish true rnd r v := by
  unfold clipped State.satFinish clipConst saturated
  simp only [threeBitsDiffer_eq, Bool.true_and]
  rw [show s.srBit 20 = s.sm from rfl]
  split
  · cases h : mustSaturate r
    · simp
    · cases s.sa <;> cases rnd <;> simp
  · rfl

/-- The stored result and V of `finish` are those of the claims (40_alu_common R205, R225). -/
theorem stored_eq_finish (s : State) (sm : Bool) (x : Int) : stored s sm x = s.finish sm x := by
  unfold stored State.finish
  rw [clipped_eq, wrapped_eq, outOfRange_eq]
  cases sm
  · simp [State.satFinish]
  · rfl

theorem topSame_eq (r : AccWord) (lo w : Nat) (h : lo + w = 56) :
    topSame r lo = (r.extractLsb' lo w == 0 || r.extractLsb' lo w == BitVec.allOnes w) := by
  unfold topSame
  have e : (r.extractLsb' lo w).toNat = r.toNat / 2 ^ lo := by
    simp only [BitVec.extractLsb'_toNat, Nat.shiftRight_eq_div_pow]
    apply Nat.mod_eq_of_lt
    have := r.isLt
    rw [Nat.div_lt_iff_lt_mul (by positivity), ← pow_add, Nat.add_comm w lo, h]; exact this
  have hw : 56 - lo = w := by omega
  rw [hw, ← e]
  congr 1
  · rw [Bool.eq_iff_iff]; simp only [beq_iff_eq]; rw [← BitVec.toNat_inj]; simp
  · rw [Bool.eq_iff_iff]; simp only [beq_iff_eq]; rw [← BitVec.toNat_inj]; simp [BitVec.toNat_allOnes]

theorem extUnn_of_flags (s t : State) (r : AccWord) (hE : t.srBit 5 = s.flagE r) (hU : t.srBit 4 = s.flagU r) :
    ExtUnn t r s.scaling := by
  unfold State.flagE at hE
  unfold State.flagU at hU
  cases hs : s.scaling <;> simp only [hs, reduceCtorEq, if_false, Scaling.intPortion] at hE hU <;> simp only [ExtUnn]
  · rw [hE, hU, topSame_eq r 47 9 rfl]; exact ⟨rfl, rfl⟩
  · rw [hE, hU, topSame_eq r 48 8 rfl]; exact ⟨rfl, rfl⟩
  · rw [hE, hU, topSame_eq r 46 10 rfl]; exact ⟨rfl, rfl⟩

/-! ## SR after an operation -/

theorem ccrByte_bits (c v z n u e : Bool) :
    (ccrByte c v z n u e).getLsbD 0 = c ∧ (ccrByte c v z n u e).getLsbD 1 = v ∧ (ccrByte c v z n u e).getLsbD 2 = z ∧
    (ccrByte c v z n u e).getLsbD 3 = n ∧ (ccrByte c v z n u e).getLsbD 4 = u ∧ (ccrByte c v z n u e).getLsbD 5 = e := by
  revert c v z n u e; decide

/-- A bit of SR below L that the operation writes, or does not write. -/
theorem State.srBit_commit_low (s : State) (o : AluOut) (p : Plan) (n k : Nat) (hk : k < 6) :
    ((s.commit o p).advance n).srBit k = if o.ccr.mask.getLsbD k then o.ccr.val.getLsbD k else s.srBit k := by
  rw [State.srBit_advance, State.srBit_commit, if_pos (by omega), decide_eq_false (by omega : ¬k = 6),
    decide_eq_false (by omega : ¬k = 7)]
  simp

theorem State.srBit_commit_L (s : State) (o : AluOut) (p : Plan) (n : Nat) (h : o.ccr.mask.getLsbD 6 = false) :
    ((s.commit o p).advance n).srBit 6 =
      (s.srBit 6 || (o.ccr.mask.getLsbD 1 && o.ccr.val.getLsbD 1) || p.lTerm) := by
  rw [State.srBit_advance, State.srBit_commit, if_pos (by omega), h]
  simp

theorem State.srBit_commit_S (s : State) (o : AluOut) (p : Plan) (n : Nat) (h : o.ccr.mask.getLsbD 7 = false) :
    ((s.commit o p).advance n).srBit 7 = (s.srBit 7 || p.sTerm) := by
  rw [State.srBit_advance, State.srBit_commit, if_pos (by omega), h]
  simp

theorem and_accAll (v : AccWord) : v &&& accAll = v := by
  have : accAll = BitVec.allOnes 56 := by decide
  rw [this, BitVec.and_allOnes]

theorem State.acc_commit_all (s : State) (i : Instr) (d : Acc) (v : AccWord) (c : CcrUpd) (n : Nat) (hs : Spares s i d) :
    ((s.commit ⟨d, accAll, v, c⟩ (s.plan (parallelPart i))).advance n).acc d = v := by
  rw [State.acc_advance, s.acc_commit _ _ _ hs, if_pos rfl, and_accAll]
  simp [accAll]

/-- What an operation leaves that writes the bits 5 to `lo` of the CCR with those of `ccrByte`. -/
theorem commit_flags (s : State) (i : Instr) (o : AluOut) (n lo : Nat) (c v z ng u e : Bool)
    (hv : o.ccr.val = ccrByte c v z ng u e) (hm : ∀ k < 6, o.ccr.mask.getLsbD k = decide (lo ≤ k)) (h1 : lo ≤ 1)
    (h6 : o.ccr.mask.getLsbD 6 = false) (h7 : o.ccr.mask.getLsbD 7 = false) :
    let t := (s.commit o (s.plan (parallelPart i))).advance n
    t.srBit 0 = (if lo = 0 then c else s.srBit 0) ∧ t.srBit 1 = v ∧ t.srBit 2 = z ∧ t.srBit 3 = ng ∧ t.srBit 4 = u ∧
      t.srBit 5 = e ∧ Stickies s t i v := by
  intro t
  obtain ⟨b0, b1, b2, b3, b4, b5⟩ := ccrByte_bits c v z ng u e
  have low : ∀ k, lo ≤ k → k < 6 → t.srBit k = (ccrByte c v z ng u e).getLsbD k := by
    intro k hl hk
    have := s.srBit_commit_low o (s.plan (parallelPart i)) n k hk
    rw [hm k hk, decide_eq_true hl, if_pos rfl, hv] at this
    exact this
  refine ⟨?_, by rw [low 1 h1 (by omega), b1], by rw [low 2 (by omega) (by omega), b2],
    by rw [low 3 (by omega) (by omega), b3], by rw [low 4 (by omega) (by omega), b4],
    by rw [low 5 (by omega) (by omega), b5], ?_, s.srBit_commit_S _ _ _ h7⟩
  · split
    · next h => rw [low 0 (by omega) (by omega), b0]
    · next h =>
      have := s.srBit_commit_low o (s.plan (parallelPart i)) n 0 (by omega)
      rw [hm 0 (by omega), decide_eq_false (by omega : ¬lo ≤ 0)] at this
      exact this
  · have := s.srBit_commit_L o (s.plan (parallelPart i)) n h6
    rw [hm 1 (by omega), decide_eq_true h1, hv, b1, Bool.true_and] at this
    exact this

/-- An operation with every flag (`outStd`). -/
theorem commit_outStd (s : State) (i : Instr) (d : Acc) (r : AccWord × Bool) (c : Bool) (n : Nat) :
    let t := (s.commit (s.outStd d r c) (s.plan (parallelPart i))).advance n
    (Spares s i d → t.acc d = r.1) ∧ t.srBit 1 = r.2 ∧ t.srBit 0 = c ∧ FlagsOf s t r.1 ∧ Stickies s t i r.2 := by
  intro t
  obtain ⟨f0, f1, f2, f3, f4, f5, f6⟩ := commit_flags s i (s.outStd d r c) n 0 c r.2 (r.1 == 0) r.1.msb (s.flagU r.1)
    (s.flagE r.1) rfl (by show ∀ k < 6, (0x3F#8).getLsbD k = _; decide) (by omega)
    (by show (0x3F#8).getLsbD 6 = _; decide) (by show (0x3F#8).getLsbD 7 = _; decide)
  exact ⟨s.acc_commit_all i d _ _ n, f1, f0, ⟨extUnn_of_flags s t r.1 f5 f4, f3, f2⟩, f6⟩

/-- An operation with every flag but C (`outNoC`). -/
theorem commit_outNoC (s : State) (i : Instr) (d : Acc) (r : AccWord × Bool) (n : Nat) :
    let t := (s.commit (s.outNoC d r) (s.plan (parallelPart i))).advance n
    (Spares s i d → t.acc d = r.1) ∧ t.srBit 1 = r.2 ∧ t.srBit 0 = s.srBit 0 ∧ FlagsOf s t r.1 ∧ Stickies s t i r.2 := by
  intro t
  obtain ⟨f0, f1, f2, f3, f4, f5, f6⟩ := commit_flags s i (s.outNoC d r) n 1 false r.2 (r.1 == 0) r.1.msb (s.flagU r.1)
    (s.flagE r.1) rfl (by show ∀ k < 6, (0x3E#8).getLsbD k = _; decide) (by omega)
    (by show (0x3E#8).getLsbD 6 = _; decide) (by show (0x3E#8).getLsbD 7 = _; decide)
  exact ⟨s.acc_commit_all i d _ _ n, f1, f0, ⟨extUnn_of_flags s t r.1 f5 f4, f3, f2⟩, f6⟩

/-- A Data ALU operation alone is one with no move. -/
theorem runAlu_eq (op : State → AluOut) (n : Nat) (s : State) :
    runAlu op n s = .next ((s.commit (op s) (s.plan .none)).advance n) := by
  unfold runAlu; rw [s.commitAlu_eq_commit]

end Sys2Proof.Machine
end

