-- ==== Sys2Proof/Laws/Frames.lean ====
section
/-!
SUPPORT. The outcome of each Data ALU instruction, and what the end of one leaves alone.
-/
namespace Sys2Proof.Machine

/-! ## Each Data ALU instruction has an outcome -/

/-- The outcome of a Data ALU instruction or of a move (none: nothing is computed), read from the state before it. -/
def outOf (s : State) : Instr → Option AluOut
  | .tfrAcc d _ => some (opTfrAcc d s)
  | .tfrReg r d _ => some (opTfrReg r d s)
  | .addr d _ => some (opAddr d s)
  | .tst d _ => some (opTst d s)
  | .cmpAcc d _ => some (opCmpAcc d s)
  | .cmpReg r d _ => some (opCmpReg r d s)
  | .subr d _ => some (opSubr d s)
  | .cmpmAcc d _ => some (opCmpmAcc d s)
  | .cmpmReg r d _ => some (opCmpmReg r d s)
  | .addAcc d _ => some (opAddAcc d s)
  | .addXY r d _ => some (opAddXY r d s)
  | .addReg r d _ => some (opAddReg r d s)
  | .rnd d _ => some (opRnd d s)
  | .addl d _ => some (opAddl d s)
  | .clr d _ => some (opClr d s)
  | .subAcc d _ => some (opSubAcc d s)
  | .subXY r d _ => some (opSubXY r d s)
  | .subReg r d _ => some (opSubReg r d s)
  | .maxm _ => some (opMaxm s)
  | .max _ => some (opMax s)
  | .subl d _ => some (opSubl d s)
  | .adc r d _ => some (opAdc r d s)
  | .asr d _ => some (opAsr d s)
  | .sbc r d _ => some (opSbc r d s)
  | .abs d _ => some (opAbs d s)
  | .asl d _ => some (opAsl d s)
  | .neg d _ => some (opNeg d s)
  | .addShort i d => some (opAddImm (i.setWidth 24) d s)
  | .addImm d imm => some (opAddImm imm d s)
  | .aslNum i r d => some (opAslN i.toNat r d s)
  | .aslBy c r d => some (opAslN ((s.shiftSrc c).extractLsb' 0 6).toNat r d s)
  | .asrNum i r d => some (opAsrN i.toNat r d s)
  | .asrBy c r d => some (opAsrN ((s.shiftSrc c).extractLsb' 0 6).toNat r d s)
  | .cmpShort i d => some (opCmpImm (i.setWidth 24) d s)
  | .cmpImm d imm => some (opCmpImm imm d s)
  | .cmpu g d => some (opCmpu g d s)
  | .dec d => some (opDec d s)
  | .div r d => some (opDiv r d s)
  | .inc d => some (opInc d s)
  | .normf r d => some (opNormf (s.shiftSrc r).toInt d s)
  | .subShort i d => some (opSubImm (i.setWidth 24) d s)
  | .subImm d imm => some (opSubImm imm d s)
  | .mpy q d minus _ => some (opMpy q d minus s)
  | .mpyr q d minus _ => some (opMpyr q d minus s)
  | .mac q d minus _ => some (opMac q d minus s)
  | .macr q d minus _ => some (opMacr q d minus s)
  | .dmac sg q d minus => some (opDmac sg q d minus s)
  | .macNum r n d minus => some (opMacImm (mulConst n) r d minus s)
  | .macSu sg q d minus => some (opMacSu sg q d minus s)
  | .maci r d minus imm => some (opMacImm imm r d minus s)
  | .macrNum r n d minus => some (opMacrImm (mulConst n) r d minus s)
  | .macri r d minus imm => some (opMacrImm imm r d minus s)
  | .mpyNum r n d minus => some (opMpyImm (mulConst n) r d minus s)
  | .mpySu sg q d minus => some (opMpySu sg q d minus s)
  | .mpyi r d minus imm => some (opMpyImm imm r d minus s)
  | .mpyrNum r n d minus => some (opMpyrImm (mulConst n) r d minus s)
  | .mpyri r d minus imm => some (opMpyrImm imm r d minus s)
  | .not d _ => some (opNot d s)
  | .lsr d _ => some (opLsr d s)
  | .ror d _ => some (opRor d s)
  | .lsl d _ => some (opLsl d s)
  | .rol d _ => some (opRol d s)
  | .or r d _ => some (opOr r d s)
  | .eor r d _ => some (opEor r d s)
  | .and r d _ => some (opAnd r d s)
  | .andShort i d => some (opAndWord (s.immWord (i.setWidth 24)) d s)
  | .andImm d imm => some (opAndWord (s.immWord imm) d s)
  | .clb r d => some (opClb r d s)
  | .eorShort i d => some (opEorWord (s.immWord (i.setWidth 24)) d s)
  | .eorImm d imm => some (opEorWord (s.immWord imm) d s)
  | .extractBy c r d => some (opExtract (s.shiftSrc c) r d s)
  | .extractNum r d co => some (opExtract co r d s)
  | .extractuBy c r d => some (opExtractu (s.shiftSrc c) r d s)
  | .extractuNum r d co => some (opExtractu co r d s)
  | .insertBy c r d => some (opInsert (s.shiftSrc c) (s.insSrc r) d s)
  | .insertNum r d co => some (opInsert co (s.insSrc r) d s)
  | .lslNum i d => some (opLslN i.toNat d s)
  | .lslBy c d => some (opLslN (s.shiftSrc c).toNat d s)
  | .lsrNum i d => some (opLsrN i.toNat d s)
  | .lsrBy c d => some (opLsrN (s.shiftSrc c).toNat d s)
  | .merge r d => some (opMerge (s.shiftSrc r) d s)
  | .orShort i d => some (opOrWord (s.immWord (i.setWidth 24)) d s)
  | .orImm d imm => some (opOrWord (s.immWord imm) d s)
  | .moveParallel _ => some .nothing
  | .moveImm _ _ => some .nothing
  | .moveReg _ _ => some .nothing
  | .moveUpd _ _ => some .nothing
  | .moveXEa _ _ _ => some .nothing
  | .moveXAa _ _ _ => some .nothing
  | .moveYEa _ _ _ => some .nothing
  | .moveYAa _ _ _ => some .nothing
  | .moveXR1 _ _ _ _ _ => some .nothing
  | .moveXR2 _ _ => some .nothing
  | .moveRY1 _ _ _ _ _ => some .nothing
  | .moveRY2 _ _ => some .nothing
  | .moveLEa _ _ _ => some .nothing
  | .moveLAa _ _ _ => some .nothing
  | .moveXY _ _ _ _ _ _ _ _ => some .nothing
  | .moveNone => some .nothing
  | _ => none

/-- Such an instruction ends with its outcome and its move. -/
theorem exec_outOf (s : State) (i : Instr) (o : AluOut) (h : outOf s i = some o) :
    exec i s = .next ((s.commit o (s.plan (parallelPart i))).advance i.len) := by
  cases i <;> simp only [outOf, Option.some.injEq, reduceCtorEq] at h <;> subst h
  case addShort => simp only [exec, execAddShort, runAlu_eq]; rfl
  case addImm => simp only [exec, execAddImm, runAlu_eq]; rfl
  case aslNum => simp only [exec, execAslNum, runAlu_eq]; rfl
  case aslBy => simp only [exec, execAslBy, runAlu_eq]; rfl
  case asrNum => simp only [exec, execAsrNum, runAlu_eq]; rfl
  case asrBy => simp only [exec, execAsrBy, runAlu_eq]; rfl
  case cmpShort => simp only [exec, execCmpShort, runAlu_eq]; rfl
  case cmpImm => simp only [exec, execCmpImm, runAlu_eq]; rfl
  case cmpu => simp only [exec, execCmpu, runAlu_eq]; rfl
  case dec => simp only [exec, execDec, runAlu_eq]; rfl
  case div => simp only [exec, execDiv, runAlu_eq]; rfl
  case inc => simp only [exec, execInc, runAlu_eq]; rfl
  case normf => simp only [exec, execNormf, runAlu_eq]; rfl
  case subShort => simp only [exec, execSubShort, runAlu_eq]; rfl
  case subImm => simp only [exec, execSubImm, runAlu_eq]; rfl
  case dmac => simp only [exec, execDmac, runAlu_eq]; rfl
  case macNum => simp only [exec, execMacNum, runAlu_eq]; rfl
  case macSu => simp only [exec, execMacSu, runAlu_eq]; rfl
  case maci => simp only [exec, execMaci, runAlu_eq]; rfl
  case macrNum => simp only [exec, execMacrNum, runAlu_eq]; rfl
  case macri => simp only [exec, execMacri, runAlu_eq]; rfl
  case mpyNum => simp only [exec, execMpyNum, runAlu_eq]; rfl
  case mpySu => simp only [exec, execMpySu, runAlu_eq]; rfl
  case mpyi => simp only [exec, execMpyi, runAlu_eq]; rfl
  case mpyrNum => simp only [exec, execMpyrNum, runAlu_eq]; rfl
  case mpyri => simp only [exec, execMpyri, runAlu_eq]; rfl
  case andShort => simp only [exec, execAndShort, runAlu_eq]; rfl
  case andImm => simp only [exec, execAndImm, runAlu_eq]; rfl
  case clb => simp only [exec, execClb, runAlu_eq]; rfl
  case eorShort => simp only [exec, execEorShort, runAlu_eq]; rfl
  case eorImm => simp only [exec, execEorImm, runAlu_eq]; rfl
  case extractBy => simp only [exec, execExtractBy, runAlu_eq]; rfl
  case extractNum => simp only [exec, execExtractNum, runAlu_eq]; rfl
  case extractuBy => simp only [exec, execExtractuBy, runAlu_eq]; rfl
  case extractuNum => simp only [exec, execExtractuNum, runAlu_eq]; rfl
  case insertBy => simp only [exec, execInsertBy, runAlu_eq]; rfl
  case insertNum => simp only [exec, execInsertNum, runAlu_eq]; rfl
  case lslNum => simp only [exec, execLslNum, runAlu_eq]; rfl
  case lslBy => simp only [exec, execLslBy, runAlu_eq]; rfl
  case lsrNum => simp only [exec, execLsrNum, runAlu_eq]; rfl
  case lsrBy => simp only [exec, execLsrBy, runAlu_eq]; rfl
  case merge => simp only [exec, execMerge, runAlu_eq]; rfl
  case orShort => simp only [exec, execOrShort, runAlu_eq]; rfl
  case orImm => simp only [exec, execOrImm, runAlu_eq]; rfl
  all_goals rfl

variable (s : State)

/-! ## The content of registers -/

/-- What `content` looks at. -/
theorem State.content_congr {t : State} (ha : t.alu = s.alu) (hg : t.agu = s.agu) (h1 : t.pcu.vba = s.pcu.vba)
    (h2 : t.pcu.sc = s.pcu.sc) (h3 : t.pcu.sz = s.pcu.sz) (h4 : t.pcu.omr = s.pcu.omr) (h5 : t.pcu.sp = s.pcu.sp)
    (h6 : t.pcu.la = s.pcu.la) (h7 : t.pcu.lc = s.pcu.lc) (r : Reg) : t.content r = s.content r := by
  match r with
  | .d (.alu r) => cases r <;> simp only [State.content, ha]
  | .d (.r n) => simp only [State.content, hg]
  | .d (.n n) => simp only [State.content, hg]
  | .c c => cases c <;> simp only [State.content, hg, h1, h2, h3, h4, h5, h6, h7]

theorem State.content_advance (n : Nat) (r : Reg) : (s.advance n).content r = s.content r := by
  apply State.content_congr <;> simp

theorem State.content_withCcr (c : Byte) (r : Reg) : (s.withCcr c).content r = s.content r := by
  apply State.content_congr <;> simp

theorem State.content_applyMems (u : List (Space × Word × Word)) (r : Reg) :
    (s.applyMems u).content r = s.content r := by
  apply State.content_congr <;> simp

theorem State.content_withAcc (d : Acc) (v : AccWord) (r : Reg) (h : clash (accAsReg d) r = false) :
    (s.withAcc d v).content r = s.content r := by
  match r with
  | .d (.alu r) => cases d <;> cases r <;> first | rfl | exact absurd h (by decide)
  | .d (.r n) => cases d <;> rfl
  | .d (.n n) => cases d <;> rfl
  | .c c => cases d <;> cases c <;> rfl

theorem State.content_setR (n : Fin 8) (v : Word) (r : Reg) (h : clash (.d (.r n)) r = false) :
    (s.setR n v).content r = s.content r := by
  match r with
  | .d (.alu r) => cases r <;> rfl
  | .d (.r m) =>
    have hne : n ≠ m := by rintro rfl; simp [clash] at h
    simp only [State.content, State.setR]
    congr 1
    exact Vector.getElem_set_ne _ _ (by simpa [Fin.ext_iff] using hne)
  | .d (.n n) => rfl
  | .c c => cases c <;> rfl

theorem extract_setMsp (a : AccWord) (w : Word) : (setMsp a w).extractLsb' 0 24 = a.extractLsb' 0 24 ∧
    (setMsp a w).extractLsb' 48 8 = a.extractLsb' 48 8 := by
  constructor <;>
    (apply BitVec.eq_of_getLsbD_eq; intro i hi
     simp only [setMsp, BitVec.getLsbD_extractLsb', BitVec.getLsbD_append]
     interval_cases i <;> simp)

theorem extract_setLsp (a : AccWord) (w : Word) : (setLsp a w).extractLsb' 24 24 = a.extractLsb' 24 24 ∧
    (setLsp a w).extractLsb' 48 8 = a.extractLsb' 48 8 := by
  constructor <;>
    (apply BitVec.eq_of_getLsbD_eq; intro i hi
     simp only [setLsp, BitVec.getLsbD_extractLsb', BitVec.getLsbD_append]
     interval_cases i <;> simp)

theorem extract_setExt (a : AccWord) (w : Byte) : (setExt a w).extractLsb' 24 24 = a.extractLsb' 24 24 ∧
    (setExt a w).extractLsb' 0 24 = a.extractLsb' 0 24 := by
  constructor <;>
    (apply BitVec.eq_of_getLsbD_eq; intro i hi
     simp only [setExt, BitVec.getLsbD_extractLsb', BitVec.getLsbD_append]
     interval_cases i <;> simp)

theorem State.content_wrXY (q : XYReg) (w : Word) : ∀ r,
    (match q with
     | .x0 => clash (.d (.alu .x0)) r = false
     | .x1 => clash (.d (.alu .x1)) r = false
     | .y0 => clash (.d (.alu .y0)) r = false
     | .y1 => clash (.d (.alu .y1)) r = false) → (s.wrXY q w).content r = s.content r := by
  intro r h
  unfold State.wrXY
  match r with
  | .d (.alu r) => cases q <;> cases r <;> first | exact absurd h (by decide) | (dsimp only; split <;> rfl)
  | .d (.r n) => cases q <;> (dsimp only; split <;> rfl)
  | .d (.n n) => cases q <;> (dsimp only; split <;> rfl)
  | .c c => cases q <;> (dsimp only; split <;> cases c <;> rfl)

theorem State.content_wrD (d : DReg) (w : Word) (r : Reg) (h : clash (.d d) r = false) :
    (s.wrD d w).content r = s.content r := by
  cases d with
  | r n => exact s.content_setR n _ r h
  | n n =>
    match r with
    | .d (.alu r) => cases r <;> rfl
    | .d (.r m) => rfl
    | .d (.n m) =>
      have hne : n ≠ m := by rintro rfl; simp [clash] at h
      simp only [State.content, State.wrD]
      congr 1
      exact Vector.getElem_set_ne _ _ (by simpa [Fin.ext_iff] using hne)
    | .c c => cases c <;> rfl
  | alu e =>
    cases e with
    | x0 => exact s.content_wrXY .x0 w r h
    | x1 => exact s.content_wrXY .x1 w r h
    | y0 => exact s.content_wrXY .y0 w r h
    | y1 => exact s.content_wrXY .y1 w r h
    | a => exact s.content_withAcc .a _ r h
    | b => exact s.content_withAcc .b _ r h
    | _ =>
      match r with
      | .d (.alu r) =>
        cases r <;> first
          | exact absurd h (by decide)
          | rfl
          | (simp [State.content, State.wrD, State.wrAlu, extract_setMsp, extract_setLsp, extract_setExt])
      | .d (.r n) => rfl
      | .d (.n n) => rfl
      | .c c => cases c <;> rfl

theorem State.content_applyUpds (u : List (Fin 8 × Word)) (r : Reg) (h : ∀ p ∈ u, clash (.d (.r p.1)) r = false) :
    (s.applyUpds u).content r = s.content r := by
  unfold State.applyUpds
  induction u generalizing s with
  | nil => rfl
  | cons p u ih =>
    rw [List.foldl_cons, ih _ fun q hq => h q (List.mem_cons_of_mem _ hq)]
    exact s.content_setR p.1 p.2 r (h p List.mem_cons_self)

theorem State.content_applyRegs (u : List (DReg × Word)) (r : Reg) (h : ∀ p ∈ u, clash (.d p.1) r = false) :
    (s.applyRegs u).content r = s.content r := by
  unfold State.applyRegs
  induction u generalizing s with
  | nil => rfl
  | cons p u ih =>
    rw [List.foldl_cons, ih _ fun q hq => h q (List.mem_cons_of_mem _ hq)]
    exact s.content_wrD p.1 p.2 r (h p List.mem_cons_self)

/-! ## Data memory and devices -/

/-- Two states that map data addresses alike. -/
def SameMap (s t : State) : Prop := t.sc = s.sc ∧ t.pcu.omr = s.pcu.omr

theorem SameMap.dataKey {s t : State} (h : SameMap s t) (sp : Space) (a : Word) : t.dataKey sp a = s.dataKey sp a := by
  obtain ⟨h1, h2⟩ := h
  cases sp <;> simp [State.dataKey, State.dataExternal, State.internalIo, State.inIo, State.inTop, State.inModules,
    State.topOf, State.inRam, State.mapAddr, State.memSwitch, State.omrBit, h1, h2]

theorem SameMap.internalIo {s t : State} (h : SameMap s t) (sp : Space) (a : Word) :
    t.internalIo sp a = s.internalIo sp a := by
  obtain ⟨h1, h2⟩ := h
  cases sp <;> simp [State.internalIo, State.inIo, State.inTop, State.topOf, State.mapAddr, h1]

theorem SameMap.writeData (sp : Space) (a w : Word) : SameMap s (s.writeData sp a w) := by
  constructor <;> simp [State.sc, State.srBit]

theorem State.dataMem_writeCoreReg (k : Nat) (v : Word) (sp : Space) : (s.writeCoreReg k v).dataMem sp = s.dataMem sp := by
  cases sp <;> simp [State.dataMem]

/-- A data write changes at most the word it is for. -/
theorem State.read_writeData (sp sq : Space) (a w : Word) (k : Nat) (h : sq = sp → s.dataKey sp a ≠ k) :
    ((s.writeData sp a w).dataMem sq).read k = (s.dataMem sq).read k := by
  unfold State.writeData
  (repeat' split) <;> simp only [State.dataMem_writeCoreReg, State.dataMem_withDataMem]
  split
  · next e => subst e; rw [Mem.read_write, if_neg (fun e => h rfl e.symm)]
  · rfl

theorem State.writeData_devices (sp : Space) (a w : Word) (h : s.internalIo sp a = false) :
    (s.writeData sp a w).port = s.port ∧ (s.writeData sp a w).dma = s.dma ∧ (s.writeData sp a w).irq = s.irq ∧
    (s.writeData sp a w).once = s.once := by
  unfold State.writeData
  simp only [h, Bool.false_eq_true, if_false]
  (repeat' split) <;> first | exact ⟨rfl, rfl, rfl, rfl⟩ | (cases sp <;> exact ⟨rfl, rfl, rfl, rfl⟩)

theorem State.read_applyMems (u : List (Space × Word × Word)) (sq : Space) (k : Nat)
    (h : ∀ p ∈ u, p.1 = sq → s.dataKey sq p.2.1 ≠ k) : ((s.applyMems u).dataMem sq).read k = (s.dataMem sq).read k := by
  unfold State.applyMems
  induction u generalizing s with
  | nil => rfl
  | cons p u ih =>
    rw [List.foldl_cons, ih, s.read_writeData]
    · rintro rfl; exact h p List.mem_cons_self rfl
    · intro q hq e
      rw [(SameMap.writeData s _ _ _).dataKey]
      exact h q (List.mem_cons_of_mem _ hq) e

theorem State.applyMems_devices (u : List (Space × Word × Word)) (h : ∀ p ∈ u, s.internalIo p.1 p.2.1 = false) :
    (s.applyMems u).port = s.port ∧ (s.applyMems u).dma = s.dma ∧ (s.applyMems u).irq = s.irq ∧
    (s.applyMems u).once = s.once := by
  unfold State.applyMems
  induction u generalizing s with
  | nil => exact ⟨rfl, rfl, rfl, rfl⟩
  | cons p u ih =>
    rw [List.foldl_cons]
    obtain ⟨a, b, c, d⟩ := s.writeData_devices p.1 p.2.1 p.2.2 (h p List.mem_cons_self)
    obtain ⟨a', b', c', d'⟩ := ih (s.writeData p.1 p.2.1 p.2.2) fun q hq => by
      rw [(SameMap.writeData s _ _ _).internalIo]; exact h q (List.mem_cons_of_mem _ hq)
    exact ⟨a'.trans a, b'.trans b, c'.trans c, d'.trans d⟩

/-! ## The end of a Data ALU operation -/

theorem State.content_commitAcc (o : AluOut) (r : Reg) (h : o.mask = 0 ∨ clash (accAsReg o.dst) r = false) :
    (s.commitAcc o).content r = s.content r := by
  rcases h with h | h
  · have : s.commitAcc o = s := by
      unfold State.commitAcc
      rw [h]
      have e : (s.acc o.dst &&& ~~~(0 : AccWord)) ||| (o.val &&& 0) = s.acc o.dst := by
        rw [show ~~~(0 : AccWord) = BitVec.allOnes 56 by decide, BitVec.and_allOnes]; simp
      rw [e]
      cases o.dst <;> rfl
    rw [this]
  · exact s.content_withAcc _ _ r h

/-- An accumulator that both halves of a move load is one of the registers it writes (U5). -/
theorem State.plan_twice_reg (m : PMove) (d : Acc) (h : (s.plan m).twice = some d) :
    ∃ p ∈ (s.plan m).regs, p.1 = .alu (accReg d) := by
  cases m with
  | xy yw ym xs ys xw yn xm xn =>
    cases yw <;> cases xw <;> cases xs <;> cases ys <;>
      simp [State.plan, State.planXY, State.planMem, bothLoad] at h ⊢ <;> subst h <;> simp [xSideReg, ySideReg, accReg]
  | xEa d w e => cases w <;> simp [State.plan, State.planMem] at h
  | xAa d w e => cases w <;> simp [State.plan, State.planMem] at h
  | yEa d w e => cases w <;> simp [State.plan, State.planMem] at h
  | yAa d w e => cases w <;> simp [State.plan, State.planMem] at h
  | xr1 _ _ _ w e => cases w <;> simp [State.plan, State.planMem, State.planClass1] at h
  | ry1 _ _ _ w e => cases w <;> simp [State.plan, State.planMem, State.planClass1] at h
  | lEa l w e => cases w <;> simp [State.plan, State.planLong] at h
  | lAa l w e => cases w <;> simp [State.plan, State.planLong] at h
  | _ => simp [State.plan, Plan.nothing, State.planClass2] at h

theorem State.content_freeTwice (e : Option Acc) (r : Reg) (h : ∀ d, e = some d → clash (accAsReg d) r = false) :
    (s.freeTwice e).content r = s.content r := by
  match e with
  | none => rfl
  | some .a => exact s.content_withAcc .a _ r (h .a rfl)
  | some .b => exact s.content_withAcc .b _ r (h .b rfl)

theorem withCcr_high (c : Byte) : (s.withCcr c).pcu.sr &&& ~~~0x0000FF#24 = s.pcu.sr &&& ~~~0x0000FF#24 := by
  rw [State.withCcr_sr]
  apply BitVec.eq_of_getLsbD_eq
  intro i hi
  simp only [BitVec.getLsbD_and, BitVec.getLsbD_or, BitVec.getLsbD_setWidth]
  interval_cases i <;> simp

/-- What the end of a Data ALU operation with a move leaves alone. -/
theorem State.commit_frame (o : AluOut) (m : PMove) (n : Nat) (l : List Reg) (hl : o.mask = 0 ∨ accAsReg o.dst ∈ l) :
    Frame s ((s.commit o (s.plan m)).advance n) (l ++ movedRegs (s.plan m)) 0x0000FF#24 (moveStores (s.plan m)) where
  regs := by
    intro r hr
    have hl' : o.mask = 0 ∨ clash (accAsReg o.dst) r = false := hl.imp id fun h => hr _ (List.mem_append_left _ h)
    have hu : ∀ p ∈ (s.plan m).upds, clash (.d (.r p.1)) r = false := fun p hp =>
      hr _ (List.mem_append_right _ (List.mem_append_left _ (List.mem_map_of_mem hp)))
    have hg : ∀ p ∈ (s.plan m).regs, clash (.d p.1) r = false := fun p hp =>
      hr _ (List.mem_append_right _ (List.mem_append_right _ (List.mem_map_of_mem (f := fun u => Reg.d u.1) hp)))
    have ht : ∀ d, twiceWritten o (s.plan m) = some d → clash (accAsReg d) r = false := by
      intro d hd
      unfold twiceWritten at hd
      split at hd
      · next hc =>
        injection hd with hd
        subst hd
        rcases hl' with h | h
        · simp [h] at hc
        · exact h
      · obtain ⟨p, hp, he⟩ := s.plan_twice_reg m d hd
        have := hg p hp
        rw [he] at this
        exact this
    rw [State.content_advance]
    unfold State.commit
    dsimp only
    rw [State.content_applyMems, State.content_withCcr, State.content_freeTwice _ _ r ht,
      State.content_applyRegs _ _ r hg, State.content_commitAcc _ _ r hl', State.content_applyUpds _ _ r hu]
  sr := by
    rw [show ((s.commit o (s.plan m)).advance n).pcu.sr = (s.commit o (s.plan m)).pcu.sr by simp]
    unfold State.commit
    dsimp only
    rw [show ∀ (t : State) u, (t.applyMems u).pcu.sr = t.pcu.sr by simp, withCcr_high]
    simp
  stack := by constructor <;> simp
  data := by
    intro sq k h
    have e : ∀ t : State, ((t.advance n).dataMem sq) = t.dataMem sq := by intro t; cases sq <;> simp [State.dataMem]
    rw [e]
    unfold State.commit
    dsimp only
    rw [State.read_applyMems]
    · cases sq <;> simp [State.dataMem]
    · intro p hp hs
      rw [SameMap.dataKey (s := s) (by constructor <;> simp [State.sc] <;> simp [State.srBit])]
      subst hs
      exact h (p.1, p.2.1) (List.mem_map_of_mem (f := fun m => (m.1, m.2.1)) hp) rfl
  program := ⟨by simp, by simp, by simp⟩
  devices := by
    intro h
    have e : ∀ t : State, (t.advance n).port = t.port ∧ (t.advance n).dma = t.dma ∧ (t.advance n).irq = t.irq ∧
        (t.advance n).once = t.once := by simp
    obtain ⟨e1, e2, e3, e4⟩ := e (s.commit o (s.plan m))
    rw [e1, e2, e3, e4]
    unfold State.commit
    dsimp only
    obtain ⟨a, b, c, d⟩ := State.applyMems_devices ((((s.applyUpds (s.plan m).upds).commitAcc o).applyRegs
      (s.plan m).regs).freeTwice (twiceWritten o (s.plan m)) |>.withCcr
        (orSL (s.plan m).sTerm (s.plan m).lTerm (o.ccr.apply s.ccr))) (s.plan m).mems (by
      intro p hp
      rw [SameMap.internalIo (s := s) (by constructor <;> simp [State.sc] <;> simp [State.srBit])]
      exact h (p.1, p.2.1) (List.mem_map_of_mem (f := fun m => (m.1, m.2.1)) hp))
    rw [a, b, c, d]
    simp
  control := ⟨by simp, by simp, by simp, by simp⟩
  outside := ⟨by simp, by simp⟩

/-! ## Frames of the shared meanings -/

/-- The frame of an operation with its parallel move. -/
theorem frame_outOf (s : State) (i : Instr) (o : AluOut) (l : List Reg) (ho : outOf s i = some o)
    (hl : o.mask = 0 ∨ accAsReg o.dst ∈ l) :
    ∃ t, exec i s = .next t ∧ t.pcu.pc = s.nextPc i.len ∧
      Frame s t (l ++ movedRegs (s.plan (parallelPart i))) 0x0000FF#24 (moveStores (s.plan (parallelPart i))) :=
  ⟨_, exec_outOf s i o ho, by simp [State.advance, State.nextPc, State.frozen], s.commit_frame o _ _ l hl⟩

/-- An operation writes at most the accumulator that `dests` names. -/
theorem dst_outOf (s : State) (i : Instr) (l : List Reg) (o : AluOut) (h : dests i = some l)
    (ho : outOf s i = some o) : o.mask = 0 ∨ accAsReg o.dst ∈ l := by
  cases i <;> simp only [outOf, dests, Option.some.injEq, reduceCtorEq] at h ho <;> subst h <;> subst ho
  all_goals first
    | exact .inl rfl
    | exact .inr (List.mem_singleton_self _)
    | skip
  all_goals (right; simp only [List.mem_singleton])
  case max => simp only [opMax, State.outMax]; split <;> rfl
  case maxm => simp only [opMaxm, State.outMax]; split <;> rfl
  all_goals (try simp only [opAslN, opAsrN, opNormf, opLsl, opLsr, opLslN, opLsrN, opExtract, opExtractu, opInsert, opMerge, opMpy]; (repeat' split) <;> rfl)

/-- A frame of a step that touches neither memory nor the devices. -/
theorem frame_of_registers {s t : State} {l : List Reg} {M : Word} (hr : ∀ r, (∀ q ∈ l, clash q r = false) → t.content r = s.content r)
    (hsr : t.pcu.sr &&& ~~~M = s.pcu.sr &&& ~~~M) (h1 : t.pcu.ssh = s.pcu.ssh) (h2 : t.pcu.ssl = s.pcu.ssl)
    (hm : t.mem = s.mem) (hc : t.cache = s.cache) (hp : t.port = s.port) (hd : t.dma = s.dma)
    (hi : t.irq = s.irq) (ho : t.once = s.once)
    (c1 : t.ctl.phase = s.ctl.phase)
    (c2 : t.ctl.ctx = s.ctl.ctx) (c3 : t.ctl.rep = s.ctl.rep) (c4 : t.ctl.freeCtr = s.ctl.freeCtr)
    (hj : t.jtag = s.jtag) (he : t.env = s.env) : Frame s t l M [] where
  regs := hr
  sr := hsr
  stack := ⟨h1, h2⟩
  data := by intro sp k _; cases sp <;> simp [State.dataMem, hm]
  program := ⟨by rw [hm], by rw [hm], hc⟩
  devices := fun _ => ⟨hp, hd, hi, ho⟩
  control := ⟨c1, c2, c3, c4⟩
  outside := ⟨hj, he⟩

theorem frame_wrD (s : State) (d : DReg) (w : Word) (n : Nat) : Frame s ((s.wrD d w).advance n) [.d d] 0xFF#24 [] := by
  apply frame_of_registers <;> simp
  intro r h
  rw [State.content_advance]; exact s.content_wrD d w r h

theorem frame_tcc (s : State) (c : Cond) (o : State → AluOut) (r : Option (Fin 8 × Fin 8)) (l : List Reg)
    (h1 : (o s).mask = 0 ∨ accAsReg (o s).dst ∈ l) (h2 : ∀ p, r = some p → Reg.d (.r p.2) ∈ l) :
    ∃ t, runTcc c o r s = .next t ∧ t.pcu.pc = s.nextPc 1 ∧ Frame s t l 0xFF#24 [] := by
  refine ⟨_, rfl, ?_, ?_⟩
  · split <;> [(cases r <;> simp [State.advance, State.nextPc, State.frozen]); simp [State.advance]]
  · apply frame_of_registers
    · intro q hq
      rw [State.content_advance]
      split
      · cases r with
        | none => exact s.content_commitAcc _ q (h1.imp id (fun h => hq _ h))
        | some p =>
          obtain ⟨a, b⟩ := p
          dsimp only
          rw [State.content_setR _ _ _ _ (hq _ (h2 _ rfl))]
          exact s.content_commitAcc _ q (h1.imp id (fun h => hq _ h))
      · rfl
    all_goals (split <;> [(cases r <;> simp); simp])

/-! ## Sums and comparisons -/

theorem unsignedOf_eq (sa : Bool) (x : Int) : unsignedOf sa x = patOf sa x := by
  unfold unsignedOf patOf accWidth
  cases sa <;> simp <;> omega
theorem carry_add (sa : Bool) (d : Acc) (a b : Int) (c : Bool) : (⟨d,a,b,false,c⟩ : Terms).carry sa = carryOf sa a b (if c then 1 else 0) := by
  unfold Terms.carry carryOf
  simp only [unsignedOf_eq]
  cases sa <;> cases c <;> simp [accWidth] <;> omega
theorem carry_sub (sa : Bool) (d : Acc) (a b : Int) (c : Bool) : (⟨d,a,b,true,c⟩ : Terms).carry sa = borrowOf sa a b (if c then 1 else 0) := by
  unfold Terms.carry borrowOf
  simp only [unsignedOf_eq]
  cases c <;> simp
/-- The outcome of the unit that forms a sum or difference. -/
def Terms.op (T : Terms) (s : State) : AluOut :=
  if T.minus then s.outSub T.d T.a T.b (if T.cin then 1 else 0) else s.outAdd T.d T.a T.b (if T.cin then 1 else 0)
theorem Terms.op_eq (T : Terms) (s : State) : T.op s = s.outStd T.d (stored s true T.exact) (T.carry s.sa) := by
  obtain ⟨d, a, b, m, c⟩ := T
  cases m
  · rw [carry_add]; simp only [Terms.op, Terms.exact, State.outAdd, stored_eq_finish]; cases c <;> rfl
  · rw [carry_sub]; simp only [Terms.op, Terms.exact, State.outSub, stored_eq_finish]; cases c <;> rfl

theorem commit_outCmp (s : State) (i : Instr) (r : AccWord) (v c : Bool) (n : Nat) :
    let t := (s.commit ⟨.a, 0, 0, s.ccrStd r v c⟩ (s.plan (parallelPart i))).advance n
    t.srBit 1 = v ∧ t.srBit 0 = c ∧ FlagsOf s t r ∧ Stickies s t i v ∧
      (Spares s i .a → t.acc .a = s.acc .a) ∧ (Spares s i .b → t.acc .b = s.acc .b) := by
  intro t
  obtain ⟨f0, f1, f2, f3, f4, f5, f6⟩ := commit_flags s i ⟨.a, 0, 0, s.ccrStd r v c⟩ n 0 c v (r == 0) r.msb (s.flagU r)
    (s.flagE r) rfl (by show ∀ k < 6, (0x3F#8).getLsbD k = _; decide) (by omega)
    (by show (0x3F#8).getLsbD 6 = _; decide) (by show (0x3F#8).getLsbD 7 = _; decide)
  refine ⟨f1, f0, ⟨extUnn_of_flags s t r f5 f4, f3, f2⟩, f6, ?_, ?_⟩
  · intro hs; show ((s.commit _ _).advance n).acc .a = _
    rw [State.acc_advance, s.acc_commit _ _ _ hs]; simp only [if_true]
    rw [show ~~~(0 : AccWord) = BitVec.allOnes 56 by decide, BitVec.and_allOnes]; simp
  · intro hs; show ((s.commit _ _).advance n).acc .b = _
    rw [State.acc_advance, s.acc_commit _ _ _ hs]; simp

end Sys2Proof.Machine
end

