-- ==== Sys2Proof/Laws/PerInstr.lean ====
section
/-!
SUPPORT. The statement that is made of each instruction by itself: it is encoded in one or two words.
-/
namespace Sys2Proof

theorem Ea.extWords_length (e : Ea) : e.extWords.length ≤ 1 := by cases e <;> simp [Ea.extWords]

theorem PMove.extWords_length (m : PMove) : m.extWords.length ≤ 1 := by
  cases m <;> simp [PMove.extWords, Ea.extWords_length]

namespace Laws.Encodable

/-- An instruction is as many words as its length says, one or two, the operation word first (30_encoding R150, R154). -/
def Statement (i : Instr) : Prop := (encode i).length = i.len ∧ i.len ≤ 2 ∧ (encode i).head? = some i.opWord

theorem of_length {i : Instr} (h : i.extWords.length ≤ 1) : Statement i := by
  refine ⟨?_, ?_, rfl⟩
  · simp only [encode, Instr.len, List.length_cons]; omega
  · simp only [Instr.len]; omega

theorem moveParallel (o0 : PMove) : Statement (.moveParallel o0) := of_length (PMove.extWords_length o0)
theorem tfrAcc (o0 : Acc) (o1 : PMove) : Statement (.tfrAcc o0 o1) := of_length (PMove.extWords_length o1)
theorem tfrReg (o0 : XYReg) (o1 : Acc) (o2 : PMove) : Statement (.tfrReg o0 o1 o2) :=
  of_length (PMove.extWords_length o2)
theorem addr (o0 : Acc) (o1 : PMove) : Statement (.addr o0 o1) := of_length (PMove.extWords_length o1)
theorem tst (o0 : Acc) (o1 : PMove) : Statement (.tst o0 o1) := of_length (PMove.extWords_length o1)
theorem cmpAcc (o0 : Acc) (o1 : PMove) : Statement (.cmpAcc o0 o1) := of_length (PMove.extWords_length o1)
theorem cmpReg (o0 : XYReg) (o1 : Acc) (o2 : PMove) : Statement (.cmpReg o0 o1 o2) :=
  of_length (PMove.extWords_length o2)
theorem subr (o0 : Acc) (o1 : PMove) : Statement (.subr o0 o1) := of_length (PMove.extWords_length o1)
theorem cmpmAcc (o0 : Acc) (o1 : PMove) : Statement (.cmpmAcc o0 o1) := of_length (PMove.extWords_length o1)
theorem cmpmReg (o0 : XYReg) (o1 : Acc) (o2 : PMove) : Statement (.cmpmReg o0 o1 o2) :=
  of_length (PMove.extWords_length o2)
theorem addAcc (o0 : Acc) (o1 : PMove) : Statement (.addAcc o0 o1) := of_length (PMove.extWords_length o1)
theorem addXY (o0 : XYLong) (o1 : Acc) (o2 : PMove) : Statement (.addXY o0 o1 o2) :=
  of_length (PMove.extWords_length o2)
theorem addReg (o0 : XYReg) (o1 : Acc) (o2 : PMove) : Statement (.addReg o0 o1 o2) :=
  of_length (PMove.extWords_length o2)
theorem rnd (o0 : Acc) (o1 : PMove) : Statement (.rnd o0 o1) := of_length (PMove.extWords_length o1)
theorem addl (o0 : Acc) (o1 : PMove) : Statement (.addl o0 o1) := of_length (PMove.extWords_length o1)
theorem clr (o0 : Acc) (o1 : PMove) : Statement (.clr o0 o1) := of_length (PMove.extWords_length o1)
theorem subAcc (o0 : Acc) (o1 : PMove) : Statement (.subAcc o0 o1) := of_length (PMove.extWords_length o1)
theorem subXY (o0 : XYLong) (o1 : Acc) (o2 : PMove) : Statement (.subXY o0 o1 o2) :=
  of_length (PMove.extWords_length o2)
theorem subReg (o0 : XYReg) (o1 : Acc) (o2 : PMove) : Statement (.subReg o0 o1 o2) :=
  of_length (PMove.extWords_length o2)
theorem maxm (o0 : PMove) : Statement (.maxm o0) := of_length (PMove.extWords_length o0)
theorem max (o0 : PMove) : Statement (.max o0) := of_length (PMove.extWords_length o0)
theorem subl (o0 : Acc) (o1 : PMove) : Statement (.subl o0 o1) := of_length (PMove.extWords_length o1)
theorem not (o0 : Acc) (o1 : PMove) : Statement (.not o0 o1) := of_length (PMove.extWords_length o1)
theorem adc (o0 : XYLong) (o1 : Acc) (o2 : PMove) : Statement (.adc o0 o1 o2) := of_length (PMove.extWords_length o2)
theorem asr (o0 : Acc) (o1 : PMove) : Statement (.asr o0 o1) := of_length (PMove.extWords_length o1)
theorem lsr (o0 : Acc) (o1 : PMove) : Statement (.lsr o0 o1) := of_length (PMove.extWords_length o1)
theorem sbc (o0 : XYLong) (o1 : Acc) (o2 : PMove) : Statement (.sbc o0 o1 o2) := of_length (PMove.extWords_length o2)
theorem abs (o0 : Acc) (o1 : PMove) : Statement (.abs o0 o1) := of_length (PMove.extWords_length o1)
theorem ror (o0 : Acc) (o1 : PMove) : Statement (.ror o0 o1) := of_length (PMove.extWords_length o1)
theorem asl (o0 : Acc) (o1 : PMove) : Statement (.asl o0 o1) := of_length (PMove.extWords_length o1)
theorem lsl (o0 : Acc) (o1 : PMove) : Statement (.lsl o0 o1) := of_length (PMove.extWords_length o1)
theorem neg (o0 : Acc) (o1 : PMove) : Statement (.neg o0 o1) := of_length (PMove.extWords_length o1)
theorem rol (o0 : Acc) (o1 : PMove) : Statement (.rol o0 o1) := of_length (PMove.extWords_length o1)
theorem or (o0 : XYReg) (o1 : Acc) (o2 : PMove) : Statement (.or o0 o1 o2) := of_length (PMove.extWords_length o2)
theorem eor (o0 : XYReg) (o1 : Acc) (o2 : PMove) : Statement (.eor o0 o1 o2) := of_length (PMove.extWords_length o2)
theorem and (o0 : XYReg) (o1 : Acc) (o2 : PMove) : Statement (.and o0 o1 o2) := of_length (PMove.extWords_length o2)
theorem mpy (o0 : MulPair) (o1 : Acc) (o2 : Bool) (o3 : PMove) : Statement (.mpy o0 o1 o2 o3) :=
  of_length (PMove.extWords_length o3)
theorem mpyr (o0 : MulPair) (o1 : Acc) (o2 : Bool) (o3 : PMove) : Statement (.mpyr o0 o1 o2 o3) :=
  of_length (PMove.extWords_length o3)
theorem mac (o0 : MulPair) (o1 : Acc) (o2 : Bool) (o3 : PMove) : Statement (.mac o0 o1 o2 o3) :=
  of_length (PMove.extWords_length o3)
theorem macr (o0 : MulPair) (o1 : Acc) (o2 : Bool) (o3 : PMove) : Statement (.macr o0 o1 o2 o3) :=
  of_length (PMove.extWords_length o3)
theorem reservedA (o0 : Acc) (o1 : PMove) : Statement (.reservedA o0 o1) := of_length (Nat.zero_le 1)
theorem reservedB (o0 : PMove) : Statement (.reservedB o0) := of_length (Nat.zero_le 1)
theorem moveImm (o0 : BitVec 8) (o1 : DReg) : Statement (.moveImm o0 o1) := of_length (Nat.zero_le 1)
theorem moveReg (o0 : DReg) (o1 : DReg) : Statement (.moveReg o0 o1) := of_length (Nat.zero_le 1)
theorem moveUpd (o0 : UpdMode) (o1 : Fin 8) : Statement (.moveUpd o0 o1) := of_length (Nat.zero_le 1)
theorem ifcc (o0 : Cond) (o1 : AluOp) : Statement (.ifcc o0 o1) := of_length (Nat.zero_le 1)
theorem ifccU (o0 : Cond) (o1 : AluOp) : Statement (.ifccU o0 o1) := of_length (Nat.zero_le 1)
theorem moveXEa (o0 : DReg) (o1 : Dir) (o2 : Ea) : Statement (.moveXEa o0 o1 o2) := of_length (Ea.extWords_length o2)
theorem moveXAa (o0 : DReg) (o1 : Dir) (o2 : BitVec 6) : Statement (.moveXAa o0 o1 o2) := of_length (Nat.zero_le 1)
theorem moveYEa (o0 : DReg) (o1 : Dir) (o2 : Ea) : Statement (.moveYEa o0 o1 o2) := of_length (Ea.extWords_length o2)
theorem moveYAa (o0 : DReg) (o1 : Dir) (o2 : BitVec 6) : Statement (.moveYAa o0 o1 o2) := of_length (Nat.zero_le 1)
theorem moveXR1 (o0 : XSide) (o1 : Acc) (o2 : Y01) (o3 : Dir) (o4 : Ea) : Statement (.moveXR1 o0 o1 o2 o3 o4) :=
  of_length (Ea.extWords_length o4)
theorem moveXR2 (o0 : Acc) (o1 : Ea) : Statement (.moveXR2 o0 o1) := of_length (Ea.extWords_length o1)
theorem moveRY1 (o0 : Acc) (o1 : X01) (o2 : YSide) (o3 : Dir) (o4 : Ea) : Statement (.moveRY1 o0 o1 o2 o3 o4) :=
  of_length (Ea.extWords_length o4)
theorem moveRY2 (o0 : Acc) (o1 : Ea) : Statement (.moveRY2 o0 o1) := of_length (Ea.extWords_length o1)
theorem moveLEa (o0 : LongReg) (o1 : Dir) (o2 : Ea) : Statement (.moveLEa o0 o1 o2) :=
  of_length (Ea.extWords_length o2)
theorem moveLAa (o0 : LongReg) (o1 : Dir) (o2 : BitVec 6) : Statement (.moveLAa o0 o1 o2) := of_length (Nat.zero_le 1)
theorem moveXY (o0 : Dir) (o1 : XYMode) (o2 : XSide) (o3 : YSide) (o4 : Dir) (o5 : Fin 4) (o6 : XYMode) (o7 : Fin 8) :
    Statement (.moveXY o0 o1 o2 o3 o4 o5 o6 o7) :=
  of_length (Nat.zero_le 1)
theorem addShort (o0 : BitVec 6) (o1 : Acc) : Statement (.addShort o0 o1) := of_length (Nat.zero_le 1)
theorem addImm (o0 : Acc) (o1 : Word) : Statement (.addImm o0 o1) := of_length (Nat.le_refl 1)
theorem andShort (o0 : BitVec 6) (o1 : Acc) : Statement (.andShort o0 o1) := of_length (Nat.zero_le 1)
theorem andImm (o0 : Acc) (o1 : Word) : Statement (.andImm o0 o1) := of_length (Nat.le_refl 1)
theorem andi (o0 : BitVec 8) (o1 : PcuByte) : Statement (.andi o0 o1) := of_length (Nat.zero_le 1)
theorem aslNum (o0 : BitVec 6) (o1 : Acc) (o2 : Acc) : Statement (.aslNum o0 o1 o2) := of_length (Nat.zero_le 1)
theorem aslBy (o0 : ShiftSrc) (o1 : Acc) (o2 : Acc) : Statement (.aslBy o0 o1 o2) := of_length (Nat.zero_le 1)
theorem asrNum (o0 : BitVec 6) (o1 : Acc) (o2 : Acc) : Statement (.asrNum o0 o1 o2) := of_length (Nat.zero_le 1)
theorem asrBy (o0 : ShiftSrc) (o1 : Acc) (o2 : Acc) : Statement (.asrBy o0 o1 o2) := of_length (Nat.zero_le 1)
theorem bccLong (o0 : Cond) (o1 : Word) : Statement (.bccLong o0 o1) := of_length (Nat.le_refl 1)
theorem bccShort (o0 : Cond) (o1 : BitVec 9) : Statement (.bccShort o0 o1) := of_length (Nat.zero_le 1)
theorem bccReg (o0 : Cond) (o1 : Fin 8) : Statement (.bccReg o0 o1) := of_length (Nat.zero_le 1)
theorem bchgEa (o0 : BitVec 5) (o1 : Space) (o2 : Ea) : Statement (.bchgEa o0 o1 o2) :=
  of_length (Ea.extWords_length o2)
theorem bchgAa (o0 : BitVec 5) (o1 : Space) (o2 : BitVec 6) : Statement (.bchgAa o0 o1 o2) :=
  of_length (Nat.zero_le 1)
theorem bchgPp (o0 : BitVec 5) (o1 : Space) (o2 : BitVec 6) : Statement (.bchgPp o0 o1 o2) :=
  of_length (Nat.zero_le 1)
theorem bchgQq (o0 : BitVec 5) (o1 : Space) (o2 : BitVec 6) : Statement (.bchgQq o0 o1 o2) :=
  of_length (Nat.zero_le 1)
theorem bchgReg (o0 : BitVec 5) (o1 : Reg) : Statement (.bchgReg o0 o1) := of_length (Nat.zero_le 1)
theorem bclrEa (o0 : BitVec 5) (o1 : Space) (o2 : Ea) : Statement (.bclrEa o0 o1 o2) :=
  of_length (Ea.extWords_length o2)
theorem bclrAa (o0 : BitVec 5) (o1 : Space) (o2 : BitVec 6) : Statement (.bclrAa o0 o1 o2) :=
  of_length (Nat.zero_le 1)
theorem bclrPp (o0 : BitVec 5) (o1 : Space) (o2 : BitVec 6) : Statement (.bclrPp o0 o1 o2) :=
  of_length (Nat.zero_le 1)
theorem bclrQq (o0 : BitVec 5) (o1 : Space) (o2 : BitVec 6) : Statement (.bclrQq o0 o1 o2) :=
  of_length (Nat.zero_le 1)
theorem bclrReg (o0 : BitVec 5) (o1 : Reg) : Statement (.bclrReg o0 o1) := of_length (Nat.zero_le 1)
theorem bsetEa (o0 : BitVec 5) (o1 : Space) (o2 : Ea) : Statement (.bsetEa o0 o1 o2) :=
  of_length (Ea.extWords_length o2)
theorem bsetAa (o0 : BitVec 5) (o1 : Space) (o2 : BitVec 6) : Statement (.bsetAa o0 o1 o2) :=
  of_length (Nat.zero_le 1)
theorem bsetPp (o0 : BitVec 5) (o1 : Space) (o2 : BitVec 6) : Statement (.bsetPp o0 o1 o2) :=
  of_length (Nat.zero_le 1)
theorem bsetQq (o0 : BitVec 5) (o1 : Space) (o2 : BitVec 6) : Statement (.bsetQq o0 o1 o2) :=
  of_length (Nat.zero_le 1)
theorem bsetReg (o0 : BitVec 5) (o1 : Reg) : Statement (.bsetReg o0 o1) := of_length (Nat.zero_le 1)
theorem btstEa (o0 : BitVec 5) (o1 : Space) (o2 : Ea) : Statement (.btstEa o0 o1 o2) :=
  of_length (Ea.extWords_length o2)
theorem btstAa (o0 : BitVec 5) (o1 : Space) (o2 : BitVec 6) : Statement (.btstAa o0 o1 o2) :=
  of_length (Nat.zero_le 1)
theorem btstPp (o0 : BitVec 5) (o1 : Space) (o2 : BitVec 6) : Statement (.btstPp o0 o1 o2) :=
  of_length (Nat.zero_le 1)
theorem btstQq (o0 : BitVec 5) (o1 : Space) (o2 : BitVec 6) : Statement (.btstQq o0 o1 o2) :=
  of_length (Nat.zero_le 1)
theorem btstReg (o0 : BitVec 5) (o1 : Reg) : Statement (.btstReg o0 o1) := of_length (Nat.zero_le 1)
theorem braLong (o0 : Word) : Statement (.braLong o0) := of_length (Nat.le_refl 1)
theorem braShort (o0 : BitVec 9) : Statement (.braShort o0) := of_length (Nat.zero_le 1)
theorem braReg (o0 : Fin 8) : Statement (.braReg o0) := of_length (Nat.zero_le 1)
theorem brclrEa (o0 : BitVec 5) (o1 : Space) (o2 : Ea) (o3 : Word) : Statement (.brclrEa o0 o1 o2 o3) :=
  of_length (Nat.le_refl 1)
theorem brclrAa (o0 : BitVec 5) (o1 : Space) (o2 : BitVec 6) (o3 : Word) : Statement (.brclrAa o0 o1 o2 o3) :=
  of_length (Nat.le_refl 1)
theorem brclrPp (o0 : BitVec 5) (o1 : Space) (o2 : BitVec 6) (o3 : Word) : Statement (.brclrPp o0 o1 o2 o3) :=
  of_length (Nat.le_refl 1)
theorem brclrQq (o0 : BitVec 5) (o1 : Space) (o2 : BitVec 6) (o3 : Word) : Statement (.brclrQq o0 o1 o2 o3) :=
  of_length (Nat.le_refl 1)
theorem brclrReg (o0 : BitVec 5) (o1 : Reg) (o2 : Word) : Statement (.brclrReg o0 o1 o2) := of_length (Nat.le_refl 1)
theorem brsetEa (o0 : BitVec 5) (o1 : Space) (o2 : Ea) (o3 : Word) : Statement (.brsetEa o0 o1 o2 o3) :=
  of_length (Nat.le_refl 1)
theorem brsetAa (o0 : BitVec 5) (o1 : Space) (o2 : BitVec 6) (o3 : Word) : Statement (.brsetAa o0 o1 o2 o3) :=
  of_length (Nat.le_refl 1)
theorem brsetPp (o0 : BitVec 5) (o1 : Space) (o2 : BitVec 6) (o3 : Word) : Statement (.brsetPp o0 o1 o2 o3) :=
  of_length (Nat.le_refl 1)
theorem brsetQq (o0 : BitVec 5) (o1 : Space) (o2 : BitVec 6) (o3 : Word) : Statement (.brsetQq o0 o1 o2 o3) :=
  of_length (Nat.le_refl 1)
theorem brsetReg (o0 : BitVec 5) (o1 : Reg) (o2 : Word) : Statement (.brsetReg o0 o1 o2) := of_length (Nat.le_refl 1)
theorem bsclrEa (o0 : BitVec 5) (o1 : Space) (o2 : Ea) (o3 : Word) : Statement (.bsclrEa o0 o1 o2 o3) :=
  of_length (Nat.le_refl 1)
theorem bsclrAa (o0 : BitVec 5) (o1 : Space) (o2 : BitVec 6) (o3 : Word) : Statement (.bsclrAa o0 o1 o2 o3) :=
  of_length (Nat.le_refl 1)
theorem bsclrPp (o0 : BitVec 5) (o1 : Space) (o2 : BitVec 6) (o3 : Word) : Statement (.bsclrPp o0 o1 o2 o3) :=
  of_length (Nat.le_refl 1)
theorem bsclrQq (o0 : BitVec 5) (o1 : Space) (o2 : BitVec 6) (o3 : Word) : Statement (.bsclrQq o0 o1 o2 o3) :=
  of_length (Nat.le_refl 1)
theorem bsclrReg (o0 : BitVec 5) (o1 : Reg) (o2 : Word) : Statement (.bsclrReg o0 o1 o2) := of_length (Nat.le_refl 1)
theorem bssetEa (o0 : BitVec 5) (o1 : Space) (o2 : Ea) (o3 : Word) : Statement (.bssetEa o0 o1 o2 o3) :=
  of_length (Nat.le_refl 1)
theorem bssetAa (o0 : BitVec 5) (o1 : Space) (o2 : BitVec 6) (o3 : Word) : Statement (.bssetAa o0 o1 o2 o3) :=
  of_length (Nat.le_refl 1)
theorem bssetPp (o0 : BitVec 5) (o1 : Space) (o2 : BitVec 6) (o3 : Word) : Statement (.bssetPp o0 o1 o2 o3) :=
  of_length (Nat.le_refl 1)
theorem bssetQq (o0 : BitVec 5) (o1 : Space) (o2 : BitVec 6) (o3 : Word) : Statement (.bssetQq o0 o1 o2 o3) :=
  of_length (Nat.le_refl 1)
theorem bssetReg (o0 : BitVec 5) (o1 : Reg) (o2 : Word) : Statement (.bssetReg o0 o1 o2) := of_length (Nat.le_refl 1)
theorem brkcc (o0 : Cond) : Statement (.brkcc o0) := of_length (Nat.zero_le 1)
theorem bsccLong (o0 : Cond) (o1 : Word) : Statement (.bsccLong o0 o1) := of_length (Nat.le_refl 1)
theorem bsccShort (o0 : Cond) (o1 : BitVec 9) : Statement (.bsccShort o0 o1) := of_length (Nat.zero_le 1)
theorem bsccReg (o0 : Cond) (o1 : Fin 8) : Statement (.bsccReg o0 o1) := of_length (Nat.zero_le 1)
theorem bsrLong (o0 : Word) : Statement (.bsrLong o0) := of_length (Nat.le_refl 1)
theorem bsrShort (o0 : BitVec 9) : Statement (.bsrShort o0) := of_length (Nat.zero_le 1)
theorem bsrReg (o0 : Fin 8) : Statement (.bsrReg o0) := of_length (Nat.zero_le 1)
theorem clb (o0 : Acc) (o1 : Acc) : Statement (.clb o0 o1) := of_length (Nat.zero_le 1)
theorem cmpShort (o0 : BitVec 6) (o1 : Acc) : Statement (.cmpShort o0 o1) := of_length (Nat.zero_le 1)
theorem cmpImm (o0 : Acc) (o1 : Word) : Statement (.cmpImm o0 o1) := of_length (Nat.le_refl 1)
theorem cmpu (o0 : AccOrReg) (o1 : Acc) : Statement (.cmpu o0 o1) := of_length (Nat.zero_le 1)
theorem debugcc (o0 : Cond) : Statement (.debugcc o0) := of_length (Nat.zero_le 1)
theorem dec (o0 : Acc) : Statement (.dec o0) := of_length (Nat.zero_le 1)
theorem div (o0 : XYReg) (o1 : Acc) : Statement (.div o0 o1) := of_length (Nat.zero_le 1)
theorem dmac (o0 : Sign2) (o1 : MulOps) (o2 : Acc) (o3 : Bool) : Statement (.dmac o0 o1 o2 o3) :=
  of_length (Nat.zero_le 1)
theorem doEa (o0 : Space) (o1 : Ea) (o2 : Word) : Statement (.doEa o0 o1 o2) := of_length (Nat.le_refl 1)
theorem doAa (o0 : Space) (o1 : BitVec 6) (o2 : Word) : Statement (.doAa o0 o1 o2) := of_length (Nat.le_refl 1)
theorem doNum (o0 : BitVec 12) (o1 : Word) : Statement (.doNum o0 o1) := of_length (Nat.le_refl 1)
theorem doReg (o0 : Reg) (o1 : Word) : Statement (.doReg o0 o1) := of_length (Nat.le_refl 1)
theorem dorEa (o0 : Space) (o1 : Ea) (o2 : Word) : Statement (.dorEa o0 o1 o2) := of_length (Nat.le_refl 1)
theorem dorAa (o0 : Space) (o1 : BitVec 6) (o2 : Word) : Statement (.dorAa o0 o1 o2) := of_length (Nat.le_refl 1)
theorem dorNum (o0 : BitVec 12) (o1 : Word) : Statement (.dorNum o0 o1) := of_length (Nat.le_refl 1)
theorem dorReg (o0 : Reg) (o1 : Word) : Statement (.dorReg o0 o1) := of_length (Nat.le_refl 1)
theorem repEa (o0 : Space) (o1 : Ea) : Statement (.repEa o0 o1) := of_length (Ea.extWords_length o1)
theorem repAa (o0 : Space) (o1 : BitVec 6) : Statement (.repAa o0 o1) := of_length (Nat.zero_le 1)
theorem repNum (o0 : BitVec 12) : Statement (.repNum o0) := of_length (Nat.zero_le 1)
theorem repReg (o0 : Reg) : Statement (.repReg o0) := of_length (Nat.zero_le 1)
theorem doForever (o0 : Word) : Statement (.doForever o0) := of_length (Nat.le_refl 1)
theorem dorForever (o0 : Word) : Statement (.dorForever o0) := of_length (Nat.le_refl 1)
theorem eorShort (o0 : BitVec 6) (o1 : Acc) : Statement (.eorShort o0 o1) := of_length (Nat.zero_le 1)
theorem eorImm (o0 : Acc) (o1 : Word) : Statement (.eorImm o0 o1) := of_length (Nat.le_refl 1)
theorem extractBy (o0 : ShiftSrc) (o1 : Acc) (o2 : Acc) : Statement (.extractBy o0 o1 o2) := of_length (Nat.zero_le 1)
theorem extractNum (o0 : Acc) (o1 : Acc) (o2 : Word) : Statement (.extractNum o0 o1 o2) := of_length (Nat.le_refl 1)
theorem extractuBy (o0 : ShiftSrc) (o1 : Acc) (o2 : Acc) : Statement (.extractuBy o0 o1 o2) :=
  of_length (Nat.zero_le 1)
theorem extractuNum (o0 : Acc) (o1 : Acc) (o2 : Word) : Statement (.extractuNum o0 o1 o2) := of_length (Nat.le_refl 1)
theorem inc (o0 : Acc) : Statement (.inc o0) := of_length (Nat.zero_le 1)
theorem insertBy (o0 : ShiftSrc) (o1 : InsSrc) (o2 : Acc) : Statement (.insertBy o0 o1 o2) :=
  of_length (Nat.zero_le 1)
theorem insertNum (o0 : InsSrc) (o1 : Acc) (o2 : Word) : Statement (.insertNum o0 o1 o2) := of_length (Nat.le_refl 1)
theorem jccShort (o0 : Cond) (o1 : BitVec 12) : Statement (.jccShort o0 o1) := of_length (Nat.zero_le 1)
theorem jccEa (o0 : Cond) (o1 : Ea) : Statement (.jccEa o0 o1) := of_length (Ea.extWords_length o1)
theorem jclrEa (o0 : BitVec 5) (o1 : Space) (o2 : Ea) (o3 : Word) : Statement (.jclrEa o0 o1 o2 o3) :=
  of_length (Nat.le_refl 1)
theorem jclrAa (o0 : BitVec 5) (o1 : Space) (o2 : BitVec 6) (o3 : Word) : Statement (.jclrAa o0 o1 o2 o3) :=
  of_length (Nat.le_refl 1)
theorem jclrPp (o0 : BitVec 5) (o1 : Space) (o2 : BitVec 6) (o3 : Word) : Statement (.jclrPp o0 o1 o2 o3) :=
  of_length (Nat.le_refl 1)
theorem jclrQq (o0 : BitVec 5) (o1 : Space) (o2 : BitVec 6) (o3 : Word) : Statement (.jclrQq o0 o1 o2 o3) :=
  of_length (Nat.le_refl 1)
theorem jclrReg (o0 : BitVec 5) (o1 : Reg) (o2 : Word) : Statement (.jclrReg o0 o1 o2) := of_length (Nat.le_refl 1)
theorem jsetEa (o0 : BitVec 5) (o1 : Space) (o2 : Ea) (o3 : Word) : Statement (.jsetEa o0 o1 o2 o3) :=
  of_length (Nat.le_refl 1)
theorem jsetAa (o0 : BitVec 5) (o1 : Space) (o2 : BitVec 6) (o3 : Word) : Statement (.jsetAa o0 o1 o2 o3) :=
  of_length (Nat.le_refl 1)
theorem jsetPp (o0 : BitVec 5) (o1 : Space) (o2 : BitVec 6) (o3 : Word) : Statement (.jsetPp o0 o1 o2 o3) :=
  of_length (Nat.le_refl 1)
theorem jsetQq (o0 : BitVec 5) (o1 : Space) (o2 : BitVec 6) (o3 : Word) : Statement (.jsetQq o0 o1 o2 o3) :=
  of_length (Nat.le_refl 1)
theorem jsetReg (o0 : BitVec 5) (o1 : Reg) (o2 : Word) : Statement (.jsetReg o0 o1 o2) := of_length (Nat.le_refl 1)
theorem jsclrEa (o0 : BitVec 5) (o1 : Space) (o2 : Ea) (o3 : Word) : Statement (.jsclrEa o0 o1 o2 o3) :=
  of_length (Nat.le_refl 1)
theorem jsclrAa (o0 : BitVec 5) (o1 : Space) (o2 : BitVec 6) (o3 : Word) : Statement (.jsclrAa o0 o1 o2 o3) :=
  of_length (Nat.le_refl 1)
theorem jsclrPp (o0 : BitVec 5) (o1 : Space) (o2 : BitVec 6) (o3 : Word) : Statement (.jsclrPp o0 o1 o2 o3) :=
  of_length (Nat.le_refl 1)
theorem jsclrQq (o0 : BitVec 5) (o1 : Space) (o2 : BitVec 6) (o3 : Word) : Statement (.jsclrQq o0 o1 o2 o3) :=
  of_length (Nat.le_refl 1)
theorem jsclrReg (o0 : BitVec 5) (o1 : Reg) (o2 : Word) : Statement (.jsclrReg o0 o1 o2) := of_length (Nat.le_refl 1)
theorem jssetEa (o0 : BitVec 5) (o1 : Space) (o2 : Ea) (o3 : Word) : Statement (.jssetEa o0 o1 o2 o3) :=
  of_length (Nat.le_refl 1)
theorem jssetAa (o0 : BitVec 5) (o1 : Space) (o2 : BitVec 6) (o3 : Word) : Statement (.jssetAa o0 o1 o2 o3) :=
  of_length (Nat.le_refl 1)
theorem jssetPp (o0 : BitVec 5) (o1 : Space) (o2 : BitVec 6) (o3 : Word) : Statement (.jssetPp o0 o1 o2 o3) :=
  of_length (Nat.le_refl 1)
theorem jssetQq (o0 : BitVec 5) (o1 : Space) (o2 : BitVec 6) (o3 : Word) : Statement (.jssetQq o0 o1 o2 o3) :=
  of_length (Nat.le_refl 1)
theorem jssetReg (o0 : BitVec 5) (o1 : Reg) (o2 : Word) : Statement (.jssetReg o0 o1 o2) := of_length (Nat.le_refl 1)
theorem jmpShort (o0 : BitVec 12) : Statement (.jmpShort o0) := of_length (Nat.zero_le 1)
theorem jmpEa (o0 : Ea) : Statement (.jmpEa o0) := of_length (Ea.extWords_length o0)
theorem jsccShort (o0 : Cond) (o1 : BitVec 12) : Statement (.jsccShort o0 o1) := of_length (Nat.zero_le 1)
theorem jsccEa (o0 : Cond) (o1 : Ea) : Statement (.jsccEa o0 o1) := of_length (Ea.extWords_length o1)
theorem jsrShort (o0 : BitVec 12) : Statement (.jsrShort o0) := of_length (Nat.zero_le 1)
theorem jsrEa (o0 : Ea) : Statement (.jsrEa o0) := of_length (Ea.extWords_length o0)
theorem lraReg (o0 : Fin 8) (o1 : DReg) : Statement (.lraReg o0 o1) := of_length (Nat.zero_le 1)
theorem lraLong (o0 : DReg) (o1 : Word) : Statement (.lraLong o0 o1) := of_length (Nat.le_refl 1)
theorem lslNum (o0 : BitVec 5) (o1 : Acc) : Statement (.lslNum o0 o1) := of_length (Nat.zero_le 1)
theorem lslBy (o0 : ShiftSrc) (o1 : Acc) : Statement (.lslBy o0 o1) := of_length (Nat.zero_le 1)
theorem lsrNum (o0 : BitVec 5) (o1 : Acc) : Statement (.lsrNum o0 o1) := of_length (Nat.zero_le 1)
theorem lsrBy (o0 : ShiftSrc) (o1 : Acc) : Statement (.lsrBy o0 o1) := of_length (Nat.zero_le 1)
theorem luaEa (o0 : UpdMode) (o1 : Fin 8) (o2 : DReg) : Statement (.luaEa o0 o1 o2) := of_length (Nat.zero_le 1)
theorem luaDisp (o0 : BitVec 7) (o1 : Fin 8) (o2 : AguReg) : Statement (.luaDisp o0 o1 o2) :=
  of_length (Nat.zero_le 1)
theorem macNum (o0 : XYReg) (o1 : BitVec 5) (o2 : Acc) (o3 : Bool) : Statement (.macNum o0 o1 o2 o3) :=
  of_length (Nat.zero_le 1)
theorem macSu (o0 : Sign1) (o1 : MulOps) (o2 : Acc) (o3 : Bool) : Statement (.macSu o0 o1 o2 o3) :=
  of_length (Nat.zero_le 1)
theorem maci (o0 : XYReg) (o1 : Acc) (o2 : Bool) (o3 : Word) : Statement (.maci o0 o1 o2 o3) :=
  of_length (Nat.le_refl 1)
theorem macrNum (o0 : XYReg) (o1 : BitVec 5) (o2 : Acc) (o3 : Bool) : Statement (.macrNum o0 o1 o2 o3) :=
  of_length (Nat.zero_le 1)
theorem macri (o0 : XYReg) (o1 : Acc) (o2 : Bool) (o3 : Word) : Statement (.macri o0 o1 o2 o3) :=
  of_length (Nat.le_refl 1)
theorem merge (o0 : ShiftSrc) (o1 : Acc) : Statement (.merge o0 o1) := of_length (Nat.zero_le 1)
theorem moveXLong (o0 : Fin 8) (o1 : Dir) (o2 : Reg) (o3 : Word) : Statement (.moveXLong o0 o1 o2 o3) :=
  of_length (Nat.le_refl 1)
theorem moveYLong (o0 : Fin 8) (o1 : Dir) (o2 : Reg) (o3 : Word) : Statement (.moveYLong o0 o1 o2 o3) :=
  of_length (Nat.le_refl 1)
theorem moveXShort (o0 : BitVec 7) (o1 : Fin 8) (o2 : Dir) (o3 : AluReg) : Statement (.moveXShort o0 o1 o2 o3) :=
  of_length (Nat.zero_le 1)
theorem moveYShort (o0 : BitVec 7) (o1 : Fin 8) (o2 : Dir) (o3 : AluReg) : Statement (.moveYShort o0 o1 o2 o3) :=
  of_length (Nat.zero_le 1)
theorem movecEa (o0 : Dir) (o1 : Space) (o2 : Ea) (o3 : CReg) : Statement (.movecEa o0 o1 o2 o3) :=
  of_length (Ea.extWords_length o2)
theorem movecAa (o0 : Dir) (o1 : Space) (o2 : BitVec 6) (o3 : CReg) : Statement (.movecAa o0 o1 o2 o3) :=
  of_length (Nat.zero_le 1)
theorem movecReg (o0 : Dir) (o1 : Reg) (o2 : CReg) : Statement (.movecReg o0 o1 o2) := of_length (Nat.zero_le 1)
theorem movecImm (o0 : BitVec 8) (o1 : CReg) : Statement (.movecImm o0 o1) := of_length (Nat.zero_le 1)
theorem movemEa (o0 : Dir) (o1 : Ea) (o2 : Reg) : Statement (.movemEa o0 o1 o2) := of_length (Ea.extWords_length o1)
theorem movemAa (o0 : Dir) (o1 : BitVec 6) (o2 : Reg) : Statement (.movemAa o0 o1 o2) := of_length (Nat.zero_le 1)
theorem movepPpEa (o0 : Space) (o1 : Dir) (o2 : Space) (o3 : Ea) (o4 : BitVec 6) :
    Statement (.movepPpEa o0 o1 o2 o3 o4) :=
  of_length (Ea.extWords_length o3)
theorem movepXqqEa (o0 : Dir) (o1 : Space) (o2 : Ea) (o3 : BitVec 6) : Statement (.movepXqqEa o0 o1 o2 o3) :=
  of_length (Ea.extWords_length o2)
theorem movepYqqEa (o0 : Dir) (o1 : Space) (o2 : Ea) (o3 : BitVec 6) : Statement (.movepYqqEa o0 o1 o2 o3) :=
  of_length (Ea.extWords_length o2)
theorem movepPpP (o0 : Space) (o1 : Dir) (o2 : Ea) (o3 : BitVec 6) : Statement (.movepPpP o0 o1 o2 o3) :=
  of_length (Ea.extWords_length o2)
theorem movepQqP (o0 : Dir) (o1 : Ea) (o2 : Space) (o3 : BitVec 6) : Statement (.movepQqP o0 o1 o2 o3) :=
  of_length (Ea.extWords_length o1)
theorem movepPpReg (o0 : Space) (o1 : Dir) (o2 : Reg) (o3 : BitVec 6) : Statement (.movepPpReg o0 o1 o2 o3) :=
  of_length (Nat.zero_le 1)
theorem movepXqqReg (o0 : Dir) (o1 : Reg) (o2 : BitVec 6) : Statement (.movepXqqReg o0 o1 o2) :=
  of_length (Nat.zero_le 1)
theorem movepYqqReg (o0 : Dir) (o1 : Reg) (o2 : BitVec 6) : Statement (.movepYqqReg o0 o1 o2) :=
  of_length (Nat.zero_le 1)
theorem mpyNum (o0 : XYReg) (o1 : BitVec 5) (o2 : Acc) (o3 : Bool) : Statement (.mpyNum o0 o1 o2 o3) :=
  of_length (Nat.zero_le 1)
theorem mpySu (o0 : Sign1) (o1 : MulOps) (o2 : Acc) (o3 : Bool) : Statement (.mpySu o0 o1 o2 o3) :=
  of_length (Nat.zero_le 1)
theorem mpyi (o0 : XYReg) (o1 : Acc) (o2 : Bool) (o3 : Word) : Statement (.mpyi o0 o1 o2 o3) :=
  of_length (Nat.le_refl 1)
theorem mpyrNum (o0 : XYReg) (o1 : BitVec 5) (o2 : Acc) (o3 : Bool) : Statement (.mpyrNum o0 o1 o2 o3) :=
  of_length (Nat.zero_le 1)
theorem mpyri (o0 : XYReg) (o1 : Acc) (o2 : Bool) (o3 : Word) : Statement (.mpyri o0 o1 o2 o3) :=
  of_length (Nat.le_refl 1)
theorem norm (o0 : Fin 8) (o1 : Acc) : Statement (.norm o0 o1) := of_length (Nat.zero_le 1)
theorem normf (o0 : ShiftSrc) (o1 : Acc) : Statement (.normf o0 o1) := of_length (Nat.zero_le 1)
theorem orShort (o0 : BitVec 6) (o1 : Acc) : Statement (.orShort o0 o1) := of_length (Nat.zero_le 1)
theorem orImm (o0 : Acc) (o1 : Word) : Statement (.orImm o0 o1) := of_length (Nat.le_refl 1)
theorem ori (o0 : BitVec 8) (o1 : PcuByte) : Statement (.ori o0 o1) := of_length (Nat.zero_le 1)
theorem plock (o0 : Ea) : Statement (.plock o0) := of_length (Ea.extWords_length o0)
theorem plockr (o0 : Word) : Statement (.plockr o0) := of_length (Nat.le_refl 1)
theorem punlock (o0 : Ea) : Statement (.punlock o0) := of_length (Ea.extWords_length o0)
theorem punlockr (o0 : Word) : Statement (.punlockr o0) := of_length (Nat.le_refl 1)
theorem subShort (o0 : BitVec 6) (o1 : Acc) : Statement (.subShort o0 o1) := of_length (Nat.zero_le 1)
theorem subImm (o0 : Acc) (o1 : Word) : Statement (.subImm o0 o1) := of_length (Nat.le_refl 1)
theorem tccD (o0 : Cond) (o1 : AccOrReg) (o2 : Acc) : Statement (.tccD o0 o1 o2) := of_length (Nat.zero_le 1)
theorem tccDR (o0 : Cond) (o1 : AccOrReg) (o2 : Acc) (o3 : Fin 8) (o4 : Fin 8) : Statement (.tccDR o0 o1 o2 o3 o4) :=
  of_length (Nat.zero_le 1)
theorem tccR (o0 : Cond) (o1 : Fin 8) (o2 : Fin 8) : Statement (.tccR o0 o1 o2) := of_length (Nat.zero_le 1)
theorem trapcc (o0 : Cond) : Statement (.trapcc o0) := of_length (Nat.zero_le 1)
theorem vsl (o0 : Acc) (o1 : Bool) (o2 : Ea) : Statement (.vsl o0 o1 o2) := of_length (Ea.extWords_length o2)
theorem moveNone : Statement (.moveNone) := of_length (Nat.zero_le 1)
theorem debug : Statement (.debug) := of_length (Nat.zero_le 1)
theorem enddo : Statement (.enddo) := of_length (Nat.zero_le 1)
theorem illegal : Statement (.illegal) := of_length (Nat.zero_le 1)
theorem nop : Statement (.nop) := of_length (Nat.zero_le 1)
theorem pflush : Statement (.pflush) := of_length (Nat.zero_le 1)
theorem pflushun : Statement (.pflushun) := of_length (Nat.zero_le 1)
theorem pfree : Statement (.pfree) := of_length (Nat.zero_le 1)
theorem reset : Statement (.reset) := of_length (Nat.zero_le 1)
theorem rti : Statement (.rti) := of_length (Nat.zero_le 1)
theorem rts : Statement (.rts) := of_length (Nat.zero_le 1)
theorem stop : Statement (.stop) := of_length (Nat.zero_le 1)
theorem trap : Statement (.trap) := of_length (Nat.zero_le 1)
theorem wait : Statement (.wait) := of_length (Nat.zero_le 1)

end Laws.Encodable

end Sys2Proof
end

