-- ==== Sys2Proof/Tests/Slice0.lean ====
section
/-!
SUPPORT. Tests: words of the spec's encodings, one step of most instructions on values of spec/95_test_vectors.md, a term
that each check of WellFormed refuses, and for each statement with hypotheses a state that meets them.
-/
set_option Elab.async false
namespace Sys2Proof.Tests
open Sys2Proof.Machine

/-! ## Data ALU (95_test_vectors, section 2) -/

/-- The reset state with these registers. -/
def regs (a b : AccWord := 0) (x0 x1 y0 y1 r0 : Word := 0) (sr : Word := 0xC00300) : State :=
  let z := State.reset
  { z with alu := ⟨x1, x0, y1, y0, a, b⟩, pcu := { z.pcu with sr := sr }, agu := { z.agu with r := z.agu.r.set 0 r0 } }

/-- After `i` the accumulator holds `r`, the CCR bits of the mask `m` are `v`, and R0 is as said. -/
def gives (i : Instr) (s : State) (d : Acc) (r : AccWord) (m v : Byte) (r0 : Option Word := none) : Bool :=
  match exec i s with
  | .next t => t.acc d == r && t.ccr &&& m == v && (r0.isNone || r0 == some t.agu.r[0])
  | .fault _ => false
  | .refused _ => false

/-- Vectors A4 addReg, S1 addReg, A3 addAcc, S5 addAcc, A5 addXY, A6 addShort, A7 subReg, S3 subReg. -/
theorem test_alu_addReg_A4 : ([
    gives (.addReg .x0 .a .none) (regs (a := 0x80000000000000) (x0 := 0x800000)) .a 0x7F800000000000 0x3F 0x23,
    gives (.addReg .x0 .a .none) (regs (a := 0x400000000000) (x0 := 0x400000) (sr := 0xD00300)) .a 0x7FFFFFFFFFFF 0x3F 0x2,
    gives (.addAcc .a .none) (regs (a := 0xFFFFFFFFFFFFFF) (b := 0x1)) .a 0x0 0x3F 0x15,
    gives (.addAcc .a .none) (regs (a := 0x7FFFFFFFFFFFFF) (b := 0x1) (sr := 0xD00300)) .a 0xFF800000000000 0x3F 0xA,
    gives (.addXY .x .a .none) (regs (a := 0xFFFFFF) (x0 := 0x1)) .a 0x1000000 0x3F 0x10,
    gives (.addShort 63 .a) (regs (a := 0xFFFFFFC1000000)) .a 0x0 0x3F 0x15,
    gives (.subReg .x0 .a .none) (regs (x0 := 0x1)) .a 0xFFFFFFFF000000 0x3F 0x19,
    gives (.subReg .x0 .a .none) (regs (a := 0xFF800000000000) (x0 := 0x1) (sr := 0xD00300)) .a 0xFF800000000000 0x3F 0xA
  ] : List Bool).all id = true := by decide +kernel
/-- Vectors A8 subAcc, A9 subXY, A10 cmpReg, A11 cmpAcc, A12 cmpShort, A13 adc, A14 adc, A15 sbc. -/
theorem test_alu_subAcc_A8 : ([
    gives (.subAcc .a .none) (regs (a := 0x80000000000000) (b := 0x1)) .a 0x7FFFFFFFFFFFFF 0x3F 0x32,
    gives (.subXY .y .a .none) (regs (a := 0x400000000000) (y1 := 0xC00000)) .a 0x800000000000 0x3F 0x21,
    gives (.cmpReg .x0 .a .none) (regs (a := 0x400000000000) (x0 := 0x400000)) .a 0x400000000000 0x3F 0x14,
    gives (.cmpAcc .a .none) (regs (a := 0xFF800000000000) (b := 0x7FFFFF000000)) .a 0xFF800000000000 0x3F 0x38,
    gives (.cmpShort 1 .a) (regs) .a 0x0 0x3F 0x19,
    gives (.adc .x .a .none) (regs (a := 0xFFFFFFFFFFFF) (sr := 0xC00301)) .a 0x1000000000000 0x3F 0x30,
    gives (.adc .y .b .none) (regs (b := 0xFFFFFFFFFFFFFF) (sr := 0xC00301)) .b 0x0 0x3F 0x15,
    gives (.sbc .x .a .none) (regs (sr := 0xC00301)) .a 0xFFFFFFFFFFFFFF 0x3F 0x19
  ] : List Bool).all id = true := by decide +kernel
/-- Vectors A16 sbc, A17 inc, S6 inc, A19 dec, A20 dec, A21 neg, A23 neg, A24 abs. -/
theorem test_alu_sbc_A16 : ([
    gives (.sbc .y .a .none) (regs (a := 0x1000000) (y0 := 0x1) (sr := 0xC00301)) .a 0xFFFFFE 0x3F 0x10,
    gives (.inc .a) (regs (a := 0x7FFFFFFFFFFFFF)) .a 0x80000000000000 0x3F 0x3A,
    gives (.inc .a) (regs (a := 0x7FFFFFFFFFFF) (sr := 0xD00300)) .a 0x7FFFFFFFFFFF 0x3F 0x2,
    gives (.dec .a) (regs (a := 0x80000000000000)) .a 0x7FFFFFFFFFFFFF 0x3F 0x32,
    gives (.dec .a) (regs (a := 0x1)) .a 0x0 0x3F 0x14,
    gives (.neg .a .none) (regs (a := 0x80000000000000)) .a 0x80000000000000 0x3E 0x3A,
    gives (.neg .a .none) (regs (a := 0xFF800000000000)) .a 0x800000000000 0x3E 0x20,
    gives (.abs .a .none) (regs (a := 0x80000000000000)) .a 0x80000000000000 0x3E 0x3A
  ] : List Bool).all id = true := by decide +kernel
/-- Vectors A26 abs, B1 addl, B3 addl, B4 addr, B5 addr, B6 subl, B7 subl, B8 subr. -/
theorem test_alu_abs_A26 : ([
    gives (.abs .a .none) (regs (a := 0x123456000000)) .a 0x123456000000 0x3E 0x10,
    gives (.addl .a .none) (regs (a := 0x400000000000) (b := 0x100000000000)) .a 0x900000000000 0x3F 0x20,
    gives (.addl .a .none) (regs (a := 0xC0000000000000) (b := 0xFF000000000000)) .a 0x7F000000000000 0x3F 0x33,
    gives (.addr .a .none) (regs (a := 0xFF800000000001) (b := 0x400000000000)) .a 0x0 0x3F 0x15,
    gives (.addr .a .none) (regs (a := 0x7FFFFFFFFFFFFF) (b := 0x40000000000000)) .a 0x7FFFFFFFFFFFFF 0x3F 0x30,
    gives (.subl .a .none) (regs (a := 0x400000000000) (b := 0x800000000000)) .a 0x0 0x3F 0x14,
    gives (.subl .a .none) (regs (a := 0xBFFFFFFFFFFFFF)) .a 0x7FFFFFFFFFFFFE 0x3F 0x32,
    gives (.subr .a .none) (regs (a := 0x400000000001) (b := 0x200000000000)) .a 0x0 0x3F 0x14
  ] : List Bool).all id = true := by decide +kernel
/-- Vectors B9 subr, M3 mpy, M4 mpy, M8 mac, M20 mac, M10 macr, M21 macr, M12 mpyr. -/
theorem test_alu_subr_B9 : ([
    gives (.subr .a .none) (regs (a := 0x80000000000000) (b := 0x40000000000001)) .a 0x7FFFFFFFFFFFFF 0x3F 0x32,
    gives (.mpy .y0x0 .a false .none) (regs (x0 := 0x800000) (y0 := 0x7FFFFF)) .a 0xFF800001000000 0x3E 0x8,
    gives (.mpy .y0x0 .a true .none) (regs (x0 := 0x400000) (y0 := 0x400000)) .a 0xFFE00000000000 0x3E 0x18,
    gives (.mac .y0x0 .a false .none) (regs (a := 0x7FC00000000000) (x0 := 0x7FFFFF) (y0 := 0x7FFFFF)) .a 0x803FFFFE000002
      0x3E 0x3A,
    gives (.mac .y0x0 .a true .none) (regs (a := 0xFFA00000000000) (x0 := 0x7FFFFF) (y0 := 0x7FFFFF) (sr := 0xD00300)) .a
      0xFF800000000000 0x3E 0xA,
    gives (.macr .y0x0 .a false .none) (regs (x0 := 0x1) (y0 := 0x400000)) .a 0x0 0x3E 0x14,
    gives (.macr .y0x0 .a false .none) (regs (a := 0x600000000000) (x0 := 0x7FFFFF) (y0 := 0x7FFFFF) (sr := 0xD00300)) .a
      0x7FFFFF000000 0x3E 0x2,
    gives (.mpyr .y0x0 .a false .none) (regs (x0 := 0x3) (y0 := 0x400000)) .a 0x2000000 0x3E 0x10
  ] : List Bool).all id = true := by decide +kernel
/-- Vectors M17 mpyr, M22 mpySu, M23 mpySu, M24 macSu, M25 dmac, M26 dmac, M27 mpyNum, M28 mpyi. -/
theorem test_alu_mpyr_M17 : ([
    gives (.mpyr .y0x0 .a false .none) (regs (x0 := 0x3) (y0 := 0x200000) (sr := 0xC00700)) .a 0x0 0x3E 0x14,
    gives (.mpySu .su ⟨.x0, .y0⟩ .a false) (regs (x0 := 0x800000) (y0 := 0xFFFFFF)) .a 0xFF000001000000 0x3E 0x38,
    gives (.mpySu .uu ⟨.x0, .y0⟩ .a false) (regs (x0 := 0xFFFFFF) (y0 := 0xFFFFFF)) .a 0x1FFFFFC000002 0x3E 0x30,
    gives (.macSu .uu ⟨.x0, .y0⟩ .a false) (regs (a := 0x1000000) (x0 := 0x800000) (y0 := 0x800000)) .a 0x800001000000 0x3E
      0x20,
    gives (.dmac .ss ⟨.x0, .y0⟩ .a false) (regs (a := 0xFF800000123456) (x0 := 0x400000) (y0 := 0x400000)) .a
      0x1FFFFF800000 0x3E 0x10,
    gives (.dmac .uu ⟨.x0, .y0⟩ .a false) (regs (a := 0xFFFFFFFFFFFF) (x0 := 0xFFFFFF) (y0 := 0xFFFFFF)) .a 0x1FFFFFD000001
      0x3E 0x30,
    gives (.mpyNum .y1 4 .a false) (regs (y1 := 0x800000)) .a 0xFFF80000000000 0x3E 0x18,
    gives (.mpyi .x0 .a false 0x400000) (regs (x0 := 0xC00000)) .a 0xFFE00000000000 0x3E 0x18
  ] : List Bool).all id = true := by decide +kernel
/-- Vectors RN2 rnd, RN15 rnd, H2 asl, H3 asl, H6 aslNum, H8 aslNum, H10 asr, H12 asr. -/
theorem test_alu_rnd_RN2 : ([
    gives (.rnd .a .none) (regs (a := 0x123457800000)) .a 0x123458000000 0x3E 0x10,
    gives (.rnd .a .none) (regs (a := 0x123456C00000) (sr := 0xC00B00)) .a 0x123457000000 0x3E 0x10,
    gives (.asl .a .none) (regs (a := 0x80000000000000)) .a 0x0 0x3F 0x17,
    gives (.asl .a .none) (regs (a := 0x40000000000000)) .a 0x80000000000000 0x3F 0x3A,
    gives (.aslNum 8 .a .b) (regs (a := 0xFF0000000000)) .b 0xFF000000000000 0x3F 0x3A,
    gives (.aslNum 55 .a .a) (regs (a := 0x3)) .a 0x80000000000000 0x3F 0x3B,
    gives (.asr .a .none) (regs (a := 0x80000000000000)) .a 0xC0000000000000 0x3F 0x38,
    gives (.asr .a .none) (regs (a := 0x7FFFFFFFFFFFFF)) .a 0x3FFFFFFFFFFFFF 0x3F 0x31
  ] : List Bool).all id = true := by decide +kernel
/-- Vectors H14 asrNum, H15 asrNum, LG1 and, LG2 and, LG3 andShort, LG4 or, LG5 eor, LG6 eorImm. -/
theorem test_alu_asrNum_H14 : ([
    gives (.asrNum 24 .a .b) (regs (a := 0xFF800000800000)) .b 0xFFFFFFFF800000 0x3F 0x19,
    gives (.asrNum 55 .a .a) (regs (a := 0x80000000000000)) .a 0xFFFFFFFFFFFFFF 0x3F 0x18,
    gives (.and .x0 .a .none) (regs (a := 0x12F0F0F0345678) (x0 := 0xF0F0F)) .a 0x12000000345678 0xE 0x4,
    gives (.and .x0 .a .none) (regs (a := 0x12F0F0F0345678) (x0 := 0x800000)) .a 0x12800000345678 0xE 0x8,
    gives (.andShort 63 .a) (regs (a := 0x12F0F0F0345678)) .a 0x12000030345678 0xE 0x0,
    gives (.or .x0 .a .none) (regs (a := 0x12F0F0F0345678) (x0 := 0xF0F0F)) .a 0x12FFFFFF345678 0xE 0x8,
    gives (.eor .x0 .a .none) (regs (a := 0x12F0F0F0345678) (x0 := 0xF0F0F0)) .a 0x12000000345678 0xE 0x4,
    gives (.eorImm .a 0x123456) (regs (a := 0x12F0F0F0345678)) .a 0x12E2C4A6345678 0xE 0x8
  ] : List Bool).all id = true := by decide +kernel
/-- Vectors LG7 not, LG8 not, LG9 lsl, LG10 lsl, LG11 lslNum, LG13 lslNum, LG15 lsr, LG16 lsr. -/
theorem test_alu_not_LG7 : ([
    gives (.not .a .none) (regs (a := 0x12F0F0F0345678)) .a 0x120F0F0F345678 0xE 0x0,
    gives (.not .a .none) (regs (a := 0xFFFFFF000000)) .a 0x0 0xE 0x4,
    gives (.lsl .a .none) (regs (a := 0x12800000FFFFFF)) .a 0x12000000FFFFFF 0xF 0x5,
    gives (.lsl .a .none) (regs (a := 0x12400001FFFFFF)) .a 0x12800002FFFFFF 0xF 0x8,
    gives (.lslNum 0 .a) (regs (a := 0x12800001FFFFFF) (sr := 0xC00301)) .a 0x12800001FFFFFF 0xF 0x8,
    gives (.lslNum 24 .a) (regs (a := 0x12000001FFFFFF)) .a 0x12000000FFFFFF 0xF 0x5,
    gives (.lsr .a .none) (regs (a := 0x12000001FFFFFF)) .a 0x12000000FFFFFF 0xF 0x5,
    gives (.lsr .a .none) (regs (a := 0x12800000FFFFFF)) .a 0x12400000FFFFFF 0xF 0x0
  ] : List Bool).all id = true := by decide +kernel
/-- Vectors LG17 lsrNum, LG18 lsrNum, LG20 rol, LG22 rol, LG23 ror, LG25 ror, L4 clb, L6 clb. -/
theorem test_alu_lsrNum_LG17 : ([
    gives (.lsrNum 0 .a) (regs (a := 0x12800001FFFFFF) (sr := 0xC00301)) .a 0x12800001FFFFFF 0xF 0x8,
    gives (.lsrNum 23 .a) (regs (a := 0x12C00000FFFFFF)) .a 0x12000001FFFFFF 0xF 0x1,
    gives (.rol .a .none) (regs (a := 0x12800000FFFFFF)) .a 0x12000000FFFFFF 0xF 0x5,
    gives (.rol .a .none) (regs (a := 0x12000000FFFFFF) (sr := 0xC00301)) .a 0x12000001FFFFFF 0xF 0x0,
    gives (.ror .a .none) (regs (a := 0x12000001FFFFFF)) .a 0x12000000FFFFFF 0xF 0x5,
    gives (.ror .a .none) (regs (a := 0x12FFFFFEFFFFFF) (sr := 0xC00301)) .a 0x12FFFFFFFFFFFF 0xF 0x8,
    gives (.clb .a .b) (regs (a := 0xFFC00000000000)) .b 0xFFFFFFFF000000 0xE 0x8,
    gives (.clb .a .b) (regs (a := 0x7FFFFFFFFFFFFF)) .b 0x8000000 0xE 0x0
  ] : List Bool).all id = true := by decide +kernel
/-- Vectors X5 extractNum, X8 extractNum, X2 extractuNum, X9 extractuNum, X11 insertNum, X12 insertNum, X15 merge, X17
merge. -/
theorem test_alu_extractNum_X5 : ([
    gives (.extractNum .a .b 0x18014) (regs (a := 0x89ABCDEF012345)) .b 0xFFFFFFFFBCDEF0 0x3F 0x18,
    gives (.extractNum .a .b 0x38000) (regs (a := 0x89ABCDEF012345)) .b 0x89ABCDEF012345 0x3F 0x28,
    gives (.extractuNum .a .b 0x8000) (regs (a := 0x89ABCDEF012345)) .b 0x45 0x3F 0x10,
    gives (.extractuNum .a .b 0x0) (regs (a := 0x89ABCDEF012345)) .b 0x0 0x3F 0x14,
    gives (.insertNum .x0 .a 0x8030) (regs (a := 0x123456789ABC) (x0 := 0xFF)) .a 0xFF123456789ABC 0x3F 0x38,
    gives (.insertNum .x0 .a 0x18020) (regs (a := 0xFFFFFFFFFFFFFF) (x0 := 0xABCDEF)) .a 0xABCDEFFFFFFFFF 0x3F 0x38,
    gives (.merge .x0 .a) (regs (a := 0x12345678FFFFFF) (x0 := 0xABCDEF)) .a 0x12DEF678FFFFFF 0xE 0x8,
    gives (.merge .x0 .a) (regs (x0 := 0x800)) .a 0x800000000000 0xE 0x8
  ] : List Bool).all id = true := by decide +kernel
/-- Vectors NR2 norm, NR6 norm, NR14 normf, NR17 normf, T2 max, T5 max, T7 maxm, T9 maxm. -/
theorem test_alu_norm_NR2 : ([
    gives (.norm 0 .a) (regs (a := 0x80000000000) (r0 := 0xFFFFFF) (sr := 0xC00310)) .a 0x100000000000 0x3E 0x10 (some
      0xFFFFFE),
    gives (.norm 0 .a) (regs (a := 0x7000000000000) (sr := 0xC00330)) .a 0x3800000000000 0x3E 0x20 (some 0x1),
    gives (.normf .x0 .a) (regs (a := 0x20000000000000) (x0 := 0x7)) .a 0x400000000000 0x3E 0x0,
    gives (.normf .x0 .a) (regs (a := 0x40000000000000) (x0 := 0xFFFFFF)) .a 0x80000000000000 0x3E 0x3A,
    gives (.max .none) (regs (a := 0x200000000000) (b := 0x300000000000)) .b 0x300000000000 0x1 0x1,
    gives (.max .none) (regs (a := 0xFF800000000000) (b := 0xFF400000000000)) .b 0xFF800000000000 0x1 0x0,
    gives (.maxm .none) (regs (a := 0x400000000000) (b := 0xFFA00000000000)) .b 0xFFA00000000000 0x1 0x1,
    gives (.maxm .none) (regs (a := 0x80000000000000) (b := 0x7FFFFFFFFFFFFF)) .b 0x80000000000000 0x1 0x0
  ] : List Bool).all id = true := by decide +kernel
/-- Vectors T11 cmpmReg, T12 cmpmReg, T15 cmpu, T17 cmpu, T20 tst, T21 tst. -/
theorem test_alu_cmpmReg_T11 : ([
    gives (.cmpmReg .x0 .a .none) (regs (a := 0x200000000000) (x0 := 0x800000)) .a 0x200000000000 0x3F 0x9,
    gives (.cmpmReg .x0 .a .none) (regs (a := 0x80000000000000)) .a 0x80000000000000 0x3F 0x3A,
    gives (.cmpu (.reg .x0) .a) (regs (a := 0x7FFFFF000000) (x0 := 0x800000)) .a 0x7FFFFF000000 0xF 0x9,
    gives (.cmpu (.other) .a) (regs (a := 0x1) (b := 0xFF000000000002)) .a 0x1 0xF 0x9,
    gives (.tst .a .none) (regs (a := 0xFF800000000000)) .a 0xFF800000000000 0x3E 0x8,
    gives (.tst .a .none) (regs (a := 0xFF7FFFFFFFFFFF)) .a 0xFF7FFFFFFFFFFF 0x3E 0x28
  ] : List Bool).all id = true := by decide +kernel

/-! ## Moves, bits, stack, loops, flow, interrupts, cache (95_test_vectors, section 3): one step each -/

/-- What `f` reads after the step that executes the words `w`, `x` at the PC. -/
def ran {α : Type} (w x : Word) (s : State) (f : State → α) : Option α :=
  match step (s.withFetchWord 48 (x.toNat * 2 ^ 24 + w.toNat)) with
  | .next t => some (f t)
  | .fault _ => none
  | .refused _ => none

/-- A register state at P:$000100. -/
def here (s : State) : State := s.withPc 0x100#24
def R (s : State) (n : Fin 8) (v : Word) : State := s.setR n v
def X (s : State) (a v : Word) : State := s.writeData .x a v
def Y (s : State) (a v : Word) : State := s.writeData .y a v
/-- SP and the top entry. -/
def stack (s : State) (sp h l : Word) : State := ((s.withSp sp).setSsh (Fin.ofNat 16 sp.toNat) h).setSsl (Fin.ofNat 16 sp.toNat) l

theorem test_MV1_moveImm : ran 0x2E8000 0 (regs (a := 0x123456789ABCDE)) (fun t => t.alu.a) = some 0xFF800000000000 := by
  decide +kernel
theorem test_MV2_moveImm : ran 0x2C8000 0 (regs (a := 0x123456789ABCDE)) (fun t => t.alu.a) = some 0x120000809ABCDE := by
  decide +kernel
theorem test_MV6_moveReg : ran 0x208A00 0 (regs (a := 0x00400000000001) (x0 := 0x123456)) (fun t => t.alu.a) =
    some 0x56400000000001 := by decide +kernel
theorem test_MV9_moveReg : ran 0x21CE00 0 (regs (a := 0xFF7FFFFFFFFFFF)) (fun t => (t.alu.a, t.srBit 6)) =
    some (0xFF800000000000, true) := by decide +kernel
theorem test_MV4_moveXEa_long : ran 0x57F400 0x123456 (regs (b := 0xFFFFFFFFFFFFFF)) (fun t => (t.alu.b, t.pcu.pc)) =
    some (0x00123456000000, 2) := by decide +kernel
theorem test_MV13_moveXEa : ran 0x60D800 0 (X (regs (r0 := 0x10)) 0x10 0x777) (fun t => t.agu.r[0]) = some 0x777#24 := by
  decide +kernel
theorem test_MV10_mac_with_store : ran 0x5658D2 0 (regs (a := 0x00100000000000) (x0 := 0x400000) (y0 := 0x400000) (r0 := 0x40))
    (fun t => (t.alu.a, t.readData .x 0x40, t.agu.r[0])) = some (0x00300000000000, 0x100000, 0x41) := by decide +kernel
theorem test_MV11_tfr_with_move : ran 0x21C551 0 (regs (a := 0x00600000000000) (y0 := 0xC00000))
    (fun t => (t.alu.a, t.alu.x1, t.srBit 7)) = some (0xFFC00000000000, 0x600000, false) := by decide +kernel
theorem test_MV12_moveXY : ran 0xF09800 0 (Y (X (R (regs (r0 := 0x10)) 4 0x20) 0x10 0x111111) 0x20 0x222222)
    (fun t => (t.alu.x0, t.alu.y0, t.agu.r[0], t.agu.r[4])) = some (0x111111, 0x222222, 0x11, 0x21) := by decide +kernel
theorem test_MV14_moveLAa : ran 0x4A1000 0 (regs (a := 0x00800000000000) (b := 0xFFC00000123456))
    (fun t => (t.readData .x 0x10, t.readData .y 0x10, t.srBit 6, t.srBit 7)) = some (0x7FFFFF, 0xC00000, true, true) := by
  decide +kernel
theorem test_MV15_moveLEa : ran 0x40DA00 0 (Y (X (R (regs (a := 0x12000000000000)) 2 0x100) 0x100 0xAAAAAA) 0x100 0x555555)
    (fun t => (t.alu.a, t.agu.r[2])) = some (0x12AAAAAA555555, 0x101) := by decide +kernel
theorem test_MV16_moveLEa : ran 0x48DA00 0 (Y (X (R (regs (a := 0x12000000000000)) 2 0x100) 0x100 0xAAAAAA) 0x100 0x555555)
    (fun t => t.alu.a) = some 0xFFAAAAAA555555 := by decide +kernel
theorem test_MV17_movecReg : ran 0x044EB9 0 (regs (sr := 0xC00310)) (fun t => t.alu.a) = some 0xFFC00310000000 := by
  decide +kernel
theorem test_MV19_movecReg : ran 0x04C4B9 0 (regs (x0 := 0xFFFFFF)) (fun t => t.pcu.sr) = some 0xFBEFFF#24 := by decide +kernel
theorem test_MV18_movecImm : ran 0x05FFA0 0 (regs) (fun t => t.agu.m[0]) = some 0x0000FF#24 := by decide +kernel
theorem test_SK10_movecImm : ran 0x0500BB 0 (State.reset.withSp 0x10) (fun t => t.pcu.sp) = some 0#24 := by decide +kernel
theorem test_MV20_luaEa : ran 0x044811 0 (let z := regs (r0 := 0x100); { z with agu := { z.agu with n := z.agu.n.set 0 0x10 } })
    (fun t => (t.agu.r[0], t.agu.r[1])) = some (0x100, 0x110) := by decide +kernel
theorem test_MV21_movemEa : ran 0x07DD85 0 ((R (regs) 5 0x200).writeP 0x200 0x0C0100) (fun t => (t.alu.x1, t.agu.r[5])) =
    some (0x0C0100, 0x201) := by decide +kernel
theorem test_moveXShort : ran 0x02F8D4 0 (X (regs (r0 := 0x1000)) 0x103F 0x5) (fun t => t.alu.x0) = some 5#24 := by decide +kernel
theorem test_movepPpEa : ran 0x08F4BF 0x000123 (regs) (fun t => t.irq.iprc) = some 0x000123#24 := by decide +kernel

theorem test_BT1_bsetEa : ran 0x0A6025 0 (X (regs (r0 := 0x50) (sr := 0xC00301)) 0x50 3)
    (fun t => (t.readData .x 0x50, t.srBit 0)) = some (0x23, false) := by decide +kernel
theorem test_BT3_bclrAa : ran 0x0A2040 0 (Y (regs) 0x20 0xFFFFFF) (fun t => (t.readData .y 0x20, t.srBit 0)) =
    some (0xFFFFFE, true) := by decide +kernel
theorem test_BT6_bchgReg : ran 0x0BCE40 0 (regs (a := 0x01000000123456)) (fun t => (t.alu.a, t.pcu.sr)) =
    some (0x007FFFFE000000, 0xC00341) := by decide +kernel
theorem test_BT7_bchgReg : ran 0x0BCC43 0 (regs (a := 0x01000000123456)) (fun t => (t.alu.a, t.srBit 6)) =
    some (0x01000008123456, false) := by decide +kernel
theorem test_BT8_bclrReg : ran 0x0AF946 0 (regs (sr := 0xC003C1)) (fun t => t.pcu.sr) = some 0xC00381#24 := by decide +kernel
theorem test_BT9_bsetReg : ran 0x0AF968 0 (regs (sr := 0xC00000)) (fun t => t.pcu.sr) = some 0xC00100#24 := by decide +kernel
theorem test_BT10_btstReg : ran 0x0BF968 0 (regs) (fun t => t.pcu.sr) = some 0xC00301#24 := by decide +kernel
theorem test_BT13_btstReg : ran 0x0BFC64 0 (stack (regs) 2 0x10 0) (fun t => (t.srBit 0, t.pcu.sp)) = some (true, 1) := by
  decide +kernel
theorem test_BT11_jclrEa : ran 0x0A6080 0x200 (X (here (regs)) 0 0xFFFFFE) (fun t => t.pcu.pc) = some 0x200#24 := by decide +kernel
theorem test_BT12_jclrEa : ran 0x0A6080 0x200 (X (here (regs)) 0 1) (fun t => t.pcu.pc) = some 0x102#24 := by decide +kernel

theorem test_SK3_push : ran 0x0D0123 0 (State.reset.withSp 0xF) (fun t => (t.pcu.sp, t.irq.pend)) = some (0x10, 2) := by
  decide +kernel
theorem test_SK6_rts : ran 0x00000C 0 (regs) (fun t => (t.pcu.sp, t.irq.pend)) = some (0x3F, 2) := by decide +kernel

theorem test_LP1_doNum : ran 0x060380 0x103 (here (regs))
    (fun t => (t.pcu.sp, t.ssh, t.ssl, t.pcu.lc, t.pcu.la, t.pcu.sr, t.pcu.pc)) =
    some (2, 0x102, 0xC00300, 3, 0x103, 0xC08300, 0x102) := by decide +kernel
theorem test_LP2_doNum : ran 0x060080 0x103 (here (regs)) (fun t => (t.pcu.pc, t.pcu.sp, t.pcu.sr)) =
    some (0x104, 0, 0xC00300) := by decide +kernel
theorem test_LP3_doReg : ran 0x06C400 0x103 (here (regs (x0 := 2))) (fun t => (t.pcu.lc, t.pcu.sp)) = some (2, 2) := by
  decide +kernel
theorem test_LP5_dorNum : ran 0x060390 3 (here (regs)) (fun t => t.pcu.la) = some 0x103#24 := by decide +kernel
theorem test_LP6_doForever : ran 0x000203 0x103 (here (regs)) (fun t => (t.pcu.sr, t.pcu.la)) = some (0xC18300, 0x103) := by
  decide +kernel
/-- Inside the loop of LP1, at P:$000102, with LC = 3 and LA, LC below it $77 and $88. -/
def looping (sr : Word) : State :=
  let z := (((stack (stack (regs (sr := sr)) 1 0x77 0x88) 2 0x102 0xC00300).withLa 0x103).withLc 3)
  z.withPc 0x102
/-- LP10 to LP12: the instructions' own meanings; `step` refuses them one word before LA (45_loop R409). -/
def after {α : Type} (i : Instr) (s : State) (f : State → α) : Option α :=
  match exec i s with
  | .next t => some (f t)
  | .fault _ => none
  | .refused _ => none
theorem test_LP10_enddo : after .enddo (looping 0xC08300) (fun t => (t.pcu.sp, t.pcu.la, t.pcu.lc, t.pcu.sr, t.pcu.pc)) =
    some (0, 0x77, 0x88, 0xC00300, 0x103) := by decide +kernel
theorem test_LP11_brkcc : after (.brkcc .eq) (looping 0xC08304) (fun t => (t.pcu.sp, t.pcu.la, t.pcu.lc, t.pcu.pc)) =
    some (0, 0x77, 0x88, 0x104) := by decide +kernel
theorem test_LP12_brkcc : after (.brkcc .eq) (looping 0xC08300) (fun t => (t.pcu.sp, t.pcu.pc)) = some (2, 0x103) := by
  decide +kernel
theorem test_LP10_near_loop_end :
    (match step ((looping 0xC08300).withFetchWord 24 0x00008C) with
      | .next _ => none
      | .fault _ => none
      | .refused r => some r) = some .nearLoopEnd := by decide +kernel
/-- BRSET at LA - 1 of an inner loop whose outer loop ends one word later (45_loop R409). -/
theorem test_R409_consecutive_ends : (stack (stack (looping 0xC08300) 1 0x104 0x88) 2 0x102 0xC08300).hazard
    (.brsetReg 0 (.d (.alu .x0)) 0x10) = some .nearLoopEnd := by decide +kernel
/-- SSH read three instructions after a MOVE to SP (70_reset R761). -/
theorem test_R761_ssh_after_sp : (let s := regs
    ({ s with ctl := { s.ctl with hist := { s.ctl.hist with past := [.nop, .nop, .movecReg .write (.d (.alu .x0)) .sp] } } } :
      State)).hazard (.movecReg .read (.d (.alu .x0)) .ssh) = some .stackPointerUse := by decide +kernel
/-- A short I/O address in Sixteen-bit Compatibility mode (46_move R436). -/
theorem test_R436_short_io : (regs (sr := 0xC02300)).movepAddr (ppAddr 0) = 0x00FFC0 := by decide +kernel
theorem test_LP7_end_of_loop : ran 0x000000 0 ((looping 0xC08300).withPc 0x103) (fun t => (t.pcu.lc, t.pcu.pc, t.pcu.sp)) =
    some (2, 0x102, 2) := by decide +kernel
theorem test_LP8_end_of_loop : ran 0x000000 0 (((looping 0xC08300).withLc 1).withPc 0x103)
    (fun t => (t.pcu.sp, t.pcu.la, t.pcu.lc, t.pcu.sr, t.pcu.pc)) = some (0, 0x77, 0x88, 0xC00300, 0x104) := by decide +kernel
theorem test_LP13_repNum : ran 0x0604A0 0 (here (regs)) (fun t => (t.pcu.lc, t.ctl.rep, t.pcu.pc)) =
    some (4, some ⟨0, none⟩, 0x101) := by decide +kernel
theorem test_LP14_repNum : ran 0x0600A0 0 (here (regs)) (fun t => (t.pcu.lc, t.ctl.rep, t.pcu.pc)) =
    some (0, none, 0x102) := by decide +kernel

theorem test_CF1_jmpShort : ran 0x0C0123 0 (here (regs)) (fun t => t.pcu.pc) = some 0x123#24 := by decide +kernel
theorem test_CF5_jmpEa : ran 0x0AD980 0 (R (here (regs)) 1 0x400) (fun t => (t.pcu.pc, t.agu.r[1])) = some (0x400, 0x401) := by
  decide +kernel
theorem test_CF2_jccShort : ran 0x0E2123 0 (here (regs)) (fun t => t.pcu.pc) = some 0x123#24 := by decide +kernel
theorem test_CF4_jccEa : ran 0x0AF0AA 0x4000 (here (regs)) (fun t => t.pcu.pc) = some 0x102#24 := by decide +kernel
theorem test_CF6_bccShort : ran 0x05A410 0 (here (regs (sr := 0xC00304))) (fun t => t.pcu.pc) = some 0x110#24 := by decide +kernel
theorem test_CF7_braShort : ran 0x050FDE 0 (here (regs)) (fun t => t.pcu.pc) = some 0xFE#24 := by decide +kernel
theorem test_CF8_bccReg : ran 0x0D1947 0 (R (here (regs)) 1 0xFFFFF0) (fun t => t.pcu.pc) = some 0xF0#24 := by decide +kernel
theorem test_CF9_jsrShort : ran 0x0D0FFF 0 (here (regs)) (fun t => (t.ssh, t.ssl, t.pcu.sp, t.pcu.pc)) =
    some (0x101, 0xC00300, 1, 0xFFF) := by decide +kernel
theorem test_CF10_jsrEa : ran 0x0BF080 0x012345 (here (regs)) (fun t => (t.ssh, t.pcu.pc)) = some (0x102, 0x012345) := by
  decide +kernel
theorem test_CF11_bsrShort : ran 0x050840 0 (here (regs)) (fun t => (t.ssh, t.pcu.pc)) = some (0x101, 0x120) := by decide +kernel
theorem test_CF12_jsccShort : ran 0x0FA300 0 (here (regs)) (fun t => (t.pcu.sp, t.pcu.pc)) = some (0, 0x101) := by decide +kernel
theorem test_CF13_rts : ran 0x00000C 0 (stack (regs (sr := 0xC00000)) 1 0x101 0xC003FF) (fun t => (t.pcu.pc, t.pcu.sp, t.pcu.sr)) =
    some (0x101, 0, 0xC00000) := by decide +kernel
theorem test_CF14_rti : ran 0x000004 0 (stack (regs (sr := 0xC00000)) 1 0x101 0xC003FF) (fun t => (t.pcu.pc, t.pcu.sp, t.pcu.sr)) =
    some (0x101, 0, 0xC003FF) := by decide +kernel
theorem test_CF16_trapcc : ran 0x000018 0 (here (regs (sr := 0xC00301))) (fun t => (t.pcu.pc, t.irq.pend)) = some (0x101, 16) := by
  decide +kernel
theorem test_CF17_illegal : ran 0x000005 0 (here (regs)) (fun t => (t.pcu.pc, t.irq.pend)) = some (0x101, 4) := by decide +kernel
theorem test_CF18_ifcc : ran 0x202A40 0 (regs (a := 1) (x0 := 0x400000)) (fun t => (t.alu.a, t.pcu.sr)) = some (1, 0xC00300) := by
  decide +kernel
theorem test_CF19_ifccU : ran 0x203A40 0 (regs (x0 := 0x400000) (sr := 0xC00304)) (fun t => (t.alu.a, t.pcu.sr)) =
    some (0x00400000000000, 0xC00300) := by decide +kernel
theorem test_T23_tccDR : ran 0x037142 0 (R (R (regs (a := 0x123456789ABCDE) (x0 := 0x800000)) 1 0x111) 2 0x222)
    (fun t => (t.alu.a, t.agu.r[2])) = some (0xFF800000000000, 0x111) := by decide +kernel
theorem test_T25_tccD : ran 0x020000 0 (regs (b := 0x123456789ABCDE)) (fun t => t.alu.a) = some 0x123456789ABCDE := by
  decide +kernel
theorem test_T26_tccR : ran 0x022B04 0 (R (regs) 3 0x333) (fun t => t.agu.r[4]) = some 0x333#24 := by decide +kernel

/-- IX1 to IX7: IPRC, SR, the pending flags, the pins (a level-sensitive pin requests while it is low) and DCR0; the source that
arbitration takes. Without DIE the last takes none (R577). -/
def arb (iprc sr : Word) (pend : BitVec 128) (pins : BitVec 4 := 0xF) (dcr : Word := 0) : Option Nat :=
  let z := (regs (sr := sr)).withChannel 0 { State.reset.dma.ch[0] with dcr := dcr }
  ({ z with irq := { z.irq with iprc := iprc, pend := pend, pins := pins } } : State).arbitrate
theorem test_IX_arbitrate :
    [arb 0x000007 0xC00000 0x100, arb 0x000007 0xC00300 0x100, arb 0x000007 0xC00200 0x100, arb 0x00000B 0xC00100 0 0xC,
      arb 0x00001B 0xC00000 0 0xC, arb 0 0xC00300 0x12, arb 0x003000 0xC00000 0x1000 (dcr := 0x400000),
      arb 0x003000 0xC00000 0x1000] =
    [some 8, none, some 8, some 8, some 8, some 1, some 12, none] := by decide +kernel
/-- IX8: the JSR of a vector of a level 2 interrupt. -/
theorem test_IX8_long_entry :
    (match exec (.jsrEa (.abs 0x400)) ((((regs (sr := 0xC08420)).withPc 0x200)).withCtx (some ⟨8, 2, 0x10, []⟩)) with
      | .next t => some (t.ssh, t.ssl, t.pcu.sr, t.pcu.pc, t.ctl.ctx)
      | .fault _ => none
      | .refused _ => none) = some (0x200, 0xC08420, 0xC00320, 0x400, none) := by decide +kernel

theorem test_cache_plock :
    (match exec (.plock (.abs 0x010000)) (regs (sr := 0xC80300)) with
      | .next t => some (t.cache.lock, t.cache.tag[7], t.cache.lru.head?)
      | .fault _ => none
      | .refused _ => none) = some (0x80, 0x00200, some 7) := by decide +kernel
theorem test_cache_off_pflush : ran 0x000003 0 (regs) (fun t => (t.irq.pend, t.pcu.pc)) = some (4, 1) := by decide +kernel


/-! ## Words of the spec's encodings: one of each constructor -/

/-- Each operation word, with the word after it, decodes to the instruction and is its encoding. -/
def reads (l : List (Word × Word × Instr)) : Bool :=
  l.all fun p => decide (decode p.1 p.2.1 = .ok p.2.2) && p.2.2.opWord == p.1

theorem test_words_transfers_sums : reads [
    (0x1E0A01, 0, .tfrAcc .a ((.xr1 .b .b .y0 .read (.postIncN 2)))),
    (0x1D7049, 0xFB7108, .tfrReg .x0 .b ((.ry1 .b .x1 .y1 .read (.abs 0xFB7108#24)))),
    (0x6AD802, 0, .addr .a ((.yEa (.r 2) .write (.postInc 0)))),
    (0x49F90B, 0, .tst .b ((.lEa .b .write (.preDec 1)))),
    (0x21450D, 0, .cmpAcc .b ((.reg (.alu .a2) (.alu .x1)))),
    (0x484575, 0, .cmpReg .y1 .a ((.lEa .a .read (.postDecN 5)))),
    (0x20400E, 0, .subr .b ((.upd .postDecN 0))),
    (0x204F07, 0, .cmpmAcc .a ((.upd .postIncN 7))),
    (0x4CB567, 0, .cmpmReg .x1 .a ((.yAa (.alu .x0) .write 0x35#6))),
    (0x547018, 0x2FF361, .addAcc .b ((.xEa (.alu .a1) .read (.abs 0x2FF361#24)))),
    (0xC02530, 0, .addXY .y .a ((.xy .write .noUpd .x0 .y0 .read 1 .noUpd 5))),
    (0x154B58, 0, .addReg .y0 .b ((.ry1 .a .x1 .y1 .read (.postIncN 3)))),
    (0x200011, 0, .rnd .a .none),
    (0x237A1A, 0, .addl .b ((.reg (.n 3) (.n 2)))),
    (0x5B0813, 0, .clr .a ((.yAa (.alu .b2) .read 0x8#6))),
    (0x622214, 0, .subAcc .a ((.xAa (.r 2) .read 0x22#6))),
    (0x26BC2C, 0, .subXY .x .b ((.imm 0xBC#8 (.alu .y0)))),
    (0x4D704C, 0xA82CB3, .subReg .x0 .b ((.yEa (.alu .x1) .read (.abs 0xA82CB3#24)))),
    (0x20C615, 0, .maxm ((.reg (.alu .y0) (.alu .y0)))),
    (0x08051D, 0, .max ((.xr2 .a (.postDecN 5)))),
    (0x12A616, 0, .subl .a ((.xr1 .x0 .b .y0 .write (.noUpd 6)))),
    (0x236E1F, 0, .not .b ((.reg (.n 3) (.alu .a)))),
    (0x110039, 0, .adc .y .b ((.xr1 .x0 .a .y1 .read (.postDecN 0)))),
    (0x200022, 0, .asr .a .none),
    (0x089D23, 0, .lsr .a ((.ry2 .a (.postInc 5)))),
    (0x5BD325, 0, .sbc .x .a ((.yEa (.alu .b2) .write (.postDec 3)))),
    (0x11302E, 0x59CA6F, .abs .b ((.xr1 .x0 .a .y1 .read (.abs 0x59CA6F#24)))),
    (0x7EA92F, 0, .ror .b ((.yAa (.n 6) .write 0x29#6))),
    (0xAA3F3A, 0, .asl .b ((.xy .read .postDec .a .a .read 1 .postInc 7))),
    (0x46493B, 0, .lsl .b ((.xEa (.alu .y0) .read (.postIncN 1)))),
    (0x54163E, 0, .neg .b ((.xAa (.alu .a1) .read 0x16#6))),
    (0x081B3F, 0, .rol .b ((.xr2 .a (.postInc 3)))),
    (0x205B6A, 0, .or .x1 .b ((.upd .postInc 3))),
    (0x4E636B, 0, .eor .x1 .b ((.yEa (.alu .y0) .read (.noUpd 3)))),
    (0x200046, 0, .and .x0 .a .none),
    (0x1F09D4, 0, .mpy .y0x0 .a true ((.xr1 .b .b .y1 .read (.postIncN 1))))] = true := by decide +kernel
theorem test_words_multiplies_moves : reads [
    (0x205FBD, 0, .mpyr .y1y0 .b true ((.upd .postInc 7))),
    (0xAB4CE2, 0, .mac .x1y0 .a false ((.xy .read .postDec .a .b .read 2 .postIncN 4))),
    (0x1370FF, 0x60850E, .macr .y1x1 .b true ((.ry1 .a .x0 .b .read (.abs 0x60850E#24)))),
    (0x762B0C, 0, .reservedA .b ((.xAa (.n 6) .read 0x2B#6))),
    (0x081608, 0, .reservedB ((.xr2 .a (.postDec 6)))),
    (0x2A1200, 0, .moveImm 0x12#8 (.alu .a2)),
    (0x232D00, 0, .moveReg (.n 1) (.alu .b1)),
    (0x205300, 0, .moveUpd .postDec 3),
    (0x20233F, 0, .ifcc .pl ((.rol .b))),
    (0x203D62, 0, .ifccU .es ((.or .x1 .a))),
    (0x647000, 0x05F3B7, .moveXEa (.r 4) .read (.abs 0x5F3B7#24)),
    (0x569700, 0, .moveXAa (.alu .a) .write 0x17#6),
    (0x584900, 0, .moveYEa (.alu .a0) .read (.postIncN 1)),
    (0x698C00, 0, .moveYAa (.r 1) .write 0xC#6),
    (0x1CB000, 0xD50900, .moveXR1 .b .a .y0 .write (.abs 0xD50900#24)),
    (0x092500, 0, .moveXR2 .b (.noUpd 5)),
    (0x136000, 0, .moveRY1 .a .x0 .b .read (.noUpd 0)),
    (0x098B00, 0, .moveRY2 .b (.postIncN 3)),
    (0x414900, 0, .moveLEa .b10 .read (.postIncN 1)),
    (0x482900, 0, .moveLAa .a .read 0x29#6),
    (0xFB4000, 0, .moveXY .write .postInc .a .b .read 2 .noUpd 0)] = true := by decide +kernel
theorem test_words_nonparallel_0 : reads [
    (0x015980, 0, .addShort 0x19#6 .a),
    (0x0140C8, 0x686FCC, .addImm .b 0x686FCC#24),
    (0x016F8E, 0, .andShort 0x2F#6 .b),
    (0x0140C6, 0xEBFF2F, .andImm .a 0xEBFF2F#24),
    (0x0054B8, 0, .andi 0x54#8 .mr),
    (0x0C1D52, 0, .aslNum 0x29#6 .a .a),
    (0x0C1E59, 0, .aslBy .x0 .b .b),
    (0x0C1C29, 0, .asrNum 0x14#6 .a .b),
    (0x0C1E77, 0, .asrBy .b1 .b .b),
    (0x0D1046, 0x67DEF1, .bccLong .lc 0x67DEF1#24),
    (0x055488, 0, .bccShort .ec 0x48#9),
    (0x0D1D49, 0, .bccReg .lt 5),
    (0x0B7043, 0x7805ED, .bchgEa 0x3#5 .y (.abs 0x7805ED#24)),
    (0x0B264D, 0, .bchgAa 0xD#5 .y 0x26#6),
    (0x0BB304, 0, .bchgPp 0x4#5 .x 0x33#6),
    (0x017F07, 0, .bchgQq 0x7#5 .x 0x3F#6),
    (0x0BCB41, 0, .bchgReg 0x1#5 (.d (.alu .b2))),
    (0x0A435C, 0, .bclrEa 0x1C#5 .y (.postDecN 3)),
    (0x0A1940, 0, .bclrAa 0x0#5 .y 0x19#6),
    (0x0AA151, 0, .bclrPp 0x11#5 .y 0x21#6),
    (0x012B46, 0, .bclrQq 0x6#5 .y 0x2B#6),
    (0x0AFC44, 0, .bclrReg 0x4#5 (.c .ssh)),
    (0x0A4E38, 0, .bsetEa 0x18#5 .x (.postIncN 6)),
    (0x0A3F3B, 0, .bsetAa 0x1B#5 .x 0x3F#6),
    (0x0ABF72, 0, .bsetPp 0x12#5 .y 0x3F#6),
    (0x013377, 0, .bsetQq 0x17#5 .y 0x33#6),
    (0x0AE27E, 0, .bsetReg 0x1E#5 (.c (.m 2))),
    (0x0B6420, 0, .btstEa 0x0#5 .x (.noUpd 4)),
    (0x0B1478, 0, .btstAa 0x18#5 .y 0x14#6),
    (0x0BA863, 0, .btstPp 0x3#5 .y 0x28#6),
    (0x01682E, 0, .btstQq 0xE#5 .x 0x28#6),
    (0x0BD370, 0, .btstReg 0x10#5 (.d (.r 3)))] = true := by decide +kernel
theorem test_words_nonparallel_1 : reads [
    (0x0D10C0, 0x0BA190, .braLong 0xBA190#24),
    (0x050CC4, 0, .braShort 0x64#9),
    (0x0D1FC0, 0, .braReg 7),
    (0x0C991A, 0x24F514, .brclrEa 0x1A#5 .x (.postInc 1) 0x24F514#24),
    (0x0C9A96, 0x1E32F3, .brclrAa 0x16#5 .x 0x1A#6 0x1E32F3#24),
    (0x0CD317, 0x87318B, .brclrPp 0x17#5 .x 0x13#6 0x87318B#24),
    (0x04915D, 0x715F8B, .brclrQq 0x1D#5 .y 0x11#6 0x715F8B#24),
    (0x0CDB9A, 0x99DE7B, .brclrReg 0x1A#5 (.d (.n 3)) 0x99DE7B#24),
    (0x0C9C2F, 0xC728D5, .brsetEa 0xF#5 .x (.postInc 4) 0xC728D5#24),
    (0x0CA7F1, 0x1D267E, .brsetAa 0x11#5 .y 0x27#6 0x1D267E#24),
    (0x0CD86F, 0x4581CD, .brsetPp 0xF#5 .y 0x18#6 0x4581CD#24),
    (0x049F22, 0x3097BF, .brsetQq 0x2#5 .x 0x1F#6 0x3097BF#24),
    (0x0CD5A0, 0xA0DF73, .brsetReg 0x0#5 (.d (.r 5)) 0xA0DF73#24),
    (0x0D8806, 0x426FD5, .bsclrEa 0x6#5 .x (.postIncN 0) 0x426FD5#24),
    (0x0DA385, 0x8AA975, .bsclrAa 0x5#5 .x 0x23#6 0x8AA975#24),
    (0x0DD417, 0xE9B2EC, .bsclrPp 0x17#5 .x 0x14#6 0xE9B2EC#24),
    (0x04BDCD, 0x7BE80D, .bsclrQq 0xD#5 .y 0x3D#6 0x7BE80D#24),
    (0x0DCC9F, 0x5697E8, .bsclrReg 0x1F#5 (.d (.alu .a1)) 0x5697E8#24),
    (0x0D996D, 0xD6AB78, .bssetEa 0xD#5 .y (.postInc 1) 0xD6AB78#24),
    (0x0DA1E9, 0x6CA2E1, .bssetAa 0x9#5 .y 0x21#6 0x6CA2E1#24),
    (0x0DD372, 0x5E7382, .bssetPp 0x12#5 .y 0x13#6 0x5E7382#24),
    (0x0497F7, 0x8C71EF, .bssetQq 0x17#5 .y 0x17#6 0x8C71EF#24),
    (0x0DD8BD, 0x94A186, .bssetReg 0x1D#5 (.d (.n 0)) 0x94A186#24),
    (0x000212, 0, .brkcc .ne),
    (0x0D100F, 0x6E96CC, .bsccLong .le 0x6E96CC#24),
    (0x05E252, 0, .bsccShort .ls 0x132#9),
    (0x0D1802, 0, .bsccReg .ne 0),
    (0x0D1080, 0x4F65B8, .bsrLong 0x4F65B8#24),
    (0x050893, 0, .bsrShort 0x53#9),
    (0x0D1C80, 0, .bsrReg 4),
    (0x0C1E03, 0, .clb .b .b),
    (0x015285, 0, .cmpShort 0x12#6 .a)] = true := by decide +kernel
theorem test_words_nonparallel_2 : reads [
    (0x0140CD, 0x5B98E4, .cmpImm .b 0x5B98E4#24),
    (0x0C1FFD, 0, .cmpu (.reg .x1) .b),
    (0x000308, 0, .debugcc .cs),
    (0x00000B, 0, .dec .b),
    (0x018060, 0, .div .x1 .a),
    (0x0125B0, 0, .dmac .su ⟨.x0, .x0⟩ .b true),
    (0x066E00, 0xAD502E, .doEa .x (.indexN 6) 0xAD502E#24),
    (0x062F40, 0x905582, .doAa .y 0x2F#6 0x905582#24),
    (0x064F85, 0x8A623D, .doNum 0x54F#12 0x8A623D#24),
    (0x06F000, 0x2D3526, .doReg (.c .vba) 0x2D3526#24),
    (0x066010, 0xE1828D, .dorEa .x (.noUpd 0) 0xE1828D#24),
    (0x061450, 0x0EC73C, .dorAa .y 0x14#6 0xEC73C#24),
    (0x060B9D, 0xF7670B, .dorNum 0xD0B#12 0xF7670B#24),
    (0x06FB10, 0x106602, .dorReg (.c .sp) 0x106602#24),
    (0x066960, 0, .repEa .y (.indexN 1)),
    (0x062820, 0, .repAa .x 0x28#6),
    (0x0649A3, 0, .repNum 0x349#12),
    (0x06D320, 0, .repReg (.d (.r 3))),
    (0x000203, 0xB652F1, .doForever 0xB652F1#24),
    (0x000202, 0x386F67, .dorForever 0x386F67#24),
    (0x016B8B, 0, .eorShort 0x2B#6 .b),
    (0x0140CB, 0x64F642, .eorImm .b 0x64F642#24),
    (0x0C1A1B, 0, .extractBy .y0 .b .b),
    (0x0C1800, 0x898F1B, .extractNum .a .a 0x898F1B#24),
    (0x0C1A95, 0, .extractuBy .a1 .b .b),
    (0x0C1890, 0xE37E5E, .extractuNum .b .a 0xE37E5E#24),
    (0x000009, 0, .inc .b),
    (0x0C1B3B, 0, .insertBy .y0 .b0 .b),
    (0x0C1971, 0x3EE788, .insertNum .y1 .b 0x3EE788#24),
    (0x0EA68A, 0, .jccShort .eq 0x68A#12),
    (0x0AC4A8, 0, .jccEa .cs (.postDecN 4)),
    (0x0A79C9, 0x78B09C, .jclrEa 0x9#5 .y (.preDec 1) 0x78B09C#24)] = true := by decide +kernel
theorem test_words_nonparallel_3 : reads [
    (0x0A169D, 0xEB736E, .jclrAa 0x1D#5 .x 0x16#6 0xEB736E#24),
    (0x0ABD94, 0x046542, .jclrPp 0x14#5 .x 0x3D#6 0x46542#24),
    (0x019996, 0x1BD230, .jclrQq 0x16#5 .x 0x19#6 0x1BD230#24),
    (0x0AFF1E, 0x37A531, .jclrReg 0x1E#5 (.c .lc) 0x37A531#24),
    (0x0A5FB1, 0x823445, .jsetEa 0x11#5 .x (.postInc 7) 0x823445#24),
    (0x0A27F0, 0x2C29D6, .jsetAa 0x10#5 .y 0x27#6 0x2C29D6#24),
    (0x0AB3E5, 0x7C193E, .jsetPp 0x5#5 .y 0x33#6 0x7C193E#24),
    (0x019CE3, 0x7B8C8F, .jsetQq 0x3#5 .y 0x1C#6 0x7B8C8F#24),
    (0x0AFA38, 0x37A8D8, .jsetReg 0x18#5 (.c .omr) 0x37A8D8#24),
    (0x0B7880, 0xCB71FE, .jsclrEa 0x0#5 .x (.preDec 0) 0xCB71FE#24),
    (0x0B2FCF, 0x78FF55, .jsclrAa 0xF#5 .y 0x2F#6 0x78FF55#24),
    (0x0BB59A, 0xB69A03, .jsclrPp 0x1A#5 .x 0x35#6 0xB69A03#24),
    (0x01E990, 0x282B44, .jsclrQq 0x10#5 .x 0x29#6 0x282B44#24),
    (0x0BFA11, 0xE87999, .jsclrReg 0x11#5 (.c .omr) 0xE87999#24),
    (0x0B4AA0, 0x88DA01, .jssetEa 0x0#5 .x (.postIncN 2) 0x88DA01#24),
    (0x0B13A5, 0xD24875, .jssetAa 0x5#5 .x 0x13#6 0xD24875#24),
    (0x0BA2BE, 0x5A0AD4, .jssetPp 0x1E#5 .x 0x22#6 0x5A0AD4#24),
    (0x01FBB3, 0xB195CB, .jssetQq 0x13#5 .x 0x3B#6 0xB195CB#24),
    (0x0BD03A, 0x04DF3E, .jssetReg 0x1A#5 (.d (.r 0)) 0x4DF3E#24),
    (0x0C02E9, 0, .jmpShort 0x2E9#12),
    (0x0AF080, 0xC80AFE, .jmpEa (.abs 0xC80AFE#24)),
    (0x0FF50A, 0, .jsccShort .le 0x50A#12),
    (0x0BE5A9, 0, .jsccEa .lt (.noUpd 5)),
    (0x0D0EF3, 0, .jsrShort 0xEF3#12),
    (0x0BF080, 0xAACA23, .jsrEa (.abs 0xAACA23#24)),
    (0x04C119, 0, .lraReg 1 (.n 1)),
    (0x044058, 0x7635D4, .lraLong (.n 0) 0x7635D4#24),
    (0x0C1E81, 0, .lslNum 0x0#5 .b),
    (0x0C1E18, 0, .lslBy .x0 .a),
    (0x0C1ECF, 0, .lsrNum 0x7#5 .b),
    (0x0C1E3C, 0, .lsrBy .x1 .a),
    (0x04560E, 0, .luaEa .postDec 6 (.alu .a))] = true := by decide +kernel
theorem test_words_nonparallel_4 : reads [
    (0x043148, 0, .luaDisp 0x64#7 1 (.n 0)),
    (0x010AF6, 0, .macNum .x1 0xA#5 .a true),
    (0x0126FE, 0, .macSu .uu ⟨.y0, .x1⟩ .b true),
    (0x0141F2, 0xD3AEBD, .maci .y1 .a false 0xD3AEBD#24),
    (0x0107D3, 0, .macrNum .x0 0x7#5 .a false),
    (0x0141CB, 0x66FBC3, .macri .x0 .b false 0x66FBC3#24),
    (0x0C1B86, 0, .merge .b1 .a),
    (0x0A71C8, 0xFCC72E, .moveXLong 1 .write (.d (.alu .a0)) 0xFCC72E#24),
    (0x0B768D, 0x5776B6, .moveYLong 6 .read (.d (.alu .b1)) 0x5776B6#24),
    (0x038F9D, 0, .moveXShort 0x62#7 7 .write .b1),
    (0x039DA8, 0, .moveYShort 0x66#7 5 .read .a0),
    (0x056466, 0, .movecEa .read .y (.noUpd 4) (.m 6)),
    (0x058D26, 0, .movecAa .write .x 0xD#6 (.m 6)),
    (0x04E0A5, 0, .movecReg .write (.c (.m 0)) (.m 5)),
    (0x0548A5, 0, .movecImm 0x48#8 (.m 5)),
    (0x07708C, 0xFF948D, .movemEa .read (.abs 0xFF948D#24) (.d (.alu .a1))),
    (0x07AA09, 0, .movemAa .write 0x2A#6 (.d (.alu .b0))),
    (0x09F0D1, 0xEDD6E2, .movepPpEa .y .write .y (.abs 0xEDD6E2#24) 0x11#6),
    (0x077052, 0x8BD075, .movepXqqEa .read .y (.abs 0x8BD075#24) 0x12#6),
    (0x070DAE, 0, .movepYqqEa .read .x (.postIncN 5) 0x2E#6),
    (0x08EE57, 0, .movepPpP .x .write (.indexN 6) 0x17#6),
    (0x00C019, 0, .movepQqP .write (.postDecN 0) .x 0x19#6),
    (0x095916, 0, .movepPpReg .y .read (.d (.n 1)) 0x16#6),
    (0x047D9F, 0, .movepXqqReg .read (.c .ssl) 0x1F#6),
    (0x04E724, 0, .movepYqqReg .write (.c (.m 7)) 0x4#6),
    (0x0110F8, 0, .mpyNum .x1 0x10#5 .b false),
    (0x0127FF, 0, .mpySu .uu ⟨.x1, .y1⟩ .b true),
    (0x0141FC, 0xE3A131, .mpyi .y1 .b true 0xE3A131#24),
    (0x0101ED, 0, .mpyrNum .y0 0x1#5 .b true),
    (0x0141CD, 0x5218C4, .mpyri .x0 .b true 0x5218C4#24),
    (0x01DE1D, 0, .norm 6 .b),
    (0x0C1E26, 0, .normf .b1 .a)] = true := by decide +kernel
theorem test_words_nonparallel_5 : reads [
    (0x017982, 0, .orShort 0x39#6 .a),
    (0x0140CA, 0x80ACA8, .orImm .b 0x80ACA8#24),
    (0x001AFB, 0, .ori 0x1A#8 .eom),
    (0x0BEB81, 0, .plock (.indexN 3)),
    (0x00000F, 0x65413A, .plockr 0x65413A#24),
    (0x0AE981, 0, .punlock (.indexN 1)),
    (0x00000E, 0xF76AC9, .punlockr 0xF76AC9#24),
    (0x016F8C, 0, .subShort 0x2F#6 .b),
    (0x0140C4, 0x905FCD, .subImm .a 0x905FCD#24),
    (0x02D000, 0, .tccD .es .other .a),
    (0x034144, 0, .tccDR .nn (.reg .x0) .a 1 4),
    (0x029805, 0, .tccR .lt 0 5),
    (0x000012, 0, .trapcc .ne),
    (0x0BCAD0, 0, .vsl .b true (.postIncN 2)),
    (0x200000, 0, .moveNone),
    (0x000200, 0, .debug),
    (0x00008C, 0, .enddo),
    (0x000005, 0, .illegal),
    (0x000000, 0, .nop),
    (0x000003, 0, .pflush),
    (0x000001, 0, .pflushun),
    (0x000002, 0, .pfree),
    (0x000084, 0, .reset),
    (0x000004, 0, .rti),
    (0x00000C, 0, .rts),
    (0x000087, 0, .stop),
    (0x000006, 0, .trap),
    (0x000086, 0, .wait)] = true := by decide +kernel
/-- The undefined patterns UD2 to UD8 of 95_test_vectors, section 3.10. -/
theorem test_words_undefined : ([0x000007, 0x00008D, 0x200300, 0x44F500, 0x04C4A9] : List Word).all (fun w =>
    match decode w 0 with
    | .ok _ => false
    | .error _ => true) = true := by decide +kernel
theorem test_words_reserved :
    decode 0x200004#24 0 = .ok (.reservedA .a .none) ∧ decode 0x20000C#24 0 = .ok (.reservedA .b .none) ∧
    decode 0x200008#24 0 = .ok (.reservedB .none) := by decide +kernel
theorem test_decodeTableWord : decodeTableWord 24 0xF098D2 = some (.mac .y0x0 .a false (.xy .write .postInc .x0 .y0 .write 0 .postInc 0)) ∧
    decodeTableWord 48 0x000103060380 = some (.doNum 3 0x103) ∧ decodeTableWord 24 0x060380 = some (.doNum 3 0) := by
  decide +kernel

/-! ## Terms that each check of WellFormed refuses, and neighbours it accepts -/

theorem test_wf_moveParallel : Instr.wf (.moveParallel .none) = false := by decide
theorem test_wf_immediate_is_no_destination :
    Instr.wf (.moveXEa (.alu .x0) .read (.imm 5)) = false ∧ Instr.wf (.moveXEa (.alu .x0) .write (.imm 5)) = true := by decide
theorem test_wf_class_two_takes_registers_only : Instr.wf (.moveXR2 .a (.abs 5)) = false ∧ Instr.wf (.moveXR2 .a (.noUpd 1)) = true := by
  decide
theorem test_wf_long_is_alterable : Instr.wf (.moveLEa .x .write (.imm 5)) = false ∧ Instr.wf (.moveLEa .x .write (.abs 5)) = true := by
  decide
theorem test_wf_parallel_move_of_an_operation : Instr.wf (.addAcc .a (.lEa .x .write (.imm 5))) = false ∧
    Instr.wf (.addAcc .a (.lEa .x .write (.abs 5))) = true := by decide
theorem test_wf_bit_operand_is_alterable : Instr.wf (.bsetEa 3 .x (.imm 5)) = false ∧ Instr.wf (.bsetEa 3 .x (.abs 5)) = true := by
  decide
theorem test_wf_bit_jump_takes_registers_only : Instr.wf (.jclrEa 3 .x (.abs 5) 6) = false ∧
    Instr.wf (.jclrEa 3 .x (.preDec 2) 6) = true := by decide
theorem test_wf_multiply_count : Instr.wf (.mpyNum .x0 0 .a false) = false ∧ Instr.wf (.mpyNum .x0 1 .a false) = true ∧
    Instr.wf (.mpyNum .x0 23 .a false) = true ∧ Instr.wf (.mpyNum .x0 24 .a false) = false := by decide
theorem test_wf_reserved_opcode_is_one_word : Instr.wf (.reservedA .a (.xEa (.alu .x0) .write (.abs 5))) = false ∧
    Instr.wf (.reservedA .a (.xEa (.alu .x0) .write (.abs 0))) = true := by decide


/-! ## Witnesses: for each statement with hypotheses, states and operands that meet them, at the ends of their ranges -/

def z : State := State.reset
/-- A state that only differs from the reset state in SR. -/
def withSR (sr : Word) : State := regs (sr := sr)
/-- OMR set. -/
def withOMR (omr : Word) : State := { z with pcu := { z.pcu with omr := omr } }
/-- The instruction `w` and the word `x` after it at the PC. -/
def at100 (w : Word) (x : Word := 0) : State := (here (regs)).withFetchWord 48 (x.toNat * 2 ^ 24 + w.toNat)

theorem inRam_false (s : State) (sp : Space) (a : Word) (h : 65536 ≤ s.mapAddr a) : s.inRam sp a = false := by
  cases sp
  · simp only [State.inRam, decide_eq_false_iff_not]
    have := (Config.xRamSize s.memSwitch.1 s.memSwitch.2).isLt
    omega
  · simp only [State.inRam, decide_eq_false_iff_not]
    have := (Config.yRamSize s.memSwitch.1 s.memSwitch.2).isLt
    omega
theorem dataExternal_true (s : State) (a : Word) (h : 65536 ≤ s.mapAddr a) (m : s.inModules a = false) (i : s.internalIo .x a = false) :
    s.dataExternal .x a = true := by simp [State.dataExternal, inRam_false s .x a h, m, i]
theorem pExternal_true (s : State) (a : Word) (h : 65536 ≤ s.mapAddr a) (r : s.pInModules a = false) :
    s.pExternal a = true := by
  have := (Config.pRamSize s.memSwitch.1 s.memSwitch.2).isLt
  have := Config.icacheStart.isLt
  have h1 : s.inCacheWords a = false := by
    simp only [State.inCacheWords, Bool.and_eq_false_iff, decide_eq_false_iff_not]; right; omega
  have h2 : decide (s.mapAddr a < (Config.pRamSize s.memSwitch.1 s.memSwitch.2).val) = false := by
    simp only [decide_eq_false_iff_not]; omega
  simp [State.pExternal, State.pInRam, r, h1, h2]

theorem witness_Decode_encode : Instr.wf .nop = true ∧ Instr.wf (.addAcc .a (.xEa (.alu .x0) .write (.abs 5))) = true := by decide
theorem witness_Reset_values : ({ z with env := [.resetLow] } : State).env = .resetLow :: [] := rfl
theorem witness_Inv_step : Inv (here (regs (a := 1))) ∧ ∃ t, step (here (regs (a := 1))) = .next t := by
  refine ⟨⟨by decide +kernel, by decide +kernel, OmrOk.sub (by decide +kernel), by decide +kernel, List.Perm.refl _,
    ⟨by decide +kernel, by decide +kernel⟩, fun x h => (by cases h), by decide +kernel⟩, ?_⟩
  have h : (match step (here (regs (a := 1))) with | .next _ => true | .fault _ => false | .refused _ => false) = true := by
    decide +kernel
  generalize step (here (regs (a := 1))) = r at h
  cases r
  · exact ⟨_, rfl⟩
  · cases h
  · cases h
theorem witness_Data_memory_ram : z.internalIo .x 0 = false ∧ z.inRom .x 0 = false ∧ z.inVoid .x 0 = false ∧ z.ebd = false ∧
    z.internalIo .y 0xFEFFFF = false ∧ z.inRom .y 0xFEFFFF = false ∧ z.inVoid .y 0xFEFFFF = false := by decide +kernel
theorem witness_Data_memory_key : z.dataKey .x 1 ≠ z.dataKey .x 0 := by decide +kernel
/-- Two external addresses that differ in bit 18 alone, at either end of what 18 lines reach. -/
theorem witness_Data_memory_lines : z.dataExternal .x 0x03FFFF = true ∧ z.dataExternal .x 0x07FFFF = true ∧
    (0x03FFFF#24).toNat % 2 ^ 18 = (0x07FFFF#24).toNat % 2 ^ 18 ∧ z.dataExternal .y 0x040000 = true ∧ (withSR 0xC02300).sc = true := by
  refine ⟨?_, ?_, by decide, ?_, by decide +kernel⟩ <;> simp only [State.dataExternal] <;>
    rw [inRam_false z _ _ (by decide +kernel)] <;> decide +kernel
theorem witness_Data_memory_rom : ∀ p ∈ [(Space.x, 0xFF0000#24), (.x, 0xFFEFFF), (.y, 0xFF0000), (.y, 0xFFEFFF)],
    z.internalIo p.1 p.2 = false ∧ (z.inRom p.1 p.2 = true ∨ z.inVoid p.1 p.2 = true ∨
      (match p.1 with | .x => Config.xRamAt p.2 | .y => Config.yRamAt p.2) = true) := by
  simp only [List.mem_cons, List.not_mem_nil, or_false, forall_eq_or_imp, forall_eq]
  refine ⟨⟨by decide +kernel, ?_⟩, ⟨by decide +kernel, ?_⟩, ⟨by decide +kernel, ?_⟩, by decide +kernel, ?_⟩ <;>
    simp only [State.inRom, State.inVoid, show z.inModules 0xFF0000 = true by decide +kernel,
      show z.inModules 0xFFEFFF = true by decide +kernel, Bool.true_and]
  · cases Config.xRomAt 0xFF0000 <;> cases Config.xRamAt 0xFF0000 <;> decide
  · cases Config.xRomAt 0xFFEFFF <;> cases Config.xRamAt 0xFFEFFF <;> decide
  · cases Config.yRomAt 0xFF0000 <;> cases Config.yRamAt 0xFF0000 <;> decide
  · cases Config.yRomAt 0xFFEFFF <;> cases Config.yRamAt 0xFFEFFF <;> decide
theorem witness_Data_memory_disabled_bus : (withOMR 0x000310).internalIo .x 0x010000 = false ∧ (withOMR 0x000310).ebd = true ∧
    (withOMR 0x000310).dataExternal .x 0x010000 = true := by
  refine ⟨by decide +kernel, by decide +kernel, ?_⟩
  simp only [State.dataExternal, inRam_false (withOMR 0x000310) .x 0x010000 (by decide +kernel)]
  decide +kernel
theorem witness_Program_memory : z.pInModules 0xFEFFFF = false ∧ z.pInModules 0xFF0000 = true ∧ z.ebd = false ∧
    (withSR 0xC02300).pInModules 0xFF0000 = false := by decide +kernel
theorem witness_Program_memory_disabled_bus : (withOMR 0x000310).ebd = true ∧ (withOMR 0x000310).pExternal 0x010000 = true :=
  ⟨by decide +kernel, pExternal_true _ _ (by decide +kernel) (by decide +kernel)⟩
theorem witness_Program_memory_fetch : ∃ v t, (z.writeP 0 5).fetch 0 = some (v, t) := ⟨_, _, rfl⟩
theorem pPlace_reset (a : Word) (h : a.toNat < 2 ^ 18) : z.pPlace a = (false, a.toNat) := by
  have h1 : z.pInCacheRange a = false := rfl
  have h2 : fewLines a = true := by simp only [fewLines, Bool.or_eq_true, decide_eq_true_eq]; left; omega
  simp [State.pPlace, h1, h2, show z.sc = false by decide +kernel]
theorem witness_Program_memory_places : z.pPlace 1 ≠ z.pPlace 0 := by
  rw [pPlace_reset 1 (by decide), pPlace_reset 0 (by decide)]; decide
/-- The last address that 18 lines reach, and the one that they fold onto it. -/
theorem witness_Program_memory_lines : z.pExternal 0x03FFFF = true ∧ z.pExternal 0x07FFFF = true ∧
    (0x03FFFF#24).toNat % 2 ^ 18 = (0x07FFFF#24).toNat % 2 ^ 18 :=
  ⟨pExternal_true _ _ (by decide +kernel) (by decide +kernel), pExternal_true _ _ (by decide +kernel) (by decide +kernel), by decide⟩
theorem witness_Data_register_write : clash (.d (.alu .x0)) (.d (.alu .a)) = false ∧ clash (.d (.alu .a1)) (.d (.alu .a0)) = false := by
  decide
theorem witness_Accumulator_read : z.sa = false ∧ z.scaling ≠ .reserved ∧ (withSR 0xC20300).sa = true ∧
    (withSR 0xC20300).scaling ≠ .reserved := by decide +kernel
theorem witness_Control_register_write : CReg.m 0 ≠ .sc ∧ CReg.m 0 ≠ .ssh ∧ CReg.m 0 ≠ .sr ∧ z.sen = false ∧
    (withOMR 0x100300).sen = true := by decide +kernel
theorem witness_Control_bytes : omrMask.getLsbD 0 = true ∧ omrMask.getLsbD 20 = true := by
  constructor <;> simp [omrMask]
theorem witness_Effective_addresses : z.sc = false ∧ (∀ n : Fin 8, z.agu.m[n].extractLsb' 0 16 = 0xFFFF#16) ∧
    (0xFF0000#24).extractLsb' 0 16 = 0#16 ∧ (0x00FFFF#24).toNat < 2 ^ 16 := by decide +kernel
/-- Modifiers of three kinds at once: each register steps by its own, R1 in reverse-carry, R2 modulo 4. -/
theorem test_each_register_its_own_modifier :
    let s := (State.wrC (State.wrC z (.m 1) 0) (.m 2) 3)
    let t := (s.setR 1 0x000400).setR 2 0x000103
    t.ea (.postInc 0) = ⟨0, some (0, 1)⟩ ∧ t.ea (.preDec 0) = ⟨0xFFFFFF, some (0, 0xFFFFFF)⟩ ∧
      t.ea (.postInc 1) = ⟨0x000400, some (1, 0x000401)⟩ ∧ t.ea (.postInc 2) = ⟨0x000103, some (2, 0x000100)⟩ := by decide +kernel
/-- In Sixteen-bit Compatibility mode, where bit 15 is the sign of the offset: -1 from the bottom of a buffer of four. -/
theorem witness_Modulo_addresses_SC : (0x000100#24).toNat < 2 ^ 16 ∧ (((0x00FFFF#24).extractLsb' 0 16).signExtend 24).toInt = -1 ∧
    aguStep true 3 0x000100 0x00FFFF false = some 0x000103 ∧ aguStep false 3 0x000100 0x00FFFF false = none := by decide
theorem witness_Modulo_addresses : ∀ p ∈ ([(1, 1), (2, 2), (3, 2), (32767, 15)] : List (Nat × Nat)),
    2 ≤ p.1 + 1 ∧ p.1 + 1 ≤ 2 ^ 15 ∧ p.1 + 1 ≤ 2 ^ p.2 ∧ 2 ^ p.2 < 2 * (p.1 + 1) := by decide
theorem witness_Modulo_addresses_offsets : ((0x000003#24).extractLsb' 0 16).toNat + 1 = 4 ∧ (0x13#24).toNat % 2 ^ 2 < 4 ∧
    (4#24).toInt.natAbs ≤ 4 ∧ (-4#24).toInt.natAbs ≤ 4 ∧ 4 < (8#24).toInt.natAbs ∧ (8#24).toInt % 2 ^ 2 = 0 := by decide
theorem witness_Wrap_around_addresses : ((0x8001#24).extractLsb' 0 16).toNat = 2 ^ 15 + (2 ^ 1 - 1) ∧
    ((0xBFFF#24).extractLsb' 0 16).toNat = 2 ^ 15 + (2 ^ 14 - 1) ∧ (0x00FFFF#24).toNat < 2 ^ 16 := by decide
theorem witness_Alu_frame : dests (.addAcc .a (.xEa (.alu .x0) .read (.postInc 0))) = some [accAsReg .a] ∧
    (∀ q ∈ [accAsReg .a], clash q (.d (.alu .b)) = false) := by decide
theorem witness_Alu_move : dests (.macr .x0x0 .b true (.imm 0x7F (.alu .a))) = some [accAsReg .b] ∧
    ∀ q ∈ [accAsReg .b], clash q (.d (.alu .a)) = false := by decide
theorem witness_Spares : Spares z (.addAcc .a .none) .a ∧ Spares z (.max .none) .b ∧
    Spares z (.addAcc .a (.reg (.alu .a) (.alu .b))) .a ∧
    SparesWord z (.or .x1 .a (.reg (.alu .y1) (.alu .a0))) .a := by
  unfold Spares SparesWord; decide +kernel
theorem witness_Sums : ∃ T, sumTerms z (.addAcc .a .none) = some T ∧ ∃ U, doubledTerms z (.subl .b .none) = some U :=
  ⟨_, rfl, _, rfl⟩
theorem witness_Comparisons : ∃ T, compareTerms z (.cmpmReg .x0 .a .none) = some T := ⟨_, rfl⟩
theorem witness_Transfers : z.cond .ne = true ∧ z.cond .eq = false := by decide +kernel
theorem witness_Products : (∃ d b x, productTerms z (.mpy .x0x0 .a false .none) = some (d, b, x)) ∧
    doubleMode (withSR 0xC04300) = true ∧ ∃ d x, doubleModeTerms (withSR 0xC04300) (.mac .y1x1 .a true .none) = some (d, x) :=
  ⟨⟨_, _, _, rfl⟩, by decide +kernel, _, _, rfl⟩
theorem witness_Rounded_results : (∃ d x, roundTerms z (.rnd .a .none) = some (d, x)) ∧ z.scaling ≠ .reserved :=
  ⟨⟨_, _, rfl⟩, by decide +kernel⟩
theorem witness_Arithmetic_shifts : countedShift z (.aslNum 55 .a .b) = some (true, 55, .a, .b) ∧ z.sa = false ∧
    countedShift (withSR 0xC20300) (.asrNum 40 .a .b) = some (false, 40, .a, .b) ∧ (withSR 0xC20300).sa = true ∧
    countedShift z (.asrNum 0 .a .b) = some (false, 0, .a, .b) := by decide +kernel
theorem witness_Normalization : ((regs (x0 := 56)).shiftSrc .x0).toInt = 56 ∧ ((regs (x0 := -55)).shiftSrc .x0).toInt = -55 ∧
    (regs).sa = false ∧ ((regs (x0 := 40) (sr := 0xC20300)).shiftSrc .x0).toInt = 40 ∧
    ((regs (x0 := -39) (sr := 0xC20300)).shiftSrc .x0).toInt = -39 ∧ (regs (sr := 0xC20300)).sa = true := by decide +kernel
theorem witness_Normalization_NORM : (withSR 0xC00310).sa = false ∧ (withSR 0xC00310).srBit 20 = false ∧
    (withSR 0xC00310).srBit 5 = false ∧ (withSR 0xC00310).srBit 4 = true ∧ (withSR 0xC00310).srBit 2 = false ∧
    (withSR 0xC00320).srBit 5 = true ∧ (withSR 0xC00300).srBit 4 = false := by decide +kernel
theorem witness_Division_step : z.sa = false ∧ z.srBit 20 = false := by decide +kernel
theorem witness_Logic : ∃ d f, logicTerms z (.and .x0 .a .none) = some (d, f) := ⟨_, _, rfl⟩
theorem witness_Logical_shifts : (∃ T, shiftTerms z (.lslNum 24 .a) = some T ∧ T.count ≤ 48 - logicLow z.sa) ∧
    ∃ T, shiftTerms (withSR 0xC20300) (.lsrNum 16 .a) = some T ∧ T.count ≤ 48 - logicLow (withSR 0xC20300).sa :=
  ⟨⟨_, rfl, by decide +kernel⟩, _, rfl, by decide +kernel⟩
theorem witness_Count_and_merge : operandWidth z.sa = 56 ∧ operandWidth (withSR 0xC20300).sa = 40 ∧
    ∀ p ∈ [(false, 56, (1 : AccWord)), (true, 40, 0x100)],
      (∀ k < p.2.1, p.2.1 - (p.2.1 - 1) ≤ k → operandBit p.1 p.2.2 k = p.2.2.msb) ∧
      operandBit p.1 p.2.2 (p.2.1 - 1 - (p.2.1 - 1)) ≠ p.2.2.msb ∧
      (∀ k < p.2.1, p.2.1 - p.2.1 ≤ k → operandBit p.1 (-1) k = (-1 : AccWord).msb) ∧ operandBit p.1 (-1) 0 = true ∧
      ∀ k < p.2.1, operandBit p.1 0 k = false := by decide +kernel
theorem witness_Bit_fields : extraction z (.extractNum .a .b 0x038000) = some (true, 0x038000, .a, .b) ∧ z.sa = false ∧
    fieldAt false 0x038000 = (0, 56) ∧ extraction z (.extractuNum .a .b 0x000037) = some (false, 0x000037, .a, .b) ∧
    fieldAt false 0x000037 = (55, 0) ∧ insertion z (.insertNum .x0 .a 0x018020) = some (0x018020, 0, .a) ∧
    fieldAt false 0x018020 = (32, 24) := by decide +kernel
/-- In Sixteen-bit Arithmetic mode a field of all 40 bits, and INSERT of sixteen at the ends of the number. -/
theorem witness_Bit_fields_SA : (withSR 0xC20300).sa = true ∧ fieldAt true 0x280000 = (0, 40) ∧ fieldAt true 0x101000 = (16, 16) ∧
    fieldAt true 0x102800 = (40, 16) := by decide +kernel
theorem witness_Loads_and_stores : (∃ T, transfer z (.moveXEa (.alu .x0) .write (.imm 5)) = some T ∧ movesMore T.reg = false ∧
      T.load = true) ∧
    ∃ T, transfer z (.movecEa .read .y (.postInc 1) .vba) = some T ∧ movesMore T.reg = false ∧ ∀ a, T.loc ≠ .prog a :=
  ⟨⟨_, rfl, by decide +kernel, by decide +kernel⟩, _, rfl, by decide +kernel, fun a h => by cases h⟩
theorem witness_Load_store_frame : (∃ T, transfer z (.movecImm 5 .la) = none ∧ transfer z (.moveXAa (.r 7) .read 0x3F) = some T ∧
      movesMore T.reg = false ∧ T.load = false ∧ ∀ a, T.loc ≠ .prog a) ∧
    ∃ T, transfer z (.movemAa .write 0 (.c .lc)) = some T ∧ movesMore T.reg = false ∧ T.load = true :=
  ⟨⟨_, rfl, rfl, by decide +kernel, by decide +kernel, fun a h => by cases h⟩, _, rfl, by decide +kernel, by decide +kernel⟩
theorem witness_Conditional_operation : z.cond .ge = true ∧ z.cond .lt = false := by decide +kernel
theorem witness_Pair_moves : z.scaling ≠ .reserved ∧ (withSR 0xC20300).scaling ≠ .reserved ∧ z.ctl.fresh.getLsbD 0 = false ∧
    (let ex := z.eaXY .updX .postInc 0
     let ey := z.eaXY .updY .postInc (yRegOf 0 0)
     (z.inIo ex.addr && z.inIo ey.addr && z.internalIo .y ey.addr) = false) ∧ bothLoad .x0 .y0 .write .write = none := by
  decide +kernel
/-- MOVE A,L:$10 in Sixteen-bit Arithmetic mode stores sixteen bits and sixteen. -/
theorem test_long_store_SA : ran 0x481000 0 (regs (a := 0x00123400567800) (sr := 0xC20300))
    (fun t => (t.readData .x 0x10, t.readData .y 0x10)) = some (0x001234#24, 0x005678#24) := by decide +kernel
theorem witness_Memory_moves : ∃ a b u, blockMove z (.movepPpEa .x .write .y (.imm 5) 0x3F) = some (a, b, u) := ⟨_, _, _, rfl⟩
theorem witness_Bit_changes : (∃ u, bitUse z (.bchgReg 23 (.c .sr)) = some u ∧ u.numbered z ∧ ∃ f, u.eff = .change f) ∧
    ∃ u, bitUse (withSR 0xC20300) (.bsetAa 15 .x 0) = some u ∧ u.numbered (withSR 0xC20300) ∧ ∃ f, u.eff = .change f :=
  ⟨⟨_, rfl, ⟨by decide +kernel, by decide +kernel⟩, _, rfl⟩, _, rfl, ⟨by decide +kernel, by decide +kernel⟩, _, rfl⟩
theorem witness_Bit_tests : (∃ u, bitUse z (.btstReg 0 (.d (.alu .x0))) = some u ∧ u.numbered z) ∧
    (∃ u, bitUse z (.jssetReg 23 (.d (.alu .x0)) 5) = some u ∧ u.numbered z) ∧ z.ctl.ctx = none :=
  ⟨⟨_, rfl, by decide +kernel, by decide +kernel⟩, ⟨_, rfl, by decide +kernel, by decide +kernel⟩, rfl⟩
/-- A bit call taken in a vector word, at either end of the levels. -/
theorem witness_Bit_tests_long_entry : ∀ l ∈ [0#2, 3#2],
    let s := (withSR 0xC20300).withCtx (some ⟨8, l, 0x10, []⟩)
    (∃ u, bitUse s (.bsclrReg 0 (.d (.alu .x0)) 5) = some u ∧ u.numbered s ∧ (bitSource s u.opd).1.getLsbD 0 = false) ∧
    s.ctl.ctx = some ⟨8, l, 0x10, []⟩ :=
  fun _ h => by
    rcases List.mem_cons.1 h with rfl | h
    · exact ⟨⟨_, rfl, ⟨by decide +kernel, by decide +kernel⟩, by decide +kernel⟩, rfl⟩
    · rcases List.mem_singleton.1 h with rfl
      exact ⟨⟨_, rfl, ⟨by decide +kernel, by decide +kernel⟩, by decide +kernel⟩, rfl⟩
theorem witness_Jumps : (∃ F, jumpOf z (.jccShort .ne 5) = some F ∧ F.taken = true) ∧ ∃ F, jumpOf z (.bccShort .eq 5) = some F :=
  ⟨⟨_, rfl, by decide +kernel⟩, _, rfl⟩
theorem witness_Calls : (∃ F, callOf z (.jsccShort .eq 5) = some F ∧ F.taken = false) ∧
    (∃ F, callOf z (.bsrLong 5) = some F ∧ F.taken = true ∧ z.ctl.ctx = none) ∧
    (z.withCtx (some ⟨8, 2, 0x10, []⟩)).ctl.ctx = some ⟨8, 2, 0x10, []⟩ :=
  ⟨⟨_, rfl, by decide +kernel⟩, ⟨_, rfl, rfl, rfl⟩, rfl⟩
theorem witness_Call_and_return_cache_off : z.ce = false := by decide +kernel
theorem witness_Call_and_return : ∃ F, callOf z (.jsrShort 5) = some F ∧ F.taken = true ∧ z.frozen = false ∧ RoomUp z 1 ∧
    RoomUp (z.withSp 14) 1 ∧ SrOk z.pcu.sr :=
  ⟨_, rfl, rfl, rfl, ⟨by decide +kernel, by decide +kernel⟩, ⟨by decide +kernel, by decide +kernel⟩, by decide +kernel⟩
theorem witness_Push_and_pull : z.sen = false := by decide +kernel
/-- A stack of `sc` entries on the chip, with the extension. -/
def extended (sp : Word) (sc : BitVec 5) : State :=
  let s := withOMR 0x100300
  { s with pcu := { s.pcu with sp := sp, sc := sc, sz := 0x000100 } }
/-- A load of SSH that spills an entry, a read of SSH that refills one, and a load of SC that does neither. -/
theorem witness_Load_store_frame_special :
    (∃ T, transfer (extended 20 14) (.movecAa .write .x 0 .ssh) = some T ∧ T.highs (extended 20 14) = [5] ∧
      T.counter (extended 20 14) = some 15) ∧
    (∃ T, transfer (extended 20 2) (.movecAa .read .x 0 .ssh) = some T ∧ T.refills (extended 20 2) = [2]) ∧
    (∃ T, transfer z (.movecAa .write .x 0 .sc) = some T ∧ T.refills z = [] ∧ T.besides z = []) ∧
    ∃ T, transfer z (.movemAa .read 0x3F (.c .omr)) = some T ∧ T.loc = .prog 0x00003F :=
  ⟨⟨_, rfl, by decide +kernel, by decide +kernel⟩, ⟨_, rfl, by decide +kernel⟩, ⟨_, rfl, by decide +kernel, by decide +kernel⟩,
    _, rfl, rfl⟩
theorem witness_Stack_extension : (extended 20 14).sen = true ∧ (extended 20 14).pcu.sc.toNat = 14 ∧
    (extended 5 3).pcu.sc.toNat = 3 ∧ 1 ≤ (extended 5 2).pcu.sc.toNat ∧ (extended 5 2).pcu.sc.toNat ≤ 2 ∧
    (extended 5 2).pcu.sc.toNat < (extended 5 2).pcu.sp.toNat := by decide +kernel
theorem witness_Loop_start : (∃ la src, loopStart z (.doNum 3 5) = some (la, src) ∧ (src (z.push z.pcu.la z.pcu.lc)).1 ≠ 0) ∧
    (∃ la src, loopStart z (.doNum 0 5) = some (la, src) ∧ (src (z.push z.pcu.la z.pcu.lc)).1 = 0) ∧ z.sc = false ∧
    RoomUp z 2 ∧ RoomUp (z.withSp 13) 2 ∧ (withSR 0xC02300).sc = true :=
  ⟨⟨_, _, rfl, by decide +kernel⟩, ⟨_, _, rfl, by decide +kernel⟩, by decide +kernel, ⟨by decide +kernel, by decide +kernel⟩,
    ⟨by decide +kernel, by decide +kernel⟩, by decide +kernel⟩
theorem witness_Loop_exit : (looping 0xC08300).fv = false ∧ (looping 0xC08300).lcIsOne = false ∧ (looping 0xC18300).fv = true ∧
    ((looping 0xC08300).withLc 1).lcIsOne = true ∧ RoomDown (looping 0xC08300) 2 ∧ RoomDown ((looping 0xC08300).withSp 15) 2 ∧
    (looping 0xC08300).cond .ne = true ∧ (looping 0xC08300).cond .eq = false :=
  ⟨by decide +kernel, by decide +kernel, by decide +kernel, by decide +kernel, ⟨by decide +kernel, by decide +kernel, by decide +kernel⟩,
    ⟨by decide +kernel, by decide +kernel, by decide +kernel⟩, by decide +kernel, by decide +kernel⟩
theorem witness_Loop_exit_at_LA : let b := (looping 0xC08300).withPc 0x103
    dests (.inc .a) = some [accAsReg .a] ∧ b.frozen = false ∧ b.ctl.rep = none ∧ b.lf = true ∧
    b.pcu.pc + BitVec.ofNat 24 (Instr.len (.inc .a)) = b.pcu.la + 1 ∧ ∃ t, exec (.inc .a) b = .next t ∧ b.loopEnds (.inc .a) t = true :=
  ⟨by decide +kernel, rfl, rfl, by decide +kernel, by decide +kernel, _, rfl, by decide +kernel⟩
theorem witness_Loop_exit_jump : (∃ F, jumpOf (looping 0xC08300) (.jmpShort 5) = some F ∧ F.taken = true) ∧
    ∃ t, exec (.jmpShort 5) (looping 0xC08300) = .next t := ⟨⟨_, rfl, rfl⟩, _, rfl⟩
theorem coreNext (s : State) (he : s.env = []) (hp : s.ctl.phase = .normal) (ho : s.once.request = false)
    (hd : s.dmaActive = none) (hl : s.ctl.late = []) (hs : s.ctl.spilled = false) : CoreNext s :=
  ⟨he, hp, ho, hd, hl, hs⟩
theorem witness_Repeat_start : (∃ n q, repeatCount z (.repNum 3) = some (n, q) ∧ n ≠ 0) ∧
    (∃ n q, repeatCount z (.repNum 0) = some (n, q) ∧ n = 0) ∧ z.sc = false :=
  ⟨⟨_, _, rfl, by decide +kernel⟩, ⟨_, _, rfl, by decide +kernel⟩, by decide +kernel⟩
/-- In the middle of `REP #2` / `INC A`. -/
def repeating : State := (z.withRep (some ⟨7, some 0x000008⟩)).withLc 2
theorem witness_Repeat_target : let b := (repeating.begin repeating.pcu.pc).withRep none
    CoreNext repeating ∧ repeating.ctl.rep = some ⟨7, some 0x000008⟩ ∧
    FetchesTarget repeating ⟨7, some 0x000008⟩ 0x000008 repeating ∧ decode 0x000008 0 = .ok (.inc .a) ∧
    repeatableInstr (.inc .a) = true ∧ b.hazard (.inc .a) = none ∧ b.corrupted (.inc .a) = none ∧
    ∃ t, exec (.inc .a) b = .next t ∧
      let x := ((t.withLc 1).withPc repeating.pcu.pc).withRep (some ⟨7, some 0x000008⟩)
      b.corruptLast (.inc .a) t = t ∧ t.lcIsOne = false ∧ b.loopEnds (.inc .a) x = false ∧ b.busDenied (.inc .a) x x = false ∧
        b.badResult x = none :=
  ⟨coreNext _ rfl rfl rfl (by decide +kernel) rfl rfl, rfl, .inl ⟨rfl, rfl⟩, by decide +kernel, by decide +kernel,
    by decide +kernel, rfl, _, rfl, by simp only [State.corruptLast, show State.lcIsOne ((repeating.begin repeating.pcu.pc).withRep none) = false by decide +kernel, Bool.and_false]; rfl,
    by decide +kernel, by decide +kernel, rfl, by decide +kernel⟩
/-- The last execution of `REP` / `INC A`, INC A standing at LA of an active loop with LC = 3. -/
def lastAtLa : State := (((looping 0xC08300).withPc 0x103).withRep (some ⟨3, some 0x000008⟩)).withLc 1
theorem witness_Repeat_at_loop_end : let b := (lastAtLa.begin lastAtLa.pcu.pc).withRep none
    CoreNext lastAtLa ∧ lastAtLa.lf = true ∧ lastAtLa.frozen = false ∧ lastAtLa.pcu.pc = lastAtLa.pcu.la ∧
    FetchesTarget lastAtLa ⟨3, some 0x000008⟩ 0x000008 lastAtLa ∧ b.hazard (.inc .a) = none ∧
    ∃ t, exec (.inc .a) b = .next t ∧ t.lcIsOne = true ∧
      let x := t.withLc 3
      b.loopEnds (.inc .a) x = true ∧ b.busDenied (.inc .a) x x.endOfLoop = false ∧ b.badResult x.endOfLoop = none ∧
        x.endOfLoop.pcu.pc = 0x102 ∧ x.endOfLoop.pcu.lc = 2 :=
  ⟨coreNext _ rfl rfl rfl (by decide +kernel) rfl rfl, by decide +kernel, by decide +kernel, by decide +kernel, .inl ⟨rfl, rfl⟩,
    by decide +kernel, _, rfl, by decide +kernel, by decide +kernel, rfl, by decide +kernel, by decide +kernel, by decide +kernel⟩
/-- After `REP #2`, INC A not yet fetched. -/
def toRepeat : State := ((at100 0x000008).withRep (some ⟨7, none⟩)).withLc 2
theorem witness_Repeat_fetch : CoreNext toRepeat ∧ toRepeat.ctl.rep = some ⟨7, none⟩ ∧
    ∃ s1, FetchesTarget toRepeat ⟨7, none⟩ 0x000008 s1 :=
  ⟨coreNext _ rfl rfl rfl (by decide +kernel) rfl rfl, rfl, _, .inr ⟨rfl, rfl, rfl, rfl⟩⟩
theorem witness_System_instructions : z.ctl.phase = .normal ∧ z.once.oscr.getLsbD 1 = false ∧ z.cond .ne = true := by decide +kernel
theorem witness_Cache_commands : (cacheLock z (.plock (.abs 5))).isSome = true ∧ z.ce = false ∧ (withSR 0xC80300).ce = true ∧
    cacheLock (withSR 0xC80300) (.plockr 5) = some (5, true, none) ∧ (withSR 0xC80300).cache.find 5 = none ∧
    (withSR 0xC80300).cache.victim = some 7 ∧ (withSR 0xC80300).cache.find 0xFFFF80 = some 0 := by decide +kernel
/-- In Cache mode, sector 2 holding the memory sector of P:$010080 with its word 5 alone. -/
def cached (omr : Word) (lock : BitVec 8) : State :=
  let s := withSR 0xC80300
  let c := s.cache
  { s with
    pcu := { s.pcu with omr := omr }
    cache := { c with lock := lock, tag := c.tag.set 2 0x00201, valid := c.valid.set 2 0x20, data := c.data.write 261 0x123456 } }
theorem external (s : State) (a : Word) (c : s.sc = false) (h : 0x010000 ≤ a.toNat ∧ a.toNat < 0xFF0000) : s.pExternal a = true :=
  pExternal_true s a (by simp [State.mapAddr, c, h.1]) (by simp [State.pInModules, c, h.2])
theorem witness_Cached_fetch_hit : let s := cached 0x000300 0
    s.ce = true ∧ s.pExternal 0x010085 = true ∧ TagHit s.cache 0x010085 2 ∧ s.cache.valid[(2 : Fin 8)].getLsbD (0x010085 % 128) = true ∧
    s.pExternal 0x010084 = true ∧ TagHit s.cache 0x010084 2 ∧ s.cache.valid[(2 : Fin 8)].getLsbD (0x010084 % 128) = false ∧
    s.ebd = false ∧ (cached 0x000310 0).ebd = true :=
  ⟨by decide +kernel, external _ _ (by decide +kernel) (by decide), ⟨by decide +kernel, by decide +kernel⟩, by decide +kernel,
    external _ _ (by decide +kernel) (by decide), ⟨by decide +kernel, by decide +kernel⟩, by decide +kernel, by decide +kernel,
    by decide +kernel⟩
/-- In a burst, the least recently used sector locked; and all of them locked. -/
def bursting : State := cached 0x000700 0x80
def allLocked : State := cached 0x000300 0xFF
theorem witness_Cached_fetch_miss : bursting.ce = true ∧ bursting.pExternal 0x01FFFC = true ∧ Replaced bursting.cache 0x01FFFC 6 ∧
    bursting.omrBit 10 = true ∧ allLocked.ce = true ∧ allLocked.pExternal 0x01FFFC = true ∧
    (∀ k : Fin 8, allLocked.cache.tag[k] ≠ (0x01FFFC#24).extractLsb' 7 17) ∧
    (∀ k : Fin 8, allLocked.cache.lock.getLsbD k.val = true) ∧ z.ce = false :=
  ⟨by decide +kernel, external _ _ (by decide +kernel) (by decide),
    ⟨by decide +kernel, by decide +kernel, [0, 1, 2, 3, 4, 5], [7], rfl, by decide +kernel⟩, by decide +kernel,
    by decide +kernel, external _ _ (by decide +kernel) (by decide), by decide +kernel, by decide +kernel, by decide +kernel⟩
/-- R543: a word miss in a burst fills the words up to the end of the group of four, a replacement skips the locked sector. -/
theorem test_cached_fetch :
    (∃ w t, bursting.fetch 0x010081 = some (w, t) ∧ t.cache.valid[(2 : Fin 8)] = 0x2E ∧
      t.cache.lru = [2, 0, 1, 3, 4, 5, 6, 7]) ∧
    ∃ w t, bursting.fetch 0x01FFFF = some (w, t) ∧ t.cache.valid[(6 : Fin 8)] = 1#128 <<< 127 ∧ t.cache.lru.head? = some 6 := by
  have e1 := external bursting 0x010081 (by decide +kernel) (by decide)
  have e2 := external bursting 0x01FFFF (by decide +kernel) (by decide)
  have c : bursting.ce = true := by decide +kernel
  simp only [State.fetch, e1, e2, c, Bool.and_self, if_true]
  have f1 : bursting.cache.find 0x010081 = some 2 := by decide +kernel
  have f2 : bursting.cache.find 0x01FFFF = none := by decide +kernel
  have v : bursting.cache.isValid 2 (cacheVbit 0x010081) = false := by decide +kernel
  have e : bursting.ebd = false := by decide +kernel
  have k : bursting.cache.victim = some 6 := by decide +kernel
  simp only [State.fetchCached, f1, f2, v, e, k, Bool.false_eq_true, if_false]
  exact ⟨⟨_, _, rfl, by decide +kernel, by decide +kernel⟩, _, _, rfl, by decide +kernel, by decide +kernel⟩
theorem ready_of (s : State) (h : CoreNext s) (r : s.ctl.rep = none) (c : s.ctl.ctx = none) (a : s.arbitrate = none)
    (p : s.ctl.pdb = []) : Ready s := { toCoreNext := h, rep := r, ctx := c, irq := a, pdb := p }
theorem witness_Step_one_word : ∃ s1 t, Runs (at100 0x000008) (.inc .a) s1 t :=
  ⟨_, _, ready_of _ (coreNext _ rfl rfl rfl (by decide +kernel) rfl rfl) rfl rfl (by decide +kernel) rfl, ⟨_, _, rfl, .inl ⟨by decide +kernel, rfl, rfl⟩⟩, rfl,
    by decide +kernel, rfl, rfl, by decide +kernel⟩
theorem witness_Step_two_words : ∃ s1 t, Runs (at100 0x0140C0 5) (.addImm .a 5) s1 t :=
  ⟨_, _, ready_of _ (coreNext _ rfl rfl rfl (by decide +kernel) rfl rfl) rfl rfl (by decide +kernel) rfl,
    ⟨_, _, rfl, .inr ⟨rfl, ⟨.addImm .a 0, by decide +kernel, rfl⟩, _, rfl, by decide +kernel⟩⟩, rfl,
    by decide +kernel, rfl, rfl, by decide +kernel⟩
theorem witness_Step_refusal : Ready (at100 0x0BC478) ∧ ∃ s1, FetchesInstr (at100 0x0BC478) (.btstReg 24 (.d (.alu .x0))) s1 ∧
    (s1.begin 0x100).hazard (.btstReg 24 (.d (.alu .x0))) = none ∧
    exec (.btstReg 24 (.d (.alu .x0))) (s1.begin 0x100) = .refused .noSuchBit :=
  ⟨ready_of _ (coreNext _ rfl rfl rfl (by decide +kernel) rfl rfl) rfl rfl (by decide +kernel) rfl, _, ⟨_, _, rfl, .inl ⟨by decide +kernel, rfl, rfl⟩⟩,
    by decide +kernel, rfl⟩
/-- ENDDO at its address one word before LA, in a loop. -/
def nearEnd : State := (looping 0xC08300).withFetchWord 24 0x00008C
theorem witness_Step_hazard : Ready nearEnd ∧ ∃ s1, FetchesInstr nearEnd .enddo s1 ∧
    (s1.begin nearEnd.pcu.pc).hazard .enddo = some .nearLoopEnd :=
  ⟨ready_of _ (coreNext _ rfl rfl rfl (by decide +kernel) rfl rfl) rfl rfl (by decide +kernel) rfl,
    _, ⟨_, _, rfl, .inl ⟨by decide +kernel, rfl, rfl⟩⟩, by decide +kernel⟩
/-- MOVE X:$010000,X0 with the bus disabled. -/
def deniedLoad : State := ((withOMR 0x000310).withPc 0x100).withFetchWord 48 0x01000044F000
theorem witness_Step_no_bus_for_data : let i : Instr := .moveXEa (.alu .x0) .write (.abs 0x010000)
    decode 0x44F000 0x010000 = .ok i ∧ deniedLoad.ebd = true ∧ ∃ t, exec i (deniedLoad.begin 0x100) = .next t ∧
      (deniedLoad.begin 0x100).busDenied i t t = true := by
  refine ⟨by decide +kernel, by decide +kernel, _, rfl, ?_⟩
  have h : (deniedLoad.begin 0x100).dataExternal .x 0x010000 = true := by
    simp only [State.dataExternal, inRam_false (deniedLoad.begin 0x100) .x 0x010000 (by decide +kernel)]
    decide +kernel
  simp only [State.busDenied, Bool.and_eq_true, Bool.or_eq_true]
  exact .inl ⟨by decide +kernel, List.any_eq_true.2 ⟨⟨.x, 0x010000, false, false⟩, by decide +kernel, by
    simpa [State.needsBus, State.accessExternal] using h⟩⟩
/-- A MOVEC that clears CE while BE is set. -/
theorem witness_Step_bad_result : let b : State := { withSR 0xC80300 with pcu := { (withSR 0xC80300).pcu with omr := 0x000700 } }
    ∃ t, exec (.movecReg .write (.d (.alu .x0)) .sr) b = .next t ∧ b.badResult t = some .burstCacheDisabled := by
  refine ⟨_, rfl, ?_⟩
  have : (State.wrC (withSR 0xC80300) .sr 0).ce = false := rfl
  decide +kernel
theorem witness_Step_undefined : Ready (at100 0x000007) ∧ (∃ s1, (at100 0x000007).fetch (at100 0x000007).pcu.pc = some (0x000007, s1)) ∧
    decode 0x000007 0 = .error .undefinedPattern ∧ (at100 0x000007).lf = false ∧ (at100 0x000007).tooSoon 0x100 0 = false :=
  ⟨ready_of _ (coreNext _ rfl rfl rfl (by decide +kernel) rfl rfl) rfl rfl (by decide +kernel) rfl, ⟨_, rfl⟩, by decide +kernel, by decide +kernel, rfl⟩
/-- The bus disabled, the PC in external program memory. -/
def cutOff : State := (withOMR 0x000310).withPc 0x010000
theorem witness_Step_no_bus : Ready cutOff ∧ cutOff.fetch cutOff.pcu.pc = none := by
  refine ⟨ready_of _ (coreNext _ rfl rfl rfl (by decide +kernel) rfl rfl) rfl rfl (by decide +kernel) rfl, ?_⟩
  simp only [State.fetch, pExternal_true cutOff cutOff.pcu.pc (by decide +kernel) (by decide +kernel)]
  decide +kernel
theorem witness_Arbitration : z.irq.window = 0 ∧ z.arbitrateUnder 0 = none := by decide +kernel
/-- A Trap is pending. -/
def trapped : State := (regs).setPend 4 true
theorem witness_Interrupts_accept : CoreNext trapped ∧ trapped.ctl.rep = none ∧ trapped.ctl.ctx = none ∧
    trapped.arbitrate = some 4 ∧
    ∃ w1 s1 w2 s2, (trapped.withPdb []).fetch (trapped.pcu.vba.extractLsb' 8 16 ++ BitVec.ofNat 8 (2 * 4)) = some (w1, s1) ∧
      s1.fetch (trapped.pcu.vba.extractLsb' 8 16 ++ BitVec.ofNat 8 (2 * 4 + 1)) = some (w2, s2) :=
  ⟨coreNext _ rfl rfl rfl (by decide +kernel) rfl rfl, rfl, rfl, by decide +kernel, _, _, _, _, rfl, rfl⟩
/-- An interrupt of level 2 with both vector words, INC A, to execute. -/
def inVector : State := z.withCtx (some ⟨8, 2, 0x10, [0x000008, 0x000008]⟩)
theorem witness_Interrupts_vector :
    let b := State.withCtx (inVector.begin 0x10) (some ⟨8, 2, 0x10, [0x000008]⟩)
    CoreNext inVector ∧ inVector.ctl.rep = none ∧ inVector.ctl.ctx = some ⟨8, 2, 0x10, [0x000008, 0x000008]⟩ ∧
    VectorInstr [0x000008, 0x000008] (.inc .a) [0x000008] ∧ (kindOf (.inc .a)).inVector = true ∧
    inVector.wordsTooSoon 0x10 1 = false ∧ b.hazard (.inc .a) = none ∧
    ∃ t, exec (.inc .a) b = .next t ∧ b.busDenied (.inc .a) t t = false ∧ b.badResult t = none :=
  ⟨coreNext _ rfl rfl rfl (by decide +kernel) rfl rfl, rfl, rfl, ⟨0x000008, .inl ⟨rfl, by decide +kernel, rfl⟩⟩, by decide +kernel,
    rfl, by decide +kernel, _, rfl, rfl, by decide +kernel⟩
/-- A Trap accepted, the second word of its vector still to be fetched. -/
def halfFetched : State := (trapped.withCtx (some ⟨4, 3, 8, [0x000008]⟩)).withLate [.vector 9]
theorem witness_Interrupts_second_word : (∃ w1 s1 w2 s2,
      (trapped.withPdb []).fetch (trapped.pcu.vba.extractLsb' 8 16 ++ BitVec.ofNat 8 (2 * 4)) = some (w1, s1) ∧
      s1.fetch (trapped.pcu.vba.extractLsb' 8 16 ++ BitVec.ofNat 8 (2 * 4) + 1) = some (w2, s2)) ∧
    halfFetched.env = [] ∧ halfFetched.ctl.phase = .normal ∧ halfFetched.dmaActive = none ∧ halfFetched.ctl.late = [.vector 9] ∧
    halfFetched.ctl.ctx = some ⟨4, 3, 8, [0x000008]⟩ ∧ ∃ w s2, (halfFetched.withLate []).fetch 9 = some (w, s2) :=
  ⟨⟨_, _, _, _, rfl, rfl⟩, rfl, rfl, by decide +kernel, rfl, rfl, _, _, rfl⟩
theorem witness_Interrupts_vector_pair : VectorInstr [0x0140C0, 5] (.addImm .a 5) [] :=
  ⟨0x0140C0, .inr ⟨rfl, ⟨.addImm .a 0, by decide +kernel, rfl⟩, 5, rfl, by decide +kernel⟩⟩
/-- IRQA falls while IPRC makes it edge-triggered and enabled. -/
theorem witness_Interrupt_pins : let s : State := { z with env := [.pin .irqa false], irq := { z.irq with iprc := 0x000007 } }
    s.env = .pin .irqa false :: [] ∧ s.irq.pins.getLsbD 0 = true ∧ s.irq.iprc.getLsbD 2 = true ∧
    (∃ t, step s = .next t ∧ t.irq.pend.getLsbD 8 = true) ∧ ({ z with env := [.pin .nmi false] } : State).env = .pin .nmi false :: [] :=
  ⟨rfl, by decide +kernel, by decide +kernel, ⟨_, rfl, by decide +kernel⟩, rfl⟩
theorem witness_Wait_and_stop : z.env = [] ∧ (z.withPhase .wait).ctl.phase = .wait ∧ (z.withPhase .stop).ctl.phase = .stop ∧
    z.once.request = false ∧ z.irq.de = true ∧ ({ z with irq := { z.irq with de := false } } : State).irq.de = false ∧
    ({ z with once := { z.once with request := true } } : State).once.request = true ∧
    z.once.oscr.getLsbD 1 = false := by decide +kernel
/-- Channel 0 has a word to move from address 5 to address $100, with this DCR and counter. -/
def movingBy (dcr dco : Word) : State :=
  { z with dma := { z.dma with ch := z.dma.ch.set 0 { z.dma.ch[0] with
      dcr := dcr, dsr := 5, ddr := 0x100, dco := dco, trig := true } } }
/-- From X to Y with post-increment addresses, counter mode A. -/
def moving (dco : Word) : State := movingBy 0xC002D4 dco
/-- From program memory by a two-dimensional address with DOR1, counter mode B, to X without an update. -/
def movingP (dco : Word) : State := movingBy 0xC00212 dco
/-- From Y to program memory: the source post-incremented, the destination three-dimensional with DOR2 and DOR3, counter mode E. -/
def moving3 (dco : Word) : State := movingBy 0xC006E9 dco
/-- The address and counter modes of those, and at either end of their codes. -/
theorem witness_Dma_word_modes :
    [0xC002D4, 0xC00212, 0xC006E9, 0xC00400, 0xC00790, 0xC00000, 0xC00060, 0xC00330, 0xC00430].map dmaCodes =
      [some (5, 5, 24, 0), some (1, 4, 12, 0), some (5, 7, 12, 6), some (6, 0, 6, 6), some (6, 7, 6, 12), some (0, 0, 12, 0),
        none, none, none] := by decide +kernel
/-- A counter at each level: two words of a line left, the end of a line, of a plane, of the block. -/
theorem witness_Dma_word_levels : levelAt 6 (dmaFields 12 6 0x041002) = 0 ∧ levelAt 6 (dmaFields 12 6 0x041000) = 1 ∧
    levelAt 6 (dmaFields 12 6 0x040000) = 2 ∧ levelAt 6 (dmaFields 12 6 0) = 3 ∧ levelAt 0 (dmaFields 12 0 0x001000) = 1 ∧
    levelAt 0 (dmaFields 24 0 0xFFF000) = 0 := by decide +kernel
theorem witness_Dma_word (dco : Word) : ∀ q ∈ [(moving dco, DmaSpace.data .x, DmaSpace.data .y), (movingP dco, .program, .data .x),
      (moving3 dco, .data .y, .program)],
    q.1.env = [] ∧ q.1.ctl.phase = .normal ∧ q.1.once.request = false ∧ q.1.dma.ch[0].upset = false ∧
    q.1.dma.held = none ∧ q.1.dma.ch[0].stopping = false ∧ (dcrDtm q.1.dma.ch[0].dcr).toNat < 6 ∧
    q.1.dma.ch[0].dcr.extractLsb' 0 4 = spaceCode q.2.2 ++ spaceCode q.2.1 ∧ ∀ j : Fin 4, q.1.port.aar[j] = 0 := by
  simp only [List.mem_cons, List.not_mem_nil, or_false, forall_eq_or_imp, forall_eq]
  have k (d : Word) : (movingBy d dco).dma.ch[0].dcr = d := rfl
  have p : ∀ j : Fin 4, z.port.aar[j] = 0 := by decide +kernel
  refine ⟨⟨rfl, rfl, rfl, rfl, rfl, rfl, ?_, ?_, p⟩, ⟨rfl, rfl, rfl, rfl, rfl, rfl, ?_, ?_, p⟩,
    rfl, rfl, rfl, rfl, rfl, rfl, ?_, ?_, p⟩ <;> simp only [moving, movingP, moving3, k] <;> decide
theorem active (d dco : Word) (h : ((channelsAfter (movingBy d dco).dma.last).filter fun n => (movingBy d dco).dma.ch[n].ready) = [0]) :
    (movingBy d dco).dmaActive = some 0 := by
  unfold State.dmaActive State.pickOf
  simp only [show (movingBy d dco).dma.held = none from rfl]
  rw [h]
  simp only [List.foldl_cons, List.foldl_nil, Nat.zero_max, List.filter_cons, beq_self_eq_true, if_true, List.filter_nil]
  split
  · rename_i hf
    exact (List.mem_singleton.1 (List.mem_of_find?_eq_some hf)) ▸ rfl
  · rfl
theorem witness_Dma_word_active : (moving 0).dmaActive = some 0 ∧ (moving 1).dmaActive = some 0 ∧ (movingP 0x001000).dmaActive = some 0 ∧
    (moving3 0x040000).dmaActive = some 0 :=
  ⟨active _ _ (by decide +kernel), active _ _ (by decide +kernel), active _ _ (by decide +kernel), active _ _ (by decide +kernel)⟩
/-- The word has been read. -/
def held (dco : Word) : State := (moving dco).dmaLoad 0 7
def held3 (dco : Word) : State := (moving3 dco).dmaLoad 0 7
theorem witness_Dma_word_held (dco : Word) : (held dco).dma.held = some (0, 7) ∧ (held dco).dmaActive = some 0 ∧
    (held3 dco).dma.held = some (0, 7) ∧ (held3 dco).dmaActive = some 0 := ⟨rfl, rfl, rfl, rfl⟩
theorem plainData (s : State) (sp : Space) (a : Word) (h : s.internalIo sp a = false) (m : s.inModules a = false) (e : s.ebd = false) :
    PlainData s sp a := ⟨h, by simp [State.inRom, m], by simp [State.inVoid, m], by simp [e]⟩
theorem witness_Dma_word_places : PlainPlace (moving 0) (.data .x) 5 ∧ PlainPlace (held 0) (.data .y) 0x100 ∧
    PlainPlace (movingP 0x001000) .program 5 ∧ PlainPlace (held3 0x040000) .program 0x100 :=
  ⟨plainData _ _ _ (by decide +kernel) (by decide +kernel) (by decide +kernel),
    plainData _ _ _ (by decide +kernel) (by decide +kernel) (by decide +kernel),
    ⟨by decide +kernel, Bool.and_eq_false_iff.2 (.inl (by decide +kernel))⟩,
    by decide +kernel, Bool.and_eq_false_iff.2 (.inl (by decide +kernel))⟩
theorem witness_Dma_word_reserved : (movingBy 0xF002D4 0).dma.ch[0].upset = false ∧ 6 ≤ (dcrDtm (movingBy 0xF002D4 0).dma.ch[0].dcr).toNat ∧
    (movingBy 0xC002D7 0).dma.ch[0].dcr.extractLsb' 0 2 = 3#2 := by decide +kernel
theorem witness_Core_registers : z.ctl.echo = [] ∧ z.dmaActive = none ∧ (held 1).dmaInTransfer = true ∧ dcrDe z.dma.ch[0].dcr = false ∧
    dcrDe (moving 0).dma.ch[0].dcr = true ∧ dcrDe 0x400000 = false ∧ dcrDie 0x400000 = true := by decide +kernel
/-- The host is about to enter Update-DR with a data word for a OnCE register. -/
def scanning (rs : BitVec 5) : State :=
  { z with env := [.tck true false], once := { z.once with ocr := rs.setWidth 8 }
           jtag := { z.jtag with tap := .exit1Dr, ir := 0b0110, dr := 5, dataScan := true } }
theorem witness_Debug_port_scan : (scanning 13).env = [.tck true false] ∧ (scanning 13).jtag.tap = .exit1Dr ∧
    (scanning 13).jtag.ir = 0b0110#4 ∧ (∃ t, (scanning 13).onceWrite 13 5 = some t) ∧ (scanning 3).onceWrite 3 5 = none :=
  ⟨rfl, rfl, rfl, ⟨_, rfl⟩, rfl⟩
/-- The host is about to enter Update-DR with the command `cmd`. -/
def commanding (cmd : BitVec 32) : State :=
  { z with env := [.tck true false], jtag := { z.jtag with tap := .exit1Dr, ir := 0b0110, dr := cmd, dataScan := false } }
theorem witness_Debug_port_command : (commanding 0x8D).env = [.tck true false] ∧ (commanding 0x8D).jtag.tap = .exit1Dr ∧
    (commanding 0x8D).jtag.ir = 0b0110#4 ∧ (commanding 0x8D).jtag.dataScan = false ∧ (0x8D#8).extractLsb' 0 5 ≠ 31#5 ∧
    (∃ v, (commanding 0x8D).onceRead 13 = some v) ∧ (commanding 0x83).onceRead 3 = none ∧ (0x83#8).getLsbD 7 = true :=
  ⟨rfl, rfl, rfl, rfl, by decide, ⟨_, rfl⟩, rfl, by decide⟩
/-- A reserved register select is refused when its command is scanned, for a read and for a write. -/
theorem test_reserved_select_refused : ([0x83, 0x03, 0x9E, 0x1E] : List (BitVec 32)).all (fun c =>
    match step (commanding c) with
    | .refused r => r == .reservedOnceCode
    | .fault _ => false
    | .next _ => false) = true := by decide +kernel
/-- The trace buffer of two changes of flow reads from the oldest entry to the address of the last executed instruction. -/
theorem test_trace_buffer_order :
    let s : State := { z with once := { z.once with lastPc := 3, trace := [4, 3], tracePtr := 9 } }
    (s.onceRead 18, (s.onceAfterRead 18).onceRead 18, ((s.onceAfterRead 18).onceAfterRead 18).onceRead 18) =
      (some 3, some 4, some 6) := by decide +kernel
theorem witness_Debug_port_request : let s := z.requestDebug 2
    s.env = [] ∧ s.ctl.phase = .normal ∧ s.once.request = true ∧ s.ctl.late = [] ∧ s.ctl.spilled = false ∧ s.once.oscr.getLsbD 1 = false :=
  ⟨rfl, rfl, rfl, rfl, rfl, by decide +kernel⟩
/-- INC A at the PC, with these OnCE registers. -/
def watched (oscr obcr : Word) : State :=
  let s := at100 0x000008
  { s with once := { s.once with oscr := oscr, obcr := obcr, omlr0 := 0x100 } }
theorem witness_Debug_port_trace : (∃ s1 t, Runs (watched 1 0) (.inc .a) s1 t) ∧ dests (.inc .a) = some [accAsReg .a] ∧
    (watched 1 0).once.later = false :=
  ⟨⟨_, _, ready_of _ (coreNext _ rfl rfl rfl (by decide +kernel) rfl rfl) rfl rfl (by decide +kernel) rfl,
    ⟨_, _, rfl, .inl ⟨by decide +kernel, rfl, rfl⟩⟩, rfl, by decide +kernel, rfl, rfl, by decide +kernel⟩, by decide, rfl⟩
/-- A branch at the PC. -/
theorem witness_Debug_port_trace_flow : (∃ s1 t, Runs (at100 0x050FDE) (.braShort 0x1FE) s1 t ∧
    ∃ F, jumpOf (s1.begin 0x100) (.braShort 0x1FE) = some F ∧ F.taken = true) ∧ z.once.tracePtr = 0 :=
  ⟨⟨_, _, ⟨ready_of _ (coreNext _ rfl rfl rfl (by decide +kernel) rfl rfl) rfl rfl (by decide +kernel) rfl,
    ⟨_, _, rfl, .inl ⟨by decide +kernel, rfl, rfl⟩⟩, rfl, by decide +kernel, rfl, rfl, by decide +kernel⟩, _, rfl, rfl⟩, rfl⟩
theorem witness_Debug_port_breakpoint : (∃ s1 t, Runs (watched 0 0x000419) (.inc .a) s1 t) ∧
    (watched 0 0x000419).once.omlr0 = (watched 0 0x000419).pcu.pc :=
  ⟨⟨_, _, ready_of _ (coreNext _ rfl rfl rfl (by decide +kernel) rfl rfl) rfl rfl (by decide +kernel) rfl,
    ⟨_, _, rfl, .inl ⟨by decide +kernel, rfl, rfl⟩⟩, rfl, by decide +kernel, rfl, rfl, by decide +kernel⟩, by decide +kernel⟩
theorem witness_Debug_port_injected : let s := z.withPhase .debug
    s.ctl.phase = .debug ∧ s.ctl.late = [] ∧ s.dmaActive = none ∧ s.env = [] ∧ s.sc = false ∧
    s.misusesExtension (.inc .a) = false ∧ (∃ t, exec (.inc .a) s = .next t ∧ s.busDenied (.inc .a) t t = false ∧ s.badResult t = none) ∧
    (∃ t, exec (.braLong 0x20) s = .next t ∧ s.busDenied (.braLong 0x20) t t = false ∧ s.badResult t = none) ∧
    (∃ F, jumpOf s (.braLong 0x20) = some F ∧ F.taken = true) ∧
    ∃ t, exec (.lraLong (.r 0) 0x20) s = .next t ∧ s.busDenied (.lraLong (.r 0) 0x20) t t = false ∧ s.badResult t = none :=
  ⟨rfl, rfl, by decide +kernel, rfl, by decide +kernel, by decide +kernel, ⟨_, rfl, rfl, by decide +kernel⟩,
    ⟨_, rfl, rfl, by decide +kernel⟩, ⟨_, rfl, rfl⟩, _, rfl, rfl, by decide +kernel⟩
/-- R641: LRA and JSR injected while the core stands between two vector words see the PC of the halted program. -/
theorem test_injected_sees_the_PC :
    let s := ((here (regs)).withCtx (some ⟨8, 2, 0x10, [0x000008]⟩)).withPhase .debug
    (∃ t, runInjected (.lraLong (.r 0) 0x20) s = .next t ∧ t.agu.r[0] = 0x120) ∧
    ∃ t, runInjected (.jsrShort 0x40) s = .next t ∧ t.ssh = 0x100 ∧ t.pcu.pc = 0x40 :=
  ⟨⟨_, rfl, by decide +kernel⟩, _, rfl, by decide +kernel, by decide +kernel⟩
theorem witness_Processing_state : ∃ t, exec .nop z = .next t ∧ changesPhase .nop = false := ⟨_, rfl, rfl⟩
theorem witness_Completion_refusals : (∃ u, bitUse z (.btstReg 24 (.d (.alu .x0))) = some u ∧ 24 ≤ u.n.toNat) ∧
    ∃ u, bitUse (withSR 0xC20300) (.btstReg 16 (.d (.alu .x0))) = some u ∧ 16 ≤ u.n.toNat ∧ u.n.toNat < 24 ∧
      (withSR 0xC20300).sa = true :=
  ⟨⟨_, rfl, by decide +kernel⟩, _, rfl, by decide +kernel, by decide +kernel, by decide +kernel⟩
theorem witness_Completion : (∀ u, bitUse z .nop = some u → u.numbered z) ∧
    (∀ la, Instr.nop ≠ .doReg (.c .ssh) la ∧ Instr.nop ≠ .dorReg (.c .ssh) la) ∧
    ∀ u, bitUse z (.btstReg 23 (.d (.alu .x0))) = some u → u.numbered z :=
  ⟨fun u h => (by cases h), fun la => ⟨fun h => (by cases h), fun h => (by cases h)⟩,
    fun u h => (by cases h; exact ⟨by decide +kernel, by decide +kernel⟩)⟩

/-! ## Cases that a review has asked for -/

/-- The last instruction of the last pass of a loop, one entry of the stack on the chip, EP just above the end of internal RAM's
reach, the bus disabled. -/
def endingExtended : State :=
  { looping 0xC08300 with
    agu := { z.agu with ep := 0x010002 }
    pcu := { (looping 0xC08300).pcu with pc := 0x103, omr := 0x100310, sp := 20, sc := 1, lc := 1 } }
/-- R29: the refill at the end of a loop needs the external bus, which EBD has switched off. -/
theorem test_loop_end_refill_needs_bus : ∃ t, exec (.inc .a) endingExtended = .next t ∧ endingExtended.loopEnds (.inc .a) t = true ∧
    endingExtended.busDenied (.inc .a) t (endingExtended.loopTest (.inc .a) t) = true := by
  refine ⟨_, rfl, by decide +kernel, ?_⟩
  simp only [State.busDenied, Bool.and_eq_true, Bool.or_eq_true]
  refine .inr ⟨by decide +kernel, List.any_eq_true.2 ⟨⟨.x, 0x010000, false, false⟩, by decide +kernel, ?_⟩⟩
  simp only [State.needsBus, State.accessExternal, Bool.and_eq_true]
  exact ⟨dataExternal_true _ _ (by decide +kernel) (by decide +kernel) (by decide +kernel), by decide +kernel⟩
/-- R29: a bit jump on SSH one word before LA pulls an entry, and the end of its loop two more: EP goes down by 6, and the external
bus that the last of them need is off. -/
theorem test_loop_end_after_pull_needs_bus : let i : Instr := .brclrReg 0 (.c .ssh) 0x10
    let b : State := { endingExtended with
      agu := { z.agu with ep := 0x010006 }
      pcu := { endingExtended.pcu with pc := 0x102, sc := 1, ssh := endingExtended.pcu.ssh.set 4 1 } }
    ∃ t, exec i b = .next t ∧ b.loopEnds i t = true ∧ (b.loopTest i t).agu.ep = 0x010000 ∧
      (b.stackAccesses i t).length = 2 ∧ (t.stackMoves (b.loopTest i t)).length = 4 := by
  refine ⟨_, rfl, by decide +kernel, by decide +kernel, by decide +kernel, by decide +kernel⟩
/-- R29: an instruction that has switched the bus off at the end of a loop; the end of the loop finds it off. -/
theorem test_bus_disabled_at_loop_end :
    let b : State := { endingExtended with pcu := { endingExtended.pcu with omr := 0x100300 } }
    b.ebd = false ∧ b.busDenied (.ori 0x10 .com) endingExtended endingExtended.endOfLoop = true := by
  refine ⟨by decide +kernel, ?_⟩
  simp only [State.busDenied, Bool.and_eq_true, Bool.or_eq_true]
  refine .inr ⟨by decide +kernel, List.any_eq_true.2 ⟨⟨.x, 0x010000, false, false⟩, by decide +kernel, ?_⟩⟩
  simp only [State.needsBus, State.accessExternal, Bool.and_eq_true]
  exact ⟨dataExternal_true _ _ (by decide +kernel) (by decide +kernel) (by decide +kernel), by decide +kernel⟩
/-- R64: MOVE SSH,SC with 15 in SSH: the entry that the pull brings back is spilled again. -/
theorem test_move_ssh_to_sc : let b : State := { extended 20 2 with pcu := { (extended 20 2).pcu with ssh := z.pcu.ssh.set 4 15 } }
    ∃ t, exec (.movecReg .read (.c .sc) .ssh) b = .next t ∧ t.agu.ep = b.agu.ep ∧
      (b.stackAccesses (.movecReg .read (.c .sc) .ssh) t).map Access.isWrite = [false, false, true, true] :=
  ⟨_, rfl, by decide +kernel, by decide +kernel⟩
/-- R707: DE cleared and set again while a word is in flight leaves the channel going. -/
theorem test_dma_enabled_again :
    let t := ((held 1).writeDcr 0 0x4002D4).writeDcr 0 0xC002D4
    t.dma.ch[0].upset = false ∧ t.dma.ch[0].stopping = true ∧ dcrDe t.dma.ch[0].dcr = true ∧ t.dma.dtd.getLsbD 0 = false := by
  decide +kernel
/-- R633: TO is set on any entry with the trace counter at zero and Trace mode enabled. -/
theorem test_trace_occurrence_on_entry :
    (State.acknowledge { z with once := { z.once with oscr := 1, otc := 0, request := true, asked := 2 } }).once.cause = 6#3 ∧
    (State.acknowledge { z with once := { z.once with oscr := 1, otc := 1, request := true, asked := 2 } }).once.cause = 2#3 := by
  decide +kernel
/-- R749: the latched word, in a place written just before; a GO without EX does not execute it either. -/
theorem test_latched_word_too_soon :
    let s : State := { (z.withPhase .debug).notePWrite 0x100 with once := { z.once with opabex := 0x100, opilr := z.readP 0x100 } }
    s.latchTooSoon 0 1 = true ∧ onceGo false 0 s = .refused .executedTooSoon := by
  have h : ∀ n, State.latchTooSoon
      { (z.withPhase .debug).notePWrite 0x100 with once := { z.once with opabex := 0x100, opilr := z.readP 0x100 } } 0 n = true := by
    intro n
    show (!false && (([((z.pPlace 0x100).1, (z.pPlace 0x100).2, 0)].any fun p : Bool × Nat × Nat =>
      (p.1, p.2.1) == z.pPlace 0x100 && decide (p.2.2 + 0 < 7)) && (z.readP 0x100 == z.readP 0x100) || _)) = true
    rw [pPlace_reset 0x100 (by decide)]
    simp
  refine ⟨h 1, ?_⟩
  simp only [onceGo, State.landAll]
  exact (if_neg (by decide)).trans ((if_neg (by decide)).trans (if_pos (h _)))
/-- R768: the repetitions of a target are one word of the program. -/
theorem test_repetitions_are_one_word : (z.nearAfter .nop 0) = [] ∧ (z.nearAfter .nop 1) = [.nop] ∧
    (z.nearAfter (.repNum 0) 1) = [.nop, .repNum 0] := by decide +kernel
/-- R749: the word that a REP of nothing leaves out counts as fetched. -/
theorem test_word_left_out_counts :
    let s : State := { z with ctl := { z.ctl with hist := { z.ctl.hist with pWrites := [(false, 9, 2)] } } }
    (z.remember (.repNum 0) 1 s).ctl.hist.pWrites = [(false, 9, 4)] ∧ (z.remember .nop 1 s).ctl.hist.pWrites = [(false, 9, 3)] := by
  decide +kernel
/-- U17: OMR[MS] changed in Cache mode, and STOP while a DMA channel is active. -/
theorem test_memory_switch_in_cache_mode : ∃ t, exec (.ori 0x80 .com) (withSR 0xC80300) = .next t ∧
    (withSR 0xC80300).badResult t = some .memorySwitchInCacheMode := by
  refine ⟨_, rfl, ?_⟩
  have h : omrMask.getLsbD 7 = true := by simp [omrMask]
  simp only [State.badResult]
  rw [if_neg (by decide +kernel), if_pos]
  rw [Bool.and_eq_true, bne_iff_ne]
  refine ⟨by decide +kernel, ?_⟩
  show z.pcu.omr.getLsbD 7 ≠ (_ &&& omrMask).getLsbD 7
  rw [BitVec.getLsbD_and, h]
  decide +kernel
theorem test_stop_in_the_middle_of_a_transfer : ∃ t, exec .stop (held 0) = .next t ∧
    (held 0).badResult t = some .stopWithDmaActive := ⟨_, rfl, by decide +kernel⟩
/-- R582: a trigger that is merely latched does not bar STOP, which clears it. -/
theorem test_stop_clears_latched_trigger : (moving 0).dma.ch[0].trig = true ∧ ∃ t, exec .stop (moving 0) = .next t ∧
    (moving 0).badResult t = none ∧ t.dma.ch[0].trig = false := ⟨rfl, _, rfl, by decide +kernel, by decide +kernel⟩
/-- R141: the echo of a core register fades over injected instructions too. -/
theorem test_echo_fades_in_debug_mode :
    let s : State := { z.withPhase .debug with ctl := { (z.withPhase .debug).ctl with echo := [⟨0x74, 1, 0, 2⟩, ⟨0x75, 1, 0, 1⟩] } }
    ∃ t, runInjected .nop s = .next t ∧ t.ctl.echo = [⟨0x74, 1, 0, 1⟩] := ⟨_, rfl, by decide +kernel⟩
/-- R140, R562: the second vector word, fetched in a step of its own; the flag is cleared with it. -/
theorem test_second_vector_word (s t : State) (c : IntCtx) (a w : Word) (h : s.fetch a = some (w, t)) (hc : s.ctl.ctx = some c)
    (k : c.src = 9) : (s.land (.vector a)).ctl.ctx = some { c with words := c.words.take 1 ++ [w] } ∧
      (s.land (.vector a)).irq.pend.getLsbD 9 = false := by
  simp [State.land, State.landVector, h, hc, k, State.withCtx, State.clearAccepted, State.setPend, setBit]
/-- R112, R709: the store of a BSET in external memory, still to be made: another bus master waits for it, the DMA does not. -/
theorem test_locked_store : let s : State := { z with ctl := { z.ctl with late := [.store .x 0x010000 7 true] }, env := [.busWrite 1 0x010000 9] }
    s.busLocked = true ∧ ∃ t, step s = .next t ∧ t.env = s.env ∧ t.mem.x = [(0x010000, 7)] ∧ t.busLocked = false :=
  ⟨by decide +kernel, _, rfl, rfl, by decide +kernel, by decide +kernel⟩
/-- R470: BSCLR in the Stack Error vector is barred only if it is taken; JSCLR in any case. -/
theorem test_bit_calls_in_stack_error_vector :
    let s : State := ({ withOMR 0x100300 with alu := { z.alu with x0 := 1 } } : State).withCtx (some ⟨1, 3, 2, []⟩)
    s.misusesExtension (.bsclrReg 0 (.d (.alu .x0)) 5) = false ∧ s.misusesExtension (.bsclrReg 1 (.d (.alu .x0)) 5) = true ∧
      s.misusesExtension (.jsclrReg 0 (.d (.alu .x0)) 5) = true := by decide +kernel

end Sys2Proof.Tests
end

section
/-!
Reset (10_state R90) and the memory-mapped core registers (10_state R65; 62_devices R670 to R711).
-/
namespace Sys2Proof.Machine

variable (s : State)

/-! ## Reset -/

/-- Neither the level of the RESET pin nor the counter of free values is among the reset values. -/
theorem AfterReset.tick_withRst {t : State} (h : AfterReset t) (b : Bool) :
    AfterReset ({ t with irq := { t.irq with rst := b } } : State).tick :=
  ⟨h.sr, h.omr, h.vba, h.sp, h.sc, h.m, h.iprc, h.iprp, h.pend, h.tags, h.unlocked, h.order, h.channels, h.done, h.pctl,
    h.bcr, h.aar, h.dram, h.debug⟩

theorem State.afterReset_reset : AfterReset State.reset where
  sr := rfl
  omr := by decide
  vba := rfl
  sp := rfl
  sc := rfl
  m := by decide
  iprc := rfl
  iprp := rfl
  pend := rfl
  tags := by decide
  unlocked := rfl
  order := rfl
  channels := by decide
  done := rfl
  pctl := by decide
  bcr := rfl
  aar := by decide
  dram := rfl
  debug := ⟨rfl, rfl, rfl, rfl, rfl⟩

/-- Whatever the state before: hardware reset takes these registers from the reset state, or clears them. -/
theorem State.afterReset_hardReset : AfterReset s.hardReset where
  sr := State.afterReset_reset.sr
  omr := State.afterReset_reset.omr
  vba := State.afterReset_reset.vba
  sp := State.afterReset_reset.sp
  sc := State.afterReset_reset.sc
  m := State.afterReset_reset.m
  iprc := rfl
  iprp := rfl
  pend := rfl
  tags := State.afterReset_reset.tags
  unlocked := rfl
  order := rfl
  channels n := by simp [State.hardReset]
  done := State.afterReset_reset.done
  pctl := State.afterReset_reset.pctl
  bcr := State.afterReset_reset.bcr
  aar := State.afterReset_reset.aar
  dram := State.afterReset_reset.dram
  debug := ⟨rfl, rfl, rfl, rfl, rfl⟩

@[simp] theorem State.hardReset_phase : s.hardReset.ctl.phase = .reset := rfl

@[simp] theorem State.hardReset_env : s.hardReset.env = s.env := by
  simp only [State.hardReset]; split <;> simp

/-- RESET asserted: nothing that the bus is locked for holds it up. -/
theorem step_resetLow {rest : List Event} (h : s.env = .resetLow :: rest) :
    let t := ({ s with env := rest } : State).hardReset
    step s = .next ({ t with irq := { t.irq with rst := false } } : State).tick := by
  simp [step, live, h, Event.takesBus, happen]

/-! ## The core registers -/

theorem coreAddr_toNat {k : Nat} (hi : k < 0x80) : (coreAddr k).toNat = 0xFFFF80 + k := by
  simp only [coreAddr, BitVec.toNat_ofNat]; omega

/-- The top 128 locations of X are the I/O window in both address modes (20_memory R104, R108). -/
theorem State.inIo_coreAddr {k : Nat} (hi : k < 0x80) : s.inIo (coreAddr k) = true := by
  simp only [State.inIo, State.topOf, State.mapAddr, coreAddr_toNat hi, decide_eq_true_eq]
  split <;> omega

theorem State.writeData_coreAddr {k : Nat} (lo : 0x58 ≤ k) (hi : k < 0x80) (w : Word) :
    s.writeData .x (coreAddr k) w = s.writeCoreReg k w := by
  have hk : (coreAddr k).toNat % 128 = k := by rw [coreAddr_toNat hi]; omega
  simp [State.writeData, State.internalIo, s.inIo_coreAddr hi, hk, lo]

/-- The echoes that a write of DCRn leaves are no part of the DMA controller. -/
@[simp] theorem State.writeDmaReg_dcr_dma (n : Fin 6) (v : Word) : (s.writeDmaReg n 3 v).dma = (s.writeDcr n v).dma := by
  simp [State.writeDmaReg]

theorem State.writeCoreReg_dcr (n : Fin 6) (v : Word) : s.writeCoreReg (0x6C - 4 * n.val) v = s.writeDmaReg n 3 v := by
  match n with
  | 0 | 1 | 2 | 3 | 4 | 5 => rfl

/-- DE cleared while the channel holds a word that it has read: DTD waits for that word (62_devices R707, R710). -/
theorem State.writeDcr_dtd_of_holds (n : Fin 6) (v : Word) (on : dcrDe s.dma.ch[n].dcr = true) (off : dcrDe v = false)
    (holds : s.dmaHolds n = true) : (s.writeDcr n v).dma.dtd = s.dma.dtd := by
  simp only [Fin.getElem_fin] at on
  simp [State.writeDcr, on, off, holds]

/-- The same of a write at the address of DCRn in X memory. -/
theorem State.writeData_dcr_dtd_of_holds (n : Fin 6) (v : Word) (on : dcrDe s.dma.ch[n].dcr = true) (off : dcrDe v = false)
    (holds : s.dmaHolds n = true) : (s.writeData .x (coreAddr (0x6C - 4 * n.val)) v).dma.dtd = s.dma.dtd := by
  rw [s.writeData_coreAddr (by omega) (by omega), s.writeCoreReg_dcr, s.writeDmaReg_dcr_dma,
    s.writeDcr_dtd_of_holds n v on off holds]

/-- Channel 0 was started by DE alone (DTM = 011), has read its first word, and then DTM was changed with DE kept set: by
`DmaChannel.ready` it has nothing to move, but it holds a word. -/
def heldNotReady : State := ((State.reset.writeDcr 0 0x980000#24).dmaLoad 0 7).writeDcr 0 0x800000#24

theorem heldNotReady_channel : dcrDe heldNotReady.dma.ch[(0 : Fin 6)].dcr = true ∧
    heldNotReady.dma.ch[(0 : Fin 6)].ready = false ∧ heldNotReady.dmaHolds 0 = true ∧
    heldNotReady.dma.dtd.getLsbD 0 = false := by decide +kernel

end Sys2Proof.Machine

open Sys2Proof Sys2Proof.Machine

/-- Settles O3: the reset state, and any state in which RESET is asserted, by what `hardReset` writes. -/
theorem reset_values : Obligations.Reset_values :=
  ⟨State.afterReset_reset, fun s _ h =>
    ⟨_, step_resetLow s h, (State.afterReset_hardReset _).tick_withRst false, rfl, State.hardReset_env _⟩⟩

/-- Refutes O57. Its last clause has DTD set at once when DE of a channel that is not `ready` is cleared. A channel whose DTM
was changed in the middle of a block is not `ready` and may still hold a word that it has read; the write lets that word
complete first (62_devices R707) and leaves DTD as it was. -/
theorem not_core_registers : ¬ Obligations.Core_registers := by
  intro h
  obtain ⟨s, on, idle, holds, clear⟩ : ∃ s : State, dcrDe s.dma.ch[(0 : Fin 6)].dcr = true ∧
      s.dma.ch[(0 : Fin 6)].ready = false ∧ s.dmaHolds 0 = true ∧ s.dma.dtd.getLsbD 0 = false :=
    ⟨heldNotReady, heldNotReady_channel⟩
  have off : dcrDe 0 = false := rfl
  have kept := s.writeData_dcr_dtd_of_holds 0 0 on off holds
  obtain ⟨-, -, -, -, -, -, -, -, -, -, channels⟩ := h s 0
  obtain ⟨-, -, -, -, -, -, -, -, cleared⟩ := channels 0
  obtain ⟨dtd, -⟩ := cleared on off idle
  rw [kept, Fin.val_zero, clear] at dtd
  exact Bool.false_ne_true dtd

end

section
/-!
Multiple wrap-around modulo 2^k (20_memory R125, R131).
-/
namespace Sys2Proof.Machine

/-! ## Offsets modulo 2^k -/

theorem bmod_two_pow_modEq {n k : Nat} (h : k ≤ n) (x : Int) : x.bmod (2 ^ n) ≡ x [ZMOD 2 ^ k] := by
  have dvd : (2 ^ k : Int) ∣ (2 ^ n : Nat) := by exact_mod_cast pow_dvd_pow 2 h
  exact Int.ModEq.of_dvd dvd Int.bmod_emod

/-- The low bits of a signed number are those of its bit pattern. -/
theorem toInt_modEq_toNat {n k : Nat} (h : k ≤ n) (x : BitVec n) : x.toInt ≡ x.toNat [ZMOD 2 ^ k] := by
  rw [BitVec.toInt_eq_toNat_bmod]
  exact bmod_two_pow_modEq h _

theorem toInt_neg_modEq {n k : Nat} (h : k ≤ n) (x : BitVec n) : (-x).toInt ≡ -x.toInt [ZMOD 2 ^ k] := by
  rw [BitVec.toInt_neg]
  exact bmod_two_pow_modEq h _

/-- Cutting an offset to sixteen bits keeps it modulo every 2^k up to 2^16 (20_memory R131). -/
theorem offsetOf_modEq {k : Nat} (h : k ≤ 16) (sc : Bool) (d : Word) : (offsetOf sc d).toInt ≡ d.toInt [ZMOD 2 ^ k] := by
  cases sc with
  | false => rfl
  | true =>
    have cut : ((d.extractLsb' 0 16).toNat : Int) ≡ d.toNat [ZMOD 2 ^ k] := by
      rw [BitVec.extractLsb'_toNat, Nat.shiftRight_zero]
      exact_mod_cast Int.ModEq.of_dvd (pow_dvd_pow 2 h) (Int.mod_modEq d.toNat (2 ^ 16))
    calc (offsetOf true d).toInt
      _ = (d.extractLsb' 0 16).toInt := BitVec.toInt_signExtend_of_le (by decide)
      _ ≡ (d.extractLsb' 0 16).toNat [ZMOD 2 ^ k] := toInt_modEq_toNat h _
      _ ≡ d.toNat [ZMOD 2 ^ k] := cut
      _ ≡ d.toInt [ZMOD 2 ^ k] := (toInt_modEq_toNat (by omega) d).symm

/-- The same of an offset to be subtracted. -/
theorem signed_offsetOf_modEq {k : Nat} (h : k ≤ 16) (sc minus : Bool) (d : Word) :
    (if minus then -offsetOf sc d else offsetOf sc d).toInt ≡ (if minus then -d else d).toInt [ZMOD 2 ^ k] := by
  cases minus with
  | false => exact offsetOf_modEq h sc d
  | true =>
    calc (-offsetOf sc d).toInt
      _ ≡ -(offsetOf sc d).toInt [ZMOD 2 ^ k] := toInt_neg_modEq (by omega) _
      _ ≡ -d.toInt [ZMOD 2 ^ k] := (offsetOf_modEq h sc d).neg
      _ ≡ (-d).toInt [ZMOD 2 ^ k] := (toInt_neg_modEq (by omega) d).symm

/-! ## The step -/

/-- `wrapStep` sees its offset modulo the block only. -/
theorem wrapStep_congr {k : Nat} (r : Word) {x y : Int} (h : x ≡ y [ZMOD 2 ^ k]) :
    wrapStep (2 ^ k) r x = wrapStep (2 ^ k) r y := by
  simp only [wrapStep, Nat.cast_pow, Nat.cast_ofNat]
  rw [(h.add_left (r.toNat % 2 ^ k : Nat)).eq]

/-- Inside the first 2^16 words a step never leaves them: the bits above the k low ones do not change. -/
theorem wrapStep_lt {k : Nat} (h : k ≤ 16) {r : Word} (hr : r.toNat < 2 ^ 16) (x : Int) :
    (wrapStep (2 ^ k) r x).toNat < 2 ^ 16 := by
  have base : r.toNat - r.toNat % 2 ^ k + 2 ^ k ≤ 2 ^ 16 := by
    have split : 2 ^ 16 = 2 ^ k * 2 ^ (16 - k) := by rw [← pow_add, Nat.add_sub_cancel' h]
    have block : r.toNat / 2 ^ k < 2 ^ (16 - k) := Nat.div_lt_of_lt_mul (split ▸ hr)
    have := Nat.div_add_mod r.toNat (2 ^ k)
    calc r.toNat - r.toNat % 2 ^ k + 2 ^ k
      _ = 2 ^ k * (r.toNat / 2 ^ k + 1) := by rw [Nat.mul_add]; omega
      _ ≤ 2 ^ 16 := split ▸ Nat.mul_le_mul_left _ block
  have low := Int.emod_nonneg ((r.toNat % 2 ^ k : Nat) + x) (b := (2 ^ k : Nat)) (by positivity)
  have high := Int.emod_lt_of_pos ((r.toNat % 2 ^ k : Nat) + x) (b := (2 ^ k : Nat)) (by positivity)
  rw [wrapStep, BitVec.toNat_ofInt]
  omega

theorem scMask_of_lt {sc : Bool} {w : Word} (h : sc = true → w.toNat < 2 ^ 16) : scMask sc w = w := by
  cases sc with
  | false => rfl
  | true =>
    have := h rfl
    apply BitVec.eq_of_toNat_eq
    rw [scMask, if_pos rfl, low16, BitVec.toNat_and, show (0x00FFFF#24).toNat = 2 ^ 16 - 1 from rfl,
      Nat.and_two_pow_sub_one_eq_mod, Nat.mod_eq_of_lt this]

/-- The condition of 20_memory R131 on an address register in Sixteen-bit Compatibility mode. -/
theorem extractLsb'_high_of_lt {r : Word} (h : r.toNat < 2 ^ 16) : r.extractLsb' 16 8 = 0 := by
  apply BitVec.eq_of_toNat_eq
  rw [BitVec.extractLsb'_toNat, Nat.shiftRight_eq_div_pow, Nat.div_eq_of_lt h]
  rfl

/-- The modifiers 2^15 + (2^k - 1), k = 1 to 14, choose multiple wrap-around modulo 2^k. -/
theorem aguStep_wrap (sc : Bool) (m r d : Word) (minus : Bool) {k : Nat} (lo : 1 ≤ k) (hi : k ≤ 14)
    (hm : (m.extractLsb' 0 16).toNat = 2 ^ 15 + (2 ^ k - 1)) (hr : sc = true → r.toNat < 2 ^ 16) :
    aguStep sc m r d minus =
      some (scMask sc (wrapStep (2 ^ k) r (if minus then -offsetOf sc d else offsetOf sc d).toInt)) := by
  have two : 2 ≤ 2 ^ k := Nat.pow_le_pow_right (n := 2) (by omega) lo
  have top : 2 ^ k ≤ 2 ^ 14 := Nat.pow_le_pow_right (by omega) hi
  have inside : (sc && r.extractLsb' 16 8 != 0) = false := by
    cases sc with
    | false => rfl
    | true => simpa using extractLsb'_high_of_lt (hr rfl)
  replace hm : (m.extractLsb' 0 16).toNat = 0x8000 + (2 ^ k - 1) := hm
  have block : 0x8000 + (2 ^ k - 1) - 0x7FFF = 2 ^ k := by omega
  have range : 0x8001 ≤ 0x8000 + (2 ^ k - 1) ∧ 0x8000 + (2 ^ k - 1) < 0xC000 := by omega
  simp only [aguStep, hm, inside, block, Nat.add_sub_cancel_left, Nat.and_two_pow_sub_one_eq_mod, Nat.mod_self]
  rw [if_neg Bool.false_ne_true, if_neg (by omega), if_neg (by omega), if_neg (by omega), if_pos (by simpa using range)]

end Sys2Proof.Machine

open Sys2Proof Sys2Proof.Machine

/-- Settles O14: the modifier selects `wrapStep`, which sees the offset modulo 2^k only, and whose result the cut to sixteen bits
leaves as it is. -/
theorem wrap_around_addresses : Obligations.Wrap_around_addresses := by
  intro sc m r d minus k lo hi hm hr off x
  rw [aguStep_wrap sc m r d minus lo hi hm hr,
    scMask_of_lt fun h => wrapStep_lt (by omega) (hr h) _,
    wrapStep_congr r (signed_offsetOf_modEq (by omega) sc minus d), wrapStep,
    Nat.cast_sub (Nat.mod_le _ _)]
  push_cast
  rfl
end

section
/-!
Every step keeps the invariant: each meaning does, by the instruction; what runs an instruction in a program, a vector, a REP or
at the debug host does; and each event of the outside world does.
-/
namespace Sys2Proof.Machine

variable {s : State}

/-! ## Instructions -/

theorem exec_inv (h : Inv s) (i : Instr) : KeepsInv (exec i s) :=
  match i with
  | .moveParallel m => execMoveParallel_inv h m
  | .tfrAcc d m => execTfrAcc_inv h d m
  | .tfrReg src d m => execTfrReg_inv h src d m
  | .addr d m => execAddr_inv h d m
  | .tst d m => execTst_inv h d m
  | .cmpAcc d m => execCmpAcc_inv h d m
  | .cmpReg src d m => execCmpReg_inv h src d m
  | .subr d m => execSubr_inv h d m
  | .cmpmAcc d m => execCmpmAcc_inv h d m
  | .cmpmReg src d m => execCmpmReg_inv h src d m
  | .addAcc d m => execAddAcc_inv h d m
  | .addXY src d m => execAddXY_inv h src d m
  | .addReg src d m => execAddReg_inv h src d m
  | .rnd d m => execRnd_inv h d m
  | .addl d m => execAddl_inv h d m
  | .clr d m => execClr_inv h d m
  | .subAcc d m => execSubAcc_inv h d m
  | .subXY src d m => execSubXY_inv h src d m
  | .subReg src d m => execSubReg_inv h src d m
  | .maxm m => execMaxm_inv h m
  | .max m => execMax_inv h m
  | .subl d m => execSubl_inv h d m
  | .not d m => execNot_inv h d m
  | .adc src d m => execAdc_inv h src d m
  | .asr d m => execAsr_inv h d m
  | .lsr d m => execLsr_inv h d m
  | .sbc src d m => execSbc_inv h src d m
  | .abs d m => execAbs_inv h d m
  | .ror d m => execRor_inv h d m
  | .asl d m => execAsl_inv h d m
  | .lsl d m => execLsl_inv h d m
  | .neg d m => execNeg_inv h d m
  | .rol d m => execRol_inv h d m
  | .or src d m => execOr_inv h src d m
  | .eor src d m => execEor_inv h src d m
  | .and src d m => execAnd_inv h src d m
  | .mpy q d minus m => execMpy_inv h q d minus m
  | .mpyr q d minus m => execMpyr_inv h q d minus m
  | .mac q d minus m => execMac_inv h q d minus m
  | .macr q d minus m => execMacr_inv h q d minus m
  | .reservedA d m => execReservedA_inv h d m
  | .reservedB m => execReservedB_inv h m
  | .moveImm imm d => execMoveImm_inv h imm d
  | .moveReg src d => execMoveReg_inv h src d
  | .moveUpd u rn => execMoveUpd_inv h u rn
  | .ifcc c op => execIfcc_inv h c op
  | .ifccU c op => execIfccU_inv h c op
  | .moveXEa d w ea => execMoveXEa_inv h d w ea
  | .moveXAa d w aa => execMoveXAa_inv h d w aa
  | .moveYEa d w ea => execMoveYEa_inv h d w ea
  | .moveYAa d w aa => execMoveYAa_inv h d w aa
  | .moveXR1 xs s2 d2 w ea => execMoveXR1_inv h xs s2 d2 w ea
  | .moveXR2 d ea => execMoveXR2_inv h d ea
  | .moveRY1 s1 d1 ys w ea => execMoveRY1_inv h s1 d1 ys w ea
  | .moveRY2 d ea => execMoveRY2_inv h d ea
  | .moveLEa l w ea => execMoveLEa_inv h l w ea
  | .moveLAa l w aa => execMoveLAa_inv h l w aa
  | .moveXY yw ym xs ys xw yn xm xn => execMoveXY_inv h yw ym xs ys xw yn xm xn
  | .addShort imm d => execAddShort_inv h imm d
  | .addImm d imm => execAddImm_inv h d imm
  | .andShort imm d => execAndShort_inv h imm d
  | .andImm d imm => execAndImm_inv h d imm
  | .andi imm e => execAndi_inv h imm e
  | .aslNum imm src d => execAslNum_inv h imm src d
  | .aslBy c src d => execAslBy_inv h c src d
  | .asrNum imm src d => execAsrNum_inv h imm src d
  | .asrBy c src d => execAsrBy_inv h c src d
  | .bccLong c disp => execBccLong_inv h c disp
  | .bccShort c disp => execBccShort_inv h c disp
  | .bccReg c rn => execBccReg_inv h c rn
  | .bchgEa n sp ea => execBchgEa_inv h n sp ea
  | .bchgAa n sp aa => execBchgAa_inv h n sp aa
  | .bchgPp n sp pp => execBchgPp_inv h n sp pp
  | .bchgQq n sp qq => execBchgQq_inv h n sp qq
  | .bchgReg n r => execBchgReg_inv h n r
  | .bclrEa n sp ea => execBclrEa_inv h n sp ea
  | .bclrAa n sp aa => execBclrAa_inv h n sp aa
  | .bclrPp n sp pp => execBclrPp_inv h n sp pp
  | .bclrQq n sp qq => execBclrQq_inv h n sp qq
  | .bclrReg n r => execBclrReg_inv h n r
  | .bsetEa n sp ea => execBsetEa_inv h n sp ea
  | .bsetAa n sp aa => execBsetAa_inv h n sp aa
  | .bsetPp n sp pp => execBsetPp_inv h n sp pp
  | .bsetQq n sp qq => execBsetQq_inv h n sp qq
  | .bsetReg n r => execBsetReg_inv h n r
  | .btstEa n sp ea => execBtstEa_inv h n sp ea
  | .btstAa n sp aa => execBtstAa_inv h n sp aa
  | .btstPp n sp pp => execBtstPp_inv h n sp pp
  | .btstQq n sp qq => execBtstQq_inv h n sp qq
  | .btstReg n r => execBtstReg_inv h n r
  | .braLong disp => execBraLong_inv h disp
  | .braShort disp => execBraShort_inv h disp
  | .braReg rn => execBraReg_inv h rn
  | .brclrEa n sp ea disp => execBrclrEa_inv h n sp ea disp
  | .brclrAa n sp aa disp => execBrclrAa_inv h n sp aa disp
  | .brclrPp n sp pp disp => execBrclrPp_inv h n sp pp disp
  | .brclrQq n sp qq disp => execBrclrQq_inv h n sp qq disp
  | .brclrReg n r disp => execBrclrReg_inv h n r disp
  | .brsetEa n sp ea disp => execBrsetEa_inv h n sp ea disp
  | .brsetAa n sp aa disp => execBrsetAa_inv h n sp aa disp
  | .brsetPp n sp pp disp => execBrsetPp_inv h n sp pp disp
  | .brsetQq n sp qq disp => execBrsetQq_inv h n sp qq disp
  | .brsetReg n r disp => execBrsetReg_inv h n r disp
  | .bsclrEa n sp ea disp => execBsclrEa_inv h n sp ea disp
  | .bsclrAa n sp aa disp => execBsclrAa_inv h n sp aa disp
  | .bsclrPp n sp pp disp => execBsclrPp_inv h n sp pp disp
  | .bsclrQq n sp qq disp => execBsclrQq_inv h n sp qq disp
  | .bsclrReg n r disp => execBsclrReg_inv h n r disp
  | .bssetEa n sp ea disp => execBssetEa_inv h n sp ea disp
  | .bssetAa n sp aa disp => execBssetAa_inv h n sp aa disp
  | .bssetPp n sp pp disp => execBssetPp_inv h n sp pp disp
  | .bssetQq n sp qq disp => execBssetQq_inv h n sp qq disp
  | .bssetReg n r disp => execBssetReg_inv h n r disp
  | .brkcc c => execBrkcc_inv h c
  | .bsccLong c disp => execBsccLong_inv h c disp
  | .bsccShort c disp => execBsccShort_inv h c disp
  | .bsccReg c rn => execBsccReg_inv h c rn
  | .bsrLong disp => execBsrLong_inv h disp
  | .bsrShort disp => execBsrShort_inv h disp
  | .bsrReg rn => execBsrReg_inv h rn
  | .clb src d => execClb_inv h src d
  | .cmpShort imm d => execCmpShort_inv h imm d
  | .cmpImm d imm => execCmpImm_inv h d imm
  | .cmpu g d => execCmpu_inv h g d
  | .debugcc c => execDebugcc_inv h c
  | .dec d => execDec_inv h d
  | .div src d => execDiv_inv h src d
  | .dmac sg q d minus => execDmac_inv h sg q d minus
  | .doEa sp ea la => execDoEa_inv h sp ea la
  | .doAa sp aa la => execDoAa_inv h sp aa la
  | .doNum cnt la => execDoNum_inv h cnt la
  | .doReg r la => execDoReg_inv h r la
  | .dorEa sp ea disp => execDorEa_inv h sp ea disp
  | .dorAa sp aa disp => execDorAa_inv h sp aa disp
  | .dorNum cnt disp => execDorNum_inv h cnt disp
  | .dorReg r disp => execDorReg_inv h r disp
  | .repEa sp ea => execRepEa_inv h sp ea
  | .repAa sp aa => execRepAa_inv h sp aa
  | .repNum cnt => execRepNum_inv h cnt
  | .repReg r => execRepReg_inv h r
  | .doForever la => execDoForever_inv h la
  | .dorForever disp => execDorForever_inv h disp
  | .eorShort imm d => execEorShort_inv h imm d
  | .eorImm d imm => execEorImm_inv h d imm
  | .extractBy c src d => execExtractBy_inv h c src d
  | .extractNum src d co => execExtractNum_inv h src d co
  | .extractuBy c src d => execExtractuBy_inv h c src d
  | .extractuNum src d co => execExtractuNum_inv h src d co
  | .inc d => execInc_inv h d
  | .insertBy c src d => execInsertBy_inv h c src d
  | .insertNum src d co => execInsertNum_inv h src d co
  | .jccShort c a => execJccShort_inv h c a
  | .jccEa c ea => execJccEa_inv h c ea
  | .jclrEa n sp ea target => execJclrEa_inv h n sp ea target
  | .jclrAa n sp aa target => execJclrAa_inv h n sp aa target
  | .jclrPp n sp pp target => execJclrPp_inv h n sp pp target
  | .jclrQq n sp qq target => execJclrQq_inv h n sp qq target
  | .jclrReg n r target => execJclrReg_inv h n r target
  | .jsetEa n sp ea target => execJsetEa_inv h n sp ea target
  | .jsetAa n sp aa target => execJsetAa_inv h n sp aa target
  | .jsetPp n sp pp target => execJsetPp_inv h n sp pp target
  | .jsetQq n sp qq target => execJsetQq_inv h n sp qq target
  | .jsetReg n r target => execJsetReg_inv h n r target
  | .jsclrEa n sp ea target => execJsclrEa_inv h n sp ea target
  | .jsclrAa n sp aa target => execJsclrAa_inv h n sp aa target
  | .jsclrPp n sp pp target => execJsclrPp_inv h n sp pp target
  | .jsclrQq n sp qq target => execJsclrQq_inv h n sp qq target
  | .jsclrReg n r target => execJsclrReg_inv h n r target
  | .jssetEa n sp ea target => execJssetEa_inv h n sp ea target
  | .jssetAa n sp aa target => execJssetAa_inv h n sp aa target
  | .jssetPp n sp pp target => execJssetPp_inv h n sp pp target
  | .jssetQq n sp qq target => execJssetQq_inv h n sp qq target
  | .jssetReg n r target => execJssetReg_inv h n r target
  | .jmpShort a => execJmpShort_inv h a
  | .jmpEa ea => execJmpEa_inv h ea
  | .jsccShort c a => execJsccShort_inv h c a
  | .jsccEa c ea => execJsccEa_inv h c ea
  | .jsrShort a => execJsrShort_inv h a
  | .jsrEa ea => execJsrEa_inv h ea
  | .lraReg rn d => execLraReg_inv h rn d
  | .lraLong d disp => execLraLong_inv h d disp
  | .lslNum imm d => execLslNum_inv h imm d
  | .lslBy c d => execLslBy_inv h c d
  | .lsrNum imm d => execLsrNum_inv h imm d
  | .lsrBy c d => execLsrBy_inv h c d
  | .luaEa u rn d => execLuaEa_inv h u rn d
  | .luaDisp disp rn d => execLuaDisp_inv h disp rn d
  | .macNum src n d minus => execMacNum_inv h src n d minus
  | .macSu sg q d minus => execMacSu_inv h sg q d minus
  | .maci src d minus imm => execMaci_inv h src d minus imm
  | .macrNum src n d minus => execMacrNum_inv h src n d minus
  | .macri src d minus imm => execMacri_inv h src d minus imm
  | .merge src d => execMerge_inv h src d
  | .moveXLong rn w r disp => execMoveXLong_inv h rn w r disp
  | .moveYLong rn w r disp => execMoveYLong_inv h rn w r disp
  | .moveXShort disp rn w r => execMoveXShort_inv h disp rn w r
  | .moveYShort disp rn w r => execMoveYShort_inv h disp rn w r
  | .movecEa w sp ea r => execMovecEa_inv h w sp ea r
  | .movecAa w sp aa r => execMovecAa_inv h w sp aa r
  | .movecReg w r2 r => execMovecReg_inv h w r2 r
  | .movecImm imm r => execMovecImm_inv h imm r
  | .movemEa w ea r => execMovemEa_inv h w ea r
  | .movemAa w aa r => execMovemAa_inv h w aa r
  | .movepPpEa ps w sp ea pp => execMovepPpEa_inv h ps w sp ea pp
  | .movepXqqEa w sp ea qq => execMovepXqqEa_inv h w sp ea qq
  | .movepYqqEa w sp ea qq => execMovepYqqEa_inv h w sp ea qq
  | .movepPpP ps w ea pp => execMovepPpP_inv h ps w ea pp
  | .movepQqP w ea ps qq => execMovepQqP_inv h w ea ps qq
  | .movepPpReg ps w r pp => execMovepPpReg_inv h ps w r pp
  | .movepXqqReg w r qq => execMovepXqqReg_inv h w r qq
  | .movepYqqReg w r qq => execMovepYqqReg_inv h w r qq
  | .mpyNum src n d minus => execMpyNum_inv h src n d minus
  | .mpySu sg q d minus => execMpySu_inv h sg q d minus
  | .mpyi src d minus imm => execMpyi_inv h src d minus imm
  | .mpyrNum src n d minus => execMpyrNum_inv h src n d minus
  | .mpyri src d minus imm => execMpyri_inv h src d minus imm
  | .norm rn d => execNorm_inv h rn d
  | .normf src d => execNormf_inv h src d
  | .orShort imm d => execOrShort_inv h imm d
  | .orImm d imm => execOrImm_inv h d imm
  | .ori imm e => execOri_inv h imm e
  | .plock ea => execPlock_inv h ea
  | .plockr disp => execPlockr_inv h disp
  | .punlock ea => execPunlock_inv h ea
  | .punlockr disp => execPunlockr_inv h disp
  | .subShort imm d => execSubShort_inv h imm d
  | .subImm d imm => execSubImm_inv h d imm
  | .tccD c s1 d => execTccD_inv h c s1 d
  | .tccDR c s1 d t u => execTccDR_inv h c s1 d t u
  | .tccR c t u => execTccR_inv h c t u
  | .trapcc c => execTrapcc_inv h c
  | .vsl src imm ea => execVsl_inv h src imm ea
  | .moveNone => execMoveNone_inv h
  | .debug => execDebug_inv h
  | .enddo => execEnddo_inv h
  | .illegal => execIllegal_inv h
  | .nop => execNop_inv h
  | .pflush => execPflush_inv h
  | .pflushun => execPflushun_inv h
  | .pfree => execPfree_inv h
  | .reset => execReset_inv h
  | .rti => execRti_inv h
  | .rts => execRts_inv h
  | .stop => execStop_inv h
  | .trap => execTrap_inv h
  | .wait => execWait_inv h

/-! ## An instruction from its fetch to its end -/

theorem Inv.fetchWord (h : Inv s) {a w : Word} {t : State} (e : s.fetchWord a = some (w, t)) : Inv t := by
  unfold State.fetchWord at e
  split at e
  · cases e; exact h.withPdb _
  · exact (h.withPdb []).fetch e

theorem Inv.fetchInstr (h : Inv s) {f : Fetched} (e : s.fetchInstr = some f) : Inv f.st := by
  unfold State.fetchInstr at e
  split at e
  · cases e
  · rename_i hw
    split at e
    · cases e; exact h.fetchWord hw
    · split at e
      · cases e
      · rename_i hx
        cases e; exact (h.fetchWord hw).fetchWord hx

theorem runInstr_inv (h : Inv s) (i : Instr) : KeepsInv (runInstr i s) :=
  have hb := h.begin s.pcu.pc
  execThen_inv (exec_inv hb i) (fun _ ht => ht) fun _ _ hu => hb.after hu i _ _ _

theorem runNext_inv (h : Inv s) : KeepsInv (runNext s) := by
  unfold runNext
  split
  · exact .fault _
  · rename_i hf
    split
    · exact .refused _
    · exact runInstr_inv (h.fetchInstr hf) _

theorem runRepeated_inv (h : Inv s) (r : Rep) (w : Word) (fetched : List Access) : KeepsInv (runRepeated r w fetched s) := by
  have hb := (h.begin s.pcu.pc).withRep none
  unfold runRepeated
  dsimp only
  split
  · exact execThen_inv (exec_inv hb _) (fun _ ht => (ht.corruptLast _ _).repeatOrEnd r w _)
      fun _ _ hu => hb.after hu _ _ _ _
  · exact .refused _

theorem runRep_inv (h : Inv s) (r : Rep) : KeepsInv (runRep r s) := by
  unfold runRep
  split
  · exact runRepeated_inv h r _ _
  · split
    · exact .fault _
    · rename_i hw
      split
      · exact .refused _
      · exact runRepeated_inv (h.fetchWord hw) r _ _

/-! ## Interrupts -/

theorem CtxOk.some {c : IntCtx} (h : c.words.length ≤ 2) : CtxOk (some c) := by
  rintro _ ⟨⟩
  exact h

theorem accept_inv (h : Inv s) (k : Nat) : KeepsInv (accept k s) := by
  unfold accept
  split
  · exact .fault _
  · rename_i h1
    have i1 := (h.withPdb []).fetch h1
    split
    · exact .fault _
    · rename_i h2
      have i2 := i1.fetch h2
      refine .next (Inv.withCtx ?_ (.some ?_))
      · split
        · exact i1.withLate _
        · exact i2.clearAccepted k
      · dsimp only
        split <;> simp

theorem Inv.endVector (h : Inv s) : Inv s.endVector := by
  unfold State.endVector
  split
  · exact h
  · split
    · exact h.noCtx
    · exact h

theorem runVectorInstr_inv (h : Inv s) (c : IntCtx) (i : Instr) {rest : List Word} (hr : rest.length ≤ 2) :
    KeepsInv (runVectorInstr c i rest s) := by
  have hb : Inv ((s.begin c.next).withCtx (some { c with words := rest })) := (h.begin _).withCtx (.some hr)
  simp only [runVectorInstr]
  split
  · exact .refused _
  · split
    · exact .refused _
    · exact execThen_inv (exec_inv hb i) (fun _ ht => ht) fun _ _ hu => (hb.after hu i _ _ _).endVector

theorem runVector_inv (h : Inv s) {c : IntCtx} (hc : s.ctl.ctx = some c) : KeepsInv (runVector c s) := by
  have hw := h.ctx c hc
  unfold runVector
  split
  · exact .next h.noCtx
  · rename_i w rest e
    rw [e, List.length_cons] at hw
    split
    · exact runVectorInstr_inv h c _ (by omega)
    · split
      · exact .refused _
      · rw [List.length_cons] at hw
        exact runVectorInstr_inv h c _ (by omega)

/-! ## The core in each processing state -/

theorem coreInstr_inv (h : Inv s) : KeepsInv (coreInstr s) := by
  unfold coreInstr
  split
  · exact runRep_inv h _
  · split
    · exact runVector_inv h ‹_›
    · split
      · exact accept_inv h _
      · exact runNext_inv h

theorem coreTurn_inv (h : Inv s) : KeepsInv (coreTurn s) := by
  unfold coreTurn
  split
  · exact .next (h.ahead ‹_›)
  · exact coreInstr_inv h

theorem dmaOr_inv (h : Inv s) {f : State → Res} (hf : KeepsInv (f s)) : KeepsInv (dmaOr f s) := by
  unfold dmaOr
  split
  · exact hf
  · split
    · exact dmaTransfer_inv h _
    · exact hf

theorem coreOr_inv (h : Inv s) {f : State → Res} (hf : KeepsInv (f s)) : KeepsInv (coreOr f s) := by
  unfold coreOr
  split
  · exact hf
  · exact .next ((h.withLate _).land _)

theorem Inv.acknowledge (h : Inv s) : Inv s.acknowledge := by
  refine Inv.enterDebug ?_ _
  exact h.once h.trace

theorem Inv.waitTurn (h : Inv s) : Inv (waitTurn s) := by
  unfold Machine.waitTurn
  split
  · exact h.acknowledge
  · split
    · exact h
    · exact Inv.withPhase (h.window s.irq.oldMask 0 (by decide)) _

theorem Inv.stopTurn (h : Inv s) : Inv (stopTurn s) := by
  unfold Machine.stopTurn
  split
  · exact h.acknowledge
  · split
    · exact h
    · exact h.endHalt

theorem turn_inv (h : Inv s) : KeepsInv (turn s) := by
  unfold turn
  split
  case h_1 =>
    split
    · exact .next h.acknowledge
    · exact dmaOr_inv h (coreOr_inv h (coreTurn_inv h))
  case h_2 => exact .next h
  case h_3 => exact .next h.waitTurn
  case h_4 => exact .next h.stopTurn
  case h_5 => exact dmaOr_inv h (coreOr_inv h (.next h))

/-! ## Reset -/

theorem Inv.hardReset (h : Inv s) : Inv s.hardReset := by
  have h0 : Inv (if s.ce then s.scrambleCacheRam else s) := by
    split
    · exact h.scrambleCacheRam
    · exact h
  exact {
    mem := (Memory.wf_congr rfl rfl).trans h0.mem
    sr := show SrOk State.reset.pcu.sr by decide
    omr := show OmrOk State.reset.pcu.omr from OmrOk.sub (by decide)
    vba := show VbaOk State.reset.pcu.vba by decide
    lru := LruOk.flush _
    irq := ⟨BitVec.zero_and, Nat.zero_le 6⟩
    ctx := fun _ e => by cases e
    trace := h0.trace }

theorem Inv.leaveReset (h : Inv s) (mode : BitVec 4) : Inv (s.leaveReset mode) := by
  have modes : mode.setWidth 24 &&& 0x1F3FDF#24 = mode.setWidth 24 := by revert mode; decide
  have ht := ((h.withOmr (OmrOk.or (h.omr.and_left 0xFFFFF0#24) modes)).withPc (Config.resetVector mode)).withPhase .normal
  simp only [State.leaveReset]
  split
  · exact ht
  · exact ht.enterDebug 0

/-! ## Pins and requests -/

theorem Inv.dmaRequest (h : Inv s) (drs : BitVec 5) : Inv (s.dmaRequest drs) := by
  unfold State.dmaRequest
  split
  case h_1 | h_2 => exact h
  case h_3 =>
    split
    · exact (h.dmaTrigger drs).withPhase _
    · exact h
  case h_4 | h_5 => exact h.dmaTrigger drs

/-- A falling edge may be latched where the pin takes one (60_exceptions R563). -/
theorem IrqOk.latch {i : Irq} (h : IrqOk i) {k : Fin 4} (hk : irqLatches i.iprc k = true) :
    IrqOk { i with pend := Sys2Proof.setBit i.pend (8 + k) true } := by
  refine ⟨(clear_irqKeep_iff _ _).2 fun j hj => ?_, h.2⟩
  have other : j ≠ k := by
    rintro rfl
    exact Bool.false_ne_true (hj.symm.trans hk)
  rw [getLsbD_setBit, if_neg (by omega)]
  exact (clear_irqKeep_iff _ _).1 h.1 j hj

theorem Inv.irqPin (h : Inv s) (i : Fin 4) (high : Bool) : Inv (s.irqPin i high) := by
  have ht : Inv { s with irq := { s.irq with pins := setBit s.irq.pins i.val high } } := h.of_irq h.irq (by simp)
  simp only [State.irqPin]
  split
  · refine Inv.dmaRequest ?_ _
    split
    · exact ht.of_irq (ht.irq.latch ‹_›) (by simp)
    · exact ht
  · exact ht

theorem Inv.askDebug (h : Inv s) : Inv s.askDebug := by
  unfold State.askDebug
  split
  case h_1 | h_2 => exact h
  case h_3 | h_4 | h_5 => exact h.once h.trace

theorem Inv.pinEvent (h : Inv s) (p : Pin) (high : Bool) : Inv (s.pinEvent p high) := by
  cases p with
  | irqa | irqb | irqc | irqd => exact h.irqPin _ high
  | nmi =>
    have ht : Inv { s with irq := { s.irq with nmi := high } } := h.of_irq h.irq (by simp)
    simp only [State.pinEvent]
    split
    · exact ht.setPend 5 true (.inl (by omega))
    · exact ht
  | de =>
    have ht : Inv { s with irq := { s.irq with de := high } } := h.of_irq h.irq (by simp)
    simp only [State.pinEvent]
    split
    · exact ht.askDebug
    · exact ht

theorem Inv.peripheralEvent (h : Inv s) (k : BitVec 7) (on : Bool) : Inv (s.peripheralEvent k on) := by
  unfold State.peripheralEvent
  split
  · exact h
  · exact h.setPend _ on (.inr (.inl (by omega)))

theorem Inv.busWrite (h : Inv s) (sp : Fin 3) (a w : Word) : Inv (s.busWrite sp a w) := by
  unfold State.busWrite
  split
  · split
    · exact h.pRawWrite a w
    · exact h
  · split <;> split
    · exact h.withDataMem .x _ w
    · exact h
    · exact h.withDataMem .y _ w
    · exact h

/-! ## The debug host -/

theorem Inv.noteHit (h : Inv s) (b : State) (i : Instr) : Inv (b.noteHit i s) := by
  simp only [State.noteHit]
  split
  · split
    · exact h.once h.trace
    · exact h.once h.trace
    · exact h
  · exact h

theorem Inv.observeInjected (h : Inv s) (b : State) (i : Instr) : Inv (b.observeInjected i s) :=
  have hw := h.watchAll (b.allAccesses i s s)
  hw.once hw.trace

theorem runInjected_inv (h : Inv s) (i : Instr) : KeepsInv (runInjected i s) := by
  have hb : Inv { s.landAll with ctl := { s.landAll.ctl with fresh := s.landAll.ctl.written, written := 0 } } :=
    h.landAll.of_same (by simp)
  simp only [runInjected]
  split
  · exact .refused _
  · split
    · exact .fault _
    · exact .refused _
    · rename_i t ht
      have it := exec_inv hb i t ht
      split
      · exact .fault _
      · split
        · exact .refused _
        · exact .next (hb.deferLast (Inv.notePWrites
            (((it.noteHit _ i).observeInjected _ i).withPhase .debug).fade _) i t)

theorem inject_inv (h : Inv s) (w : Word) : KeepsInv (inject w s) := by
  refine runInjected_inv ?_ _
  exact h.once h.trace

theorem leaveDebug_inv (h : Inv s) (w : Word) : KeepsInv (leaveDebug w s) := by
  unfold leaveDebug
  extract_lets s1 o t p i
  have ht : Inv t := by
    refine (Inv.withPdb ?_ []).withPhase .normal
    exact h.landAll.once h.landAll.trace
  have hp : Inv p := ht.withPdb _
  split
  · split
    · exact .next (ht.withCtx (.some le_rfl))
    · exact .next (hp.withCtx (.some (Nat.le_succ 1)))
  · exact .next (hp.withRep _)
  · exact .next (ht.withPdb _)
  · split
    · exact .refused _
    · refine runInstr_inv (Inv.withPc ?_ _) i
      split
      · exact hp
      · exact ht

theorem onceGo_inv (h : Inv s) (ex : Bool) (w : Word) : KeepsInv (onceGo ex w s) := by
  unfold onceGo
  split
  · exact .next h
  · split
    · exact leaveDebug_inv h w
    · split
      · exact .refused _
      · exact runInjected_inv h _

/-- A write of a OnCE register changes OnCE registers alone, and not the trace buffer (61_debug R632). -/
theorem State.onceWrite_keeps {t : State} {rs : BitVec 5} {w : Word} (e : s.onceWrite rs w = some t) :
    t = { s with once := t.once } ∧ t.once.trace = s.once.trace := by
  unfold State.onceWrite at e
  dsimp only at e
  split at e <;> cases e <;> exact ⟨rfl, rfl⟩

theorem Inv.onceWrite (h : Inv s) {t : State} {rs : BitVec 5} {w : Word} (e : s.onceWrite rs w = some t) : Inv t := by
  obtain ⟨ht, trace⟩ := State.onceWrite_keeps e
  rw [ht]
  exact h.once (trace ▸ h.trace)

theorem Inv.onceAfterRead (h : Inv s) (rs : BitVec 5) : Inv (s.onceAfterRead rs) := by
  unfold State.onceAfterRead
  split
  · exact h.once h.trace
  · exact h

theorem onceData_inv (h : Inv s) (rs : BitVec 5) (go ex : Bool) (w : Word) : KeepsInv (onceData rs go ex w s) := by
  unfold onceData
  split
  · exact .refused _
  · rename_i hw
    have ht := h.onceWrite hw
    split
    · split
      · split
        · exact leaveDebug_inv ht w
        · exact inject_inv h w
      · exact .next (ht.once ht.trace)
    · split
      · exact onceGo_inv ht true w
      · exact .next ht

theorem Inv.withJtag (h : Inv s) (j : Jtag) : Inv { s with jtag := j } := h.of_same (by simp)

theorem onceCommand_inv (h : Inv s) (cmd : BitVec 8) : KeepsInv (onceCommand cmd s) := by
  have ht : Inv { s with once := { s.once with ocr := cmd } } := h.once h.trace
  simp only [onceCommand]
  split
  · split
    · exact onceGo_inv ht _ _
    · exact .next ht
  · split
    · split
      · exact .refused _
      · exact .next (ht.withJtag _)
    · split
      · exact .refused _
      · exact .next (ht.withJtag _)

/-! ## The TAP controller -/

theorem Inv.setIr (h : Inv s) (ir : BitVec 4) : Inv (s.setIr ir) := by
  unfold State.setIr
  extract_lets j t u
  have ht : Inv t := h.withJtag _
  have hu : Inv u := by
    unfold u
    split
    · exact ht.hardReset
    · split
      · exact ht.leaveReset _
      · exact ht
  split
  · exact hu.askDebug
  · exact hu

theorem updateDr_inv (h : Inv s) : KeepsInv (updateDr s) := by
  unfold updateDr
  split
  · exact .next h
  · split
    · have ht := h.withJtag { s.jtag with dataScan := false }
      dsimp only
      split
      · exact .next (ht.onceAfterRead _)
      · exact onceData_inv ht _ _ _ _
    · exact onceCommand_inv h _

theorem tckEvent_inv (h : Inv s) (tms tdi : Bool) : KeepsInv (tckEvent tms tdi s) := by
  have ht (j : Jtag) := h.withJtag j
  simp only [tckEvent]
  split
  case h_1 | h_3 => exact .next ((ht _).setIr _)
  case h_2 => exact updateDr_inv (ht _)
  all_goals exact .next (ht _)

/-! ## Events -/

theorem happen_inv (h : Inv s) (e : Event) : KeepsInv (happen e s) := by
  cases e with
  | pin p high => exact .next (h.pinEvent p high)
  | resetLow => exact .next (h.hardReset.of_irq h.hardReset.irq (by simp))
  | resetHigh mode =>
    have ht : Inv { s with irq := { s.irq with rst := true } } := h.of_irq h.irq (by simp)
    refine .next ?_
    split
    · exact ht.leaveReset mode
    · exact ht
  | peripheral k on => exact .next (h.peripheralEvent k on)
  | dmaRequest src =>
    refine .next ?_
    split
    · exact h
    · exact h.dmaRequest src
  | busWrite sp a w => exact .next (h.busWrite sp a w)
  | tck tms tdi => exact tckEvent_inv h tms tdi
  | trst => exact .next ((h.withJtag _).setIr _)
  | quiet => exact turn_inv h

theorem live_inv (h : Inv s) : KeepsInv (live s) := by
  unfold live
  split
  · exact turn_inv h
  · split
    · exact turn_inv h
    · exact happen_inv (s := { s with env := _ }) (h.of_same (by simp)) _

theorem step_inv (h : Inv s) : KeepsInv (step s) := by
  unfold step
  split
  · exact .next (live_inv h _ ‹_›).tick
  · exact .fault _
  · exact .refused _

end Sys2Proof.Machine

open Sys2Proof Sys2Proof.Machine

/-- Settles O5, over the world's events, the DMA's turns and each way in which the core runs an instruction. -/
theorem inv_step : Obligations.Inv_step := fun _ t h e => step_inv h t e

end

section
/-!
The sixteen conditions (30_encoding R160).
-/
namespace Sys2Proof

/-- The condition whose code differs in bit 3. -/
def Cond.complement (c : Cond) : Cond := Cond.ofBits (c.bits ^^^ 0b1000#4)

theorem Cond.bits_ofBits (b : BitVec 4) : (Cond.ofBits b).bits = b := by
  revert b; decide

theorem Cond.ofBits_one_append (k : BitVec 3) : Cond.ofBits (1#1 ++ k) = (Cond.ofBits (0#1 ++ k)).complement := by
  have flipped : (0#1 ++ k) ^^^ 0b1000#4 = 1#1 ++ k := by revert k; decide
  rw [Cond.complement, Cond.bits_ofBits, flipped]

theorem Cond.codes_in_order :
    (List.range 16).map (fun k => Cond.ofBits (BitVec.ofNat 4 k)) =
      [.cc, .ge, .ne, .pl, .nn, .ec, .lc, .gt, .cs, .lt, .eq, .mi, .nr, .es, .ls, .le] := by
  decide

namespace Machine

variable (s : State)

/-- GE alone is written in the model as an equality of N and V, and not as the negation of its complement. -/
theorem State.cond_ge : s.cond .ge = !(s.srBit 3 ^^ s.srBit 1) :=
  (Bool.not_not _).symm

theorem State.cond_iff (c : Cond) : s.cond c = true ↔ condTable s c := by
  cases c with
  | cs | lt | eq | mi | nr | es | ls | le => exact Iff.rfl
  | ge => rw [s.cond_ge]; exact iff_of_eq (Bool.not_eq_true' _)
  | cc | ne | pl | nn | ec | lc | gt => exact iff_of_eq (Bool.not_eq_true' _)

/-- Codes 0xxx negate a term of the CCR, and codes 1xxx are that term. -/
theorem State.cond_complement (c : Cond) : s.cond c.complement = !s.cond c := by
  cases c with
  | ge => rw [s.cond_ge]; exact (Bool.not_not _).symm
  | lt => exact s.cond_ge
  | cc | ne | pl | nn | ec | lc | gt => exact (Bool.not_not _).symm
  | cs | eq | mi | nr | es | ls | le => rfl

end Machine
end Sys2Proof

open Sys2Proof Sys2Proof.Machine

/-- Settles O15: the codes by the decoder's table, the conditions one by one, and the complement by the code's upper bit. -/
theorem conditions : Obligations.Conditions :=
  ⟨Cond.codes_in_order, fun s => ⟨s.cond_iff, fun k => by rw [Cond.ofBits_one_append, s.cond_complement]⟩⟩

end

section
/-!
Reads of a full accumulator by a move: the data shifter and the limiter as arithmetic on the content (40_alu_common R207,
R213, R215, R231, R233).
-/
namespace Sys2Proof.Machine

/-! ## Fields of a number -/

/-- The low bits of a signed number, as the number they are the pattern of. -/
theorem setWidth_eq_ofInt {n w : Nat} (h : w ≤ n) (x : BitVec n) : x.setWidth w = BitVec.ofInt w x.toInt := by
  apply BitVec.eq_of_toInt_eq
  rw [BitVec.toInt_setWidth, BitVec.toInt_ofInt, ← Int.emod_bmod, ← Int.emod_bmod x.toInt]
  exact_mod_cast congrArg (Int.bmod · (2 ^ w)) (toInt_modEq_toNat h x).symm.eq

/-- `w` bits from bit `k` up: the quotient by 2^k, to `w` bits. -/
theorem extractLsb'_eq_ofInt {n k w : Nat} (h : k + w ≤ n) (x : BitVec n) :
    x.extractLsb' k w = BitVec.ofInt w (x.toInt / 2 ^ k) := by
  have shifted : x.extractLsb' k w = (x.sshiftRight k).setWidth w := by
    apply BitVec.eq_of_getLsbD_eq
    intro i hi
    rw [BitVec.getLsbD_extractLsb', BitVec.getLsbD_setWidth, BitVec.getLsbD_sshiftRight, if_pos (by omega)]
    simp [hi, show ¬ n ≤ i by omega]
  rw [shifted, setWidth_eq_ofInt (by omega), BitVec.toInt_sshiftRight, Int.shiftRight_eq_div_pow]
  norm_cast

/-- All bits from bit `k` up: the quotient by 2^k. -/
theorem toInt_extractLsb'_top {n k w : Nat} (h : k + w = n) (hw : 0 < w) (x : BitVec n) :
    (x.extractLsb' k w).toInt = x.toInt / 2 ^ k := by
  have split : (2 : Int) ^ (n - 1) = 2 ^ (w - 1) * 2 ^ k := by rw [← pow_add]; congr 1; omega
  have lo := BitVec.le_toInt x
  have hi := BitVec.toInt_lt (x := x)
  rw [extractLsb'_eq_ofInt (le_of_eq h), BitVec.toInt_ofInt_eq_self hw]
  · rw [Int.le_ediv_iff_mul_le (by positivity), neg_mul, ← split]; exact lo
  · rw [Int.ediv_lt_iff_lt_mul (by positivity), ← split]; exact hi

/-- A number with one bit more, moved one place to the left: its double. -/
theorem toInt_setWidth_shiftLeft {n : Nat} (hn : 0 < n) (x : BitVec n) :
    (x.setWidth (n + 1) <<< 1).toInt = 2 * x.toInt := by
  have double : x.setWidth (n + 1) <<< 1 = x.concat false := by
    apply BitVec.eq_of_getLsbD_eq
    intro i hi
    cases i with
    | zero => simp
    | succ i => simp [hi, BitVec.getLsbD_eq_getElem (Nat.lt_of_succ_lt_succ hi)]
  rw [double, BitVec.toInt_concat, if_neg (by omega), Bool.toInt_false]
  omega

/-! ## The data shifter -/

/-- Without, with half and with double scaling, one quotient: the shifter starts one place to the left. -/
theorem scaled_eq {m : Scaling} (hm : m ≠ .reserved) (x : Int) (u : Nat) :
    scaled m x u = 2 * x / 2 ^ (u + m.shift) := by
  cases m with
  | none => rw [scaled, Scaling.shift, pow_succ', Int.mul_ediv_mul_of_pos _ _ (by decide)]
  | down => rw [scaled, Scaling.shift, pow_succ' 2 (u + 1), Int.mul_ediv_mul_of_pos _ _ (by decide)]
  | up => rfl
  | reserved => exact absurd rfl hm

theorem scaled_neg_iff {m : Scaling} (hm : m ≠ .reserved) (x : Int) (u : Nat) : scaled m x u < 0 ↔ x < 0 := by
  rw [scaled_eq hm, Int.ediv_lt_iff_lt_mul (by positivity)]
  omega

/-- What the shifter puts out: the field that the unlimited reads take. -/
theorem extractLsb'_shifted {n u w : Nat} {m : Scaling} (hm : m ≠ .reserved) (hn : 0 < n)
    (h : u + m.shift + w ≤ n + 1) (x : BitVec n) :
    (x.setWidth (n + 1) <<< 1).extractLsb' (u + m.shift) w = BitVec.ofInt w (scaled m x.toInt u) := by
  rw [extractLsb'_eq_ofInt h, toInt_setWidth_shiftLeft hn, scaled_eq hm]

/-! ## The limiter -/

theorem limitedTo_eq (w : Nat) (q : Int) : limitedTo w q =
    if limits w q then (if q < 0 then BitVec.intMin w else BitVec.intMax w) else BitVec.ofInt w q := by
  have pos : (0 : Int) < 2 ^ (w - 1) := by positivity
  unfold limitedTo limits
  by_cases low : q < -(2 ^ (w - 1))
  · simp [low, show q < 0 by omega]
  · by_cases high : 2 ^ (w - 1) ≤ q
    · simp [low, high, show ¬ q < 0 by omega]
    · simp [low, high]

/-- A quotient by 2^k fits into `w` bits when the number fits into `w + k`. -/
theorem limits_ediv {w : Nat} (hw : 1 ≤ w) (x : Int) (k : Nat) : limits w (x / 2 ^ k) = limits (w + k) x := by
  have split : (2 : Int) ^ (w + k - 1) = 2 ^ (w - 1) * 2 ^ k := by rw [← pow_add]; congr 1; omega
  have pos : (0 : Int) < 2 ^ k := by positivity
  simp only [limits, Int.ediv_lt_iff_lt_mul pos, Int.le_ediv_iff_mul_le pos, split, neg_mul]

theorem limits_two_mul {n : Nat} (hn : 1 ≤ n) (x : Int) : limits (n + 1) (2 * x) = limits n x := by
  have half := limits_ediv hn (2 * x) 1
  rwa [pow_one, Int.mul_ediv_cancel_left _ (by decide), eq_comm] at half

/-- A scaled number is limited when the content does not fit into the bits that the shifter lets through. -/
theorem limits_scaled {m : Scaling} (hm : m ≠ .reserved) {u w n : Nat} (hw : 2 ≤ w) (hn : w + u + m.shift = n + 1)
    (x : Int) : limits w (scaled m x u) = limits n x := by
  rw [scaled_eq hm, limits_ediv (by omega), ← Nat.add_assoc, hn, limits_two_mul (by omega)]

/-- The bus sees the limit on the number's side, or the field that the shifter puts out. -/
theorem limitedTo_scaled {n u w : Nat} {m : Scaling} (hm : m ≠ .reserved) (hn : 0 < n) (h : u + m.shift + w ≤ n + 1)
    (x : BitVec n) : limitedTo w (scaled m x.toInt u) =
      if limits w (scaled m x.toInt u) then (if x.toInt < 0 then BitVec.intMin w else BitVec.intMax w)
      else (x.setWidth (n + 1) <<< 1).extractLsb' (u + m.shift) w := by
  simp only [limitedTo_eq, extractLsb'_shifted hm hn h, scaled_neg_iff hm]

/-- Equal bits from `p` up: the number fits into `p + 1` bits. -/
theorem topSame_eq_limits {p : Nat} (hp : p < 56) (a : AccWord) : topSame a p = !limits (p + 1) a.toInt := by
  have size : 2 ^ (56 - p) * 2 ^ p = 2 ^ 56 := by rw [← pow_add, Nat.sub_add_cancel hp.le]
  have two : 2 ≤ 2 ^ (56 - p) := Nat.le_self_pow (by omega) 2
  have half : 2 * 2 ^ p ≤ 2 ^ 56 := size ▸ Nat.mul_le_mul_right _ two
  have zero : a.toNat / 2 ^ p = 0 ↔ a.toNat < 2 ^ p := Nat.div_eq_zero_iff_lt (by positivity)
  have ones : a.toNat / 2 ^ p = 2 ^ (56 - p) - 1 ↔ 2 ^ 56 - 2 ^ p ≤ a.toNat := by
    have le := Nat.le_div_iff_mul_le (x := 2 ^ (56 - p) - 1) (y := a.toNat) (k := 2 ^ p) (by positivity)
    have lt : a.toNat / 2 ^ p < 2 ^ (56 - p) := Nat.div_lt_of_lt_mul (by rw [Nat.mul_comm, size]; exact a.isLt)
    rw [Nat.sub_one_mul, size] at le
    omega
  have bound := a.isLt
  have power : (2 : Int) ^ p = (2 ^ p : Nat) := by norm_cast
  rw [Bool.eq_iff_iff, topSame, limits, Nat.add_sub_cancel, power, Bool.or_eq_true, beq_iff_eq, beq_iff_eq, zero, ones,
    Bool.not_eq_true', decide_eq_false_iff_not, BitVec.toInt_eq_toNat_cond]
  split <;> omega

/-! ## The number of Sixteen-bit Arithmetic mode -/

/-- Its upper 24 bits are the extension and the upper sixteen bits of the MSP. -/
theorem extractLsb'_v40 (a : AccWord) : (v40 a).extractLsb' 16 24 = a.extractLsb' 32 24 := by
  rw [v40, extract_high _ _ (by decide), extract_all]
  exact BitVec.extractLsb'_append_extractLsb'_eq_extractLsb' (by decide)

theorem v40_ediv (a : AccWord) : (v40 a).toInt / 2 ^ 16 = a.toInt / 2 ^ 32 := by
  calc (v40 a).toInt / 2 ^ 16
    _ = ((v40 a).extractLsb' 16 24).toInt :=
      (toInt_extractLsb'_top (by decide : 16 + 24 = 40) (by decide) _).symm
    _ = (a.extractLsb' 32 24).toInt := by rw [extractLsb'_v40]
    _ = a.toInt / 2 ^ 32 := toInt_extractLsb'_top (by decide : 32 + 24 = 56) (by decide) a

theorem v40_neg_iff (a : AccWord) : (v40 a).toInt < 0 ↔ a.toInt < 0 := by
  have := v40_ediv a
  omega

/-- From the upper half on, the mode's number fits where the whole content does, with the sixteen bits left out. -/
theorem limits_v40 {n : Nat} (hn : 1 ≤ n) (a : AccWord) : limits (n + 16) (v40 a).toInt = limits (n + 32) a.toInt := by
  rw [← limits_ediv hn, ← limits_ediv hn, v40_ediv]

/-! ## The reads -/

variable (s : State)

/-- A read is limited where E would be set of the content (40_alu_common R201, R215). -/
theorem State.flagE_eq_limits (hs : s.scaling ≠ .reserved) (a : AccWord) {u w : Nat} (hw : 2 ≤ w) (h : w + u = 48) :
    s.flagE a = limits w (scaled s.scaling a.toInt u) := by
  have small : s.scaling.intPortion < 56 := by cases s.scaling <;> decide
  have place : w + u + s.scaling.shift = s.scaling.intPortion + 1 + 1 := by
    rw [h]; revert hs; cases s.scaling <;> decide
  rw [State.flagE, if_neg hs, topSame_eq_limits small, Bool.not_not, limits_scaled hs hw place]

/-- In Sixteen-bit Arithmetic mode too (40_alu_common R233). -/
theorem State.flagE_eq_limits_v40 (hs : s.scaling ≠ .reserved) (a : AccWord) {u w : Nat} (hw : 2 ≤ w) (h : w + u = 32) :
    s.flagE a = limits w (scaled s.scaling (v40 a).toInt u) := by
  have place : w + u + s.scaling.shift = 15 + s.scaling.shift + 16 + 1 := by omega
  have whole : 24 + 24 + s.scaling.shift = 15 + s.scaling.shift + 32 + 1 := by omega
  rw [s.flagE_eq_limits hs a (u := 24) (w := 24) (by decide) rfl, limits_scaled hs (by decide) whole,
    limits_scaled hs hw place, limits_v40 (by omega)]

/-- The S term of a read looks at the two bits below the sign of the scaled number (40_alu_common R207). -/
theorem State.flagS_eq (hs : s.scaling ≠ .reserved) (i : Nat) (a : AccWord) : s.flagS i a = readTermS a s.scaling := by
  rw [State.flagS, if_neg hs]
  revert hs
  cases s.scaling with
  | none | down | up => exact fun _ => rfl
  | reserved => exact fun hs => absurd rfl hs

theorem Scaling.shift_le (m : Scaling) : m.shift ≤ 2 := by cases m <;> decide

theorem State.rdAcc_eq (d : Acc) (hsa : s.sa = false) (hs : s.scaling ≠ .reserved) :
    let q := scaled s.scaling (s.acc d).toInt 24
    s.rdAcc d = ⟨limitedTo 24 q, readTermS (s.acc d) s.scaling, limits 24 q⟩ := by
  have lim := s.flagE_eq_limits hs (s.acc d) (u := 24) (w := 24) (by decide) rfl
  have fits := s.scaling.shift_le
  have word := limitedTo_scaled hs (by decide) (u := 24) (w := 24) (by omega) (s.acc d)
  simp only [State.rdAcc, if_neg hs, hsa, Bool.false_eq_true, if_false, s.flagS_eq hs, word, ← lim,
    BitVec.msb_eq_toInt, decide_eq_true_eq]
  rfl

theorem State.rdAcc_eq_of_sa (d : Acc) (hsa : s.sa = true) (hs : s.scaling ≠ .reserved) :
    let q := scaled s.scaling (s.accSrc d) 16
    s.rdAcc d = ⟨(limitedTo 16 q).signExtend 24, readTermS (s.acc d) s.scaling, limits 16 q⟩ := by
  have lim := s.flagE_eq_limits_v40 hs (s.acc d) (u := 16) (w := 16) (by decide) rfl
  have fits := s.scaling.shift_le
  have word := limitedTo_scaled hs (by decide) (u := 16) (w := 16) (by omega) (v40 (s.acc d))
  simp only [State.rdAcc, if_neg hs, hsa, if_true, s.flagS_eq hs, State.accSrc, accInt, word, ← lim,
    BitVec.msb_eq_toInt, decide_eq_true_eq, v40_neg_iff]
  rfl

theorem State.rdAccLong_eq (d : Acc) (hsa : s.sa = false) (hs : s.scaling ≠ .reserved) :
    let q := scaled s.scaling (s.acc d).toInt 0
    let l : Long := limitedTo 48 q
    s.rdAccLong d = (⟨l.extractLsb' 24 24, readTermS (s.acc d) s.scaling, limits 48 q⟩, l.extractLsb' 0 24) := by
  have lim := s.flagE_eq_limits hs (s.acc d) (u := 0) (w := 48) (by decide) rfl
  have fits := s.scaling.shift_le
  have long := limitedTo_scaled hs (by decide) (u := 0) (w := 48) (by omega) (s.acc d)
  simp only [State.rdAccLong, if_neg hs, hsa, Bool.false_eq_true, if_false, s.flagS_eq hs, long, ← lim,
    BitVec.msb_eq_toInt, decide_eq_true_eq, Nat.zero_add]
  rfl

theorem State.rdAccLong_eq_of_sa (d : Acc) (hsa : s.sa = true) (hs : s.scaling ≠ .reserved) :
    let q := scaled s.scaling (s.accSrc d) 0
    let l : BitVec 32 := limitedTo 32 q
    s.rdAccLong d = (⟨(l.extractLsb' 16 16).signExtend 24, readTermS (s.acc d) s.scaling, limits 32 q⟩,
      (l.extractLsb' 0 16).setWidth 24) := by
  have lim := s.flagE_eq_limits_v40 hs (s.acc d) (u := 0) (w := 32) (by decide) rfl
  have fits := s.scaling.shift_le
  have long := limitedTo_scaled hs (by decide) (u := 0) (w := 32) (by omega) (v40 (s.acc d))
  simp only [State.rdAccLong, if_neg hs, hsa, if_true, s.flagS_eq hs, State.accSrc, accInt, long, ← lim,
    BitVec.msb_eq_toInt, decide_eq_true_eq, v40_neg_iff, Nat.zero_add]
  rfl

/-- In either mode a read sets S by the same two bits. -/
theorem State.rdAcc_sTerm (d : Acc) (hs : s.scaling ≠ .reserved) :
    (s.rdAcc d).sTerm = readTermS (s.acc d) s.scaling ∧ (s.rdAccLong d).1.sTerm = readTermS (s.acc d) s.scaling := by
  cases hsa : s.sa with
  | false => rw [s.rdAcc_eq d hsa hs, s.rdAccLong_eq d hsa hs]; exact ⟨rfl, rfl⟩
  | true => rw [s.rdAcc_eq_of_sa d hsa hs, s.rdAccLong_eq_of_sa d hsa hs]; exact ⟨rfl, rfl⟩

/-- The 24-bit parts of the accumulators, unshifted and unlimited (40_alu_common R213, R231). -/
theorem State.rdAlu_part (r : AluReg) (v : Word)
    (h : (r, v) ∈ [(.a1, s.alu.a.extractLsb' 24 24), (.b1, s.alu.b.extractLsb' 24 24), (.a0, s.alu.a.extractLsb' 0 24),
      (.b0, s.alu.b.extractLsb' 0 24)]) :
    (s.rdAlu r).w = if s.sa then (v.extractLsb' 8 16).setWidth 24 else v := by
  simp only [List.mem_cons, Prod.mk.injEq, List.not_mem_nil, or_false] at h
  obtain ⟨rfl, rfl⟩ | ⟨rfl, rfl⟩ | ⟨rfl, rfl⟩ | ⟨rfl, rfl⟩ := h <;> rfl

end Sys2Proof.Machine

open Sys2Proof Sys2Proof.Machine

/-- Settles O9, from the equations of the word and the long read in each arithmetic mode. -/
theorem accumulator_read : Obligations.Accumulator_read := by
  intro s d
  refine ⟨s.rdAcc_sTerm d, fun hsa hs => ?_, fun hsa hs => ?_, s.rdAlu_part,
    BitVec.toInt_signExtend_of_le (by decide), BitVec.toInt_signExtend_of_le (by decide)⟩
  · rw [s.rdAcc_eq d hsa hs, s.rdAccLong_eq d hsa hs]
    exact ⟨rfl, rfl, (BitVec.extractLsb'_append_extractLsb'_eq_extractLsb' rfl).trans (extract_all _), rfl⟩
  · rw [s.rdAcc_eq_of_sa d hsa hs, s.rdAccLong_eq_of_sa d hsa hs]
    exact ⟨rfl, rfl, rfl, rfl, rfl⟩

end

section
/-!
The program control bytes: ANDI and ORI on MR, CCR, EOM and COM (43_logical R351, R362; 10_state R28, R29, R30).
-/
namespace Sys2Proof

/-! ## A byte in its register -/

/-- The lowest bit of the byte in its register. -/
def PcuByte.low : PcuByte → Nat
  | .mr | .eom => 8
  | .ccr | .com => 0

/-- Whether bit `k` of the register lies in the byte. -/
def PcuByte.covers (e : PcuByte) (k : Nat) : Bool := decide (e.low ≤ k ∧ k < e.low + 8)

theorem PcuByte.covers_of_low_eq_zero {e : PcuByte} (h : e.low = 0) (k : Nat) : e.covers k = decide (k < 8) := by
  simp [covers, h]

theorem PcuByte.covers_of_low_eq_eight {e : PcuByte} (h : e.low = 8) (k : Nat) :
    e.covers k = decide (8 ≤ k ∧ k < 16) := by
  simp [covers, h]

namespace Machine

variable (s : State) {k : Nat}

/-- An immediate of eight bits has no bit above the low byte. -/
theorem decide_lt_and_getLsbD (i : BitVec 8) (k : Nat) : (decide (k < 8) && i.getLsbD k) = i.getLsbD k :=
  Bool.and_eq_right_iff_imp.2 fun h => decide_eq_true (BitVec.lt_of_getLsbD h)

theorem getLsbD_byteMask (e : PcuByte) (hk : k < 24) : (byteMask e).getLsbD k = e.covers k := by
  have all : ∀ k < 24, (byteMask e).getLsbD k = e.covers k := by
    cases e with
    | mr | ccr | com | eom => decide
  exact all k hk

theorem getLsbD_shiftLeft_low (i : BitVec 8) (e : PcuByte) (hk : k < 24) :
    (i.setWidth 24 <<< e.low).getLsbD k = (e.covers k && i.getLsbD (k - e.low)) := by
  rw [BitVec.getLsbD_shiftLeft, BitVec.getLsbD_setWidth, PcuByte.covers]
  by_cases h : k - e.low < 8
  · have inside : k < e.low + 8 := by omega
    have above : k - e.low < 24 := by omega
    simp only [hk, inside, above, decide_true, Bool.true_and, and_true, ← not_lt, decide_not]
  · rw [BitVec.getLsbD_of_ge i _ (by omega), Bool.and_false, Bool.and_false, Bool.and_false]

/-- The register of a byte: SR or OMR. -/
def State.byteReg (s : State) : PcuByte → Word
  | .mr | .ccr => s.pcu.sr
  | .com | .eom => s.pcu.omr

/-- The bits that the device implements of a byte's register. -/
def implemented : PcuByte → Word
  | .mr | .ccr => 0xFBEFFF#24
  | .com | .eom => omrMask

theorem getLsbD_implemented_mr (hk : k < 24) (h18 : k ≠ 18) (h12 : k ≠ 12) : (implemented .mr).getLsbD k = true := by
  have all : ∀ k < 24, k ≠ 18 → k ≠ 12 → (implemented .mr).getLsbD k = true := by decide
  exact all k hk h18 h12

/-! ## The registers written -/

theorem State.writeSr_sr (v : Word) : (s.writeSr v).pcu.sr = v &&& 0xFBEFFF#24 := by
  simp only [State.writeSr]
  split <;> simp

theorem State.writeOmr_omr (v : Word) : (s.writeOmr v).pcu.omr = v &&& omrMask := by
  simp only [State.writeOmr]
  split <;> rfl

theorem State.byteReg_controlByte (f : Word → Word → Word) (w : Word) (e : PcuByte) :
    (controlByte f w e s).byteReg e = f (s.byteReg e) (w <<< e.low) &&& implemented e := by
  cases e with
  | mr => exact s.writeSr_sr _
  | ccr => rw [PcuByte.low, BitVec.shiftLeft_zero]; exact s.writeSr_sr _
  | com => rw [PcuByte.low, BitVec.shiftLeft_zero]; exact s.writeOmr_omr _
  | eom => exact s.writeOmr_omr _

theorem State.byteReg_advance (n : Nat) (e : PcuByte) : (s.advance n).byteReg e = s.byteReg e := by
  cases e with
  | mr | ccr | com | eom => rfl

/-! ## The two instructions, bit by bit -/

/-- The register of byte `e` holds the bits `f`, and zero where the device has no bit. -/
def HoldsBits (e : PcuByte) (t : State) (f : Nat → Bool) : Prop :=
  ∀ k < 24, (t.byteReg e).getLsbD k = (f k && (implemented e).getLsbD k)

theorem exec_andi_holdsBits (i : BitVec 8) (e : PcuByte) : ∃ t, exec (.andi i e) s = .next t ∧
    HoldsBits e t fun k => (s.byteReg e).getLsbD k && (!e.covers k || i.getLsbD (k - e.low)) := by
  refine ⟨_, rfl, fun k hk => ?_⟩
  rw [State.byteReg_advance, State.byteReg_controlByte]
  simp only [BitVec.getLsbD_and, BitVec.getLsbD_or, BitVec.getLsbD_not, getLsbD_shiftLeft_low i e hk,
    getLsbD_byteMask e hk, hk, decide_true, Bool.true_and]
  cases e.covers k <;> simp

theorem exec_ori_holdsBits (i : BitVec 8) (e : PcuByte) : ∃ t, exec (.ori i e) s = .next t ∧
    HoldsBits e t fun k => (s.byteReg e).getLsbD k || (e.covers k && i.getLsbD (k - e.low)) := by
  refine ⟨_, rfl, fun k hk => ?_⟩
  rw [State.byteReg_advance, State.byteReg_controlByte, BitVec.getLsbD_and, BitVec.getLsbD_or,
    getLsbD_shiftLeft_low i e hk]

/-- Both instructions on the high byte `hi` and the low byte `lo` of one register. -/
theorem exec_andi_ori_bytes (i : BitVec 8) {hi lo : PcuByte} (high : hi.low = 8) (low : lo.low = 0)
    (reg : ∀ x : State, x.byteReg lo = x.byteReg hi) (same : implemented lo = implemented hi) :
    ∃ t u v w, exec (.andi i hi) s = .next t ∧ exec (.andi i lo) s = .next u ∧ exec (.ori i hi) s = .next v ∧
      exec (.ori i lo) s = .next w ∧
      (∀ x ∈ [t, u, v, w], ∀ k < 24, (implemented hi).getLsbD k = false → (x.byteReg hi).getLsbD k = false) ∧
      ∀ k < 24, (implemented hi).getLsbD k = true →
        (t.byteReg hi).getLsbD k =
          ((s.byteReg hi).getLsbD k && (!decide (8 ≤ k ∧ k < 16) || i.getLsbD (k - 8))) ∧
        (u.byteReg hi).getLsbD k = ((s.byteReg hi).getLsbD k && (!decide (k < 8) || i.getLsbD k)) ∧
        (v.byteReg hi).getLsbD k =
          ((s.byteReg hi).getLsbD k || (decide (8 ≤ k ∧ k < 16) && i.getLsbD (k - 8))) ∧
        (w.byteReg hi).getLsbD k = ((s.byteReg hi).getLsbD k || i.getLsbD k) := by
  obtain ⟨t, ht, bt⟩ := exec_andi_holdsBits s i hi
  obtain ⟨u, hu, bu⟩ := exec_andi_holdsBits s i lo
  obtain ⟨v, hv, bv⟩ := exec_ori_holdsBits s i hi
  obtain ⟨w, hw, bw⟩ := exec_ori_holdsBits s i lo
  simp only [HoldsBits, reg, same, high, low, PcuByte.covers_of_low_eq_eight high,
    PcuByte.covers_of_low_eq_zero low, Nat.sub_zero, decide_lt_and_getLsbD] at bt bu bv bw
  refine ⟨t, u, v, w, ht, hu, hv, hw, fun x hx k hk off => ?_, fun k hk on => ?_⟩
  · revert x
    simp [bt k hk, bu k hk, bv k hk, bw k hk, off]
  · rw [bt k hk, bu k hk, bv k hk, bw k hk, on]
    simp only [Bool.and_true, and_self]

end Machine
end Sys2Proof

open Sys2Proof Sys2Proof.Machine

/-- Settles O11: MR and CCR are the bytes of SR, EOM and COM those of OMR. -/
theorem control_bytes : Obligations.Control_bytes := by
  intro s i
  refine ⟨?_, exec_andi_ori_bytes s i rfl rfl (fun _ => rfl) rfl⟩
  obtain ⟨t, u, v, w, ht, hu, hv, hw, reserved, bits⟩ :=
    exec_andi_ori_bytes s i (hi := .mr) (lo := .ccr) rfl rfl (fun _ => rfl) rfl
  exact ⟨t, u, v, w, ht, hu, hv, hw, fun x hx => ⟨reserved x hx 18 (by decide) rfl, reserved x hx 12 (by decide) rfl⟩,
    fun k hk h18 h12 => bits k hk (getLsbD_implemented_mr hk h18 h12)⟩

end

section
/-!
The stack without its extension (10_state R60, R61) and the loop starts (45_loop R401 to R404).
-/
namespace Sys2Proof.Machine

variable (s : State)

/-! ## The stack without its extension (10_state R60, R61) -/

theorem getLsbD_four_of_lt {w : Word} (h : w.toNat < 16) : w.getLsbD 4 = false :=
  Nat.testBit_lt_two_pow h

/-- With no stack error on record SP counts as a six-bit number. -/
theorem toNat_spCount {sp : Word} (h : sp.toNat < 16) (d : BitVec 6) : (spCount sp d).toNat = (sp.toNat + d.toNat) % 64 := by
  have high : sp.extractLsb' 6 18 = 0 := by
    apply BitVec.eq_of_toNat_eq
    rw [BitVec.extractLsb'_toNat, Nat.shiftRight_eq_div_pow, Nat.div_eq_of_lt (by omega)]
    rfl
  simp only [spCount, getLsbD_four_of_lt h, high, Bool.false_eq_true, if_false]
  rw [BitVec.toNat_append]
  simp

theorem spCount_up {sp : Word} (h : sp.toNat < 15) : spCount sp 1 = sp + 1 := by
  apply BitVec.eq_of_toNat_eq
  rw [toNat_spCount (by omega)]
  simp
  omega

theorem spCount_down {sp : Word} (h : sp.toNat < 16) (one : 1 ≤ sp.toNat) : spCount sp 0x3F#6 = sp - 1 := by
  apply BitVec.eq_of_toNat_eq
  rw [toNat_spCount h]
  simp
  omega

theorem State.slot_eq_slotAt (t : State) {k : Int} (h : (t.pcu.sp.toNat : Int) = s.pcu.sp.toNat + k) :
    t.slot = slotAt s k := by
  simp only [State.slot, slotAt, Fin.ext_iff, Fin.val_ofNat]
  omega

theorem State.afterPush_of_plain (plain : s.sen = false) : s.afterPush = s := by simp [State.afterPush, plain]

theorem State.afterPull_of_plain (plain : s.sen = false) : s.afterPull = s := by simp [State.afterPull, plain]

/-- A push where there is room writes the location above the top, and nothing besides SP, SC and the two halves. -/
theorem State.push_of_room (room : RoomUp s 1) (h l : Word) :
    s.push h l = { s with pcu := { s.pcu with
      sp := s.pcu.sp + 1, sc := s.pcu.sc + 1
      ssh := s.pcu.ssh.set (slotAt s 1) h, ssl := s.pcu.ssl.set (slotAt s 1) l } } := by
  obtain ⟨plain, low⟩ := room
  have count : spCount s.pcu.sp 1 = s.pcu.sp + 1 := spCount_up (by omega)
  have noError : (s.pcu.sp + 1).getLsbD 4 = false := getLsbD_four_of_lt (by bv_omega)
  have up : s.spUp = s.withSp (s.pcu.sp + 1) := by
    simp only [State.spUp, plain, count, noError, Bool.and_false, Bool.false_eq_true, if_false]
  have top : (s.withSp (s.pcu.sp + 1)).slot = slotAt s 1 :=
    s.slot_eq_slotAt _ (by rw [State.withSp_sp]; bv_omega)
  simp only [State.push, up, top]
  exact State.afterPush_of_plain _ plain

/-- A pull from a stack that holds an entry moves SP and SC alone. -/
theorem State.pop_of_room (room : RoomDown s 1) :
    s.pop = { s with pcu := { s.pcu with sp := s.pcu.sp - 1, sc := s.pcu.sc - 1 } } := by
  obtain ⟨plain, low, one⟩ := room
  have count : spCount s.pcu.sp 0x3F#6 = s.pcu.sp - 1 := spCount_down low one
  have noError : (s.pcu.sp - 1).getLsbD 4 = false := getLsbD_four_of_lt (by bv_omega)
  have down : s.spDown = s.withSp (s.pcu.sp - 1) := by
    simp only [State.spDown, plain, count, noError, Bool.and_false, Bool.false_eq_true, if_false]
  simp only [State.pop, down]
  exact State.afterPull_of_plain _ plain

/-- The two pulls that leave a loop take LF and FV from the top entry, LA and LC from the one below it. -/
theorem State.leaveLoop_of_room (room : RoomDown s 2) :
    s.leaveLoop = { s with pcu := { s.pcu with
      sp := s.pcu.sp - 2, sc := s.pcu.sc - 2, la := s.pcu.ssh[slotAt s (-1)], lc := s.pcu.ssl[slotAt s (-1)]
      sr := setBit (setBit s.pcu.sr 15 (s.ssl.getLsbD 15)) 16 (s.ssl.getLsbD 16) } } := by
  obtain ⟨plain, low, two⟩ := room
  let t : State := { s with pcu := { s.pcu with
    sp := s.pcu.sp - 1, sc := s.pcu.sc - 1
    sr := setBit (setBit s.pcu.sr 15 (s.ssl.getLsbD 15)) 16 (s.ssl.getLsbD 16) } }
  have first : s.pop.withLoopFlags (s.ssl.getLsbD 15) (s.ssl.getLsbD 16) = t := by
    rw [s.pop_of_room ⟨plain, low, by omega⟩]
    rfl
  have sp : t.pcu.sp.toNat = s.pcu.sp.toNat - 1 := by show (s.pcu.sp - 1).toNat = _; bv_omega
  have top : t.slot = slotAt s (-1) := s.slot_eq_slotAt t (by omega)
  have second := t.pop_of_room ⟨plain, by omega, by omega⟩
  have la : t.ssh = s.pcu.ssh[slotAt s (-1)] := congrArg (fun j : Fin 16 => s.pcu.ssh[j]) top
  have lc : t.ssl = s.pcu.ssl[slotAt s (-1)] := congrArg (fun j : Fin 16 => s.pcu.ssl[j]) top
  have two_sp : s.pcu.sp - 2 = s.pcu.sp - 1 - 1 := by bv_omega
  have two_sc : s.pcu.sc - 2 = s.pcu.sc - 1 - 1 := by bv_omega
  unfold State.leaveLoop
  dsimp only
  rw [first, second, la, lc, two_sp, two_sc]
  rfl

theorem State.push_top (room : RoomUp s 1) (h l : Word) : (s.push h l).ssh = h ∧ (s.push h l).ssl = l := by
  have top : (s.push h l).slot = slotAt s 1 := by
    refine s.slot_eq_slotAt _ ?_
    rw [s.push_of_room room]
    obtain ⟨-, low⟩ := room
    show ((s.pcu.sp + 1).toNat : Int) = _
    bv_omega
  simp only [State.ssh, State.ssl, top]
  simp [s.push_of_room room]

/-- LF and FV set to anything and then back. -/
theorem setBit_loopFlags_restore (v : Word) (a b : Bool) :
    setBit (setBit (setBit (setBit v 15 a) 16 b) 15 (v.getLsbD 15)) 16 (v.getLsbD 16) = v := by
  apply BitVec.eq_of_getLsbD_eq
  intro k hk
  simp only [getLsbD_setBit]
  grind

/-- A loop just entered and left again: LA and LC come from the entry that was at the top before. -/
theorem State.leaveLoop_enterLoop (plain : s.sen = false) (lo : 1 ≤ s.pcu.sp.toNat) (hi : s.pcu.sp.toNat + 1 < 16) (la : Word)
    (forever : Bool) :
    (s.enterLoop la forever).leaveLoop = { s with pcu := { s.pcu with
      sp := s.pcu.sp - 1, sc := s.pcu.sc - 1, la := s.ssh, lc := s.ssl
      ssh := s.pcu.ssh.set (slotAt s 1) (s.nextPc 2), ssl := s.pcu.ssl.set (slotAt s 1) s.pcu.sr } } := by
  generalize he : s.enterLoop la forever = e
  have entered : e = { s with pcu := { s.pcu with
      sp := s.pcu.sp + 1, sc := s.pcu.sc + 1, la := la, sr := setBit (setBit s.pcu.sr 15 true) 16 forever
      ssh := s.pcu.ssh.set (slotAt s 1) (s.nextPc 2), ssl := s.pcu.ssl.set (slotAt s 1) s.pcu.sr } } := by
    simp only [← he, State.enterLoop, s.push_of_room ⟨plain, hi⟩]
    rfl
  have sp : e.pcu.sp = s.pcu.sp + 1 := by rw [entered]
  have top : e.slot = slotAt s 1 := s.slot_eq_slotAt e (by rw [sp]; bv_omega)
  have below : slotAt e (-1) = s.slot := by
    rw [s.slot_eq_slotAt s (k := 0) (by omega)]
    simp only [slotAt, sp, Fin.ext_iff, Fin.val_ofNat]
    bv_omega
  have apart : (slotAt s 1).val ≠ s.slot.val := by
    simp only [slotAt, State.slot, Fin.val_ofNat]
    omega
  have ssl : e.ssl = s.pcu.sr := by
    simp only [State.ssl, top]
    simp [entered]
  have room : RoomDown e 2 := ⟨by rw [entered]; exact plain, by rw [sp]; bv_omega, by rw [sp]; bv_omega⟩
  have ssh (v : Word) : (s.pcu.ssh.set (slotAt s 1) v)[s.slot] = s.pcu.ssh[s.slot] := Vector.getElem_set_ne _ _ apart
  have lc (v : Word) : (s.pcu.ssl.set (slotAt s 1) v)[s.slot] = s.pcu.ssl[s.slot] := Vector.getElem_set_ne _ _ apart
  have sp_less : s.pcu.sp + 1 - 2 = s.pcu.sp - 1 := by bv_omega
  have sc_less : s.pcu.sc + 1 - 2 = s.pcu.sc - 1 := by bv_omega
  rw [e.leaveLoop_of_room room]
  simp only [ssl, below]
  simp only [entered, ssh, lc, setBit_loopFlags_restore, sp_less, sc_less, State.ssh, State.ssl]

/-! ## Loop starts (45_loop R401 to R404) -/

/-- An operand read from `t`, with `u` as the state then: at most an address register has changed, or S and L are set. -/
structure OperandRead (t u : State) : Prop where
  pcu : u.pcu = { t.pcu with sr := u.pcu.sr }
  sr : ∀ k, k ≠ 6 → k ≠ 7 → u.srBit k = t.srBit k
  alu : u.alu = t.alu
  mem : u.mem = t.mem
  irq : u.irq = t.irq
  port : u.port = t.port
  dma : u.dma = t.dma
  ctl : u.ctl = t.ctl

theorem OperandRead.pc {t u : State} (h : OperandRead t u) : u.pcu.pc = t.pcu.pc := by rw [h.pcu]

theorem OperandRead.refl : OperandRead s s := ⟨rfl, fun _ _ _ => rfl, rfl, rfl, rfl, rfl, rfl, rfl⟩

theorem OperandRead.applyUpd (u : Option (Fin 8 × Word)) : OperandRead s (s.applyUpd u) := by
  constructor <;> simp [State.srBit]

theorem OperandRead.rdReg {r : Reg} (h : r ≠ .c .ssh) : OperandRead s (s.rdReg r).2 := by
  match r with
  | .c c =>
    have noPop : (s.rdReg (.c c)).2 = s := by
      have : c ≠ .ssh := fun e => h (e ▸ rfl)
      simp [State.rdReg, this]
    rw [noPop]
    exact .refl s
  | .d d =>
    have sr (k : Nat) (h6 : k ≠ 6) (h7 : k ≠ 7) : (s.mergeSL (s.rdD d)).srBit k = s.srBit k := by
      simp only [State.mergeSL, State.srBit_withCcr, getLsbD_orSL, State.ccr_getLsbD, h6, h7]
      split <;> simp [*]
    exact ⟨rfl, sr, by simp [State.rdReg], by simp [State.rdReg], by simp [State.rdReg], by simp [State.rdReg],
      by simp [State.rdReg], by simp [State.rdReg]⟩

theorem wordAddress_eq (n : Nat) : wordAddress s n = s.opAddr n := by
  unfold wordAddress State.opAddr
  cases s.ctl.ctx with
  | none => rfl
  | some c =>
    have counted : c.base + BitVec.ofInt 24 (2 - c.words.length - n) = c.next - BitVec.ofNat 24 n := by
      simp only [IntCtx.next, Int.sub_eq_add_neg, BitVec.ofInt_add, BitVec.ofInt_neg, BitVec.ofInt_natCast, BitVec.ofInt_ofNat]
      generalize BitVec.ofNat 24 c.words.length = l
      generalize BitVec.ofNat 24 n = m
      bv_omega
    cases s.ctl.phase <;> simp [counted]

/-- Every counted loop start is `startLoop`, and what it reads its count from is an operand read. -/
theorem exec_loopStart {s : State} {i : Instr} {la : Word} {src : State → Word × State} (h : loopStart s i = some (la, src)) :
    exec i s = startLoop src la s ∧ ∀ t, OperandRead t (src t).2 := by
  cases i <;> simp only [loopStart, reduceCtorEq, Option.some.injEq, Prod.mk.injEq] at h
  case doEa sp e d => obtain ⟨rfl, rfl⟩ := h; exact ⟨rfl, fun t => .applyUpd t _⟩
  case doAa sp a d => obtain ⟨rfl, rfl⟩ := h; exact ⟨rfl, .refl⟩
  case doNum n d => obtain ⟨rfl, rfl⟩ := h; exact ⟨rfl, .refl⟩
  case doReg r d =>
    obtain ⟨notSsh, rfl, rfl⟩ : r ≠ .c .ssh ∧ d = la ∧ (fun t : State => t.rdReg r) = src := by
      split at h <;> simp_all
    exact ⟨if_neg notSsh, fun t => .rdReg t notSsh⟩
  case dorEa sp e d => obtain ⟨rfl, rfl⟩ := h; rw [wordAddress_eq]; exact ⟨rfl, fun t => .applyUpd t _⟩
  case dorAa sp a d => obtain ⟨rfl, rfl⟩ := h; rw [wordAddress_eq]; exact ⟨rfl, .refl⟩
  case dorNum n d => obtain ⟨rfl, rfl⟩ := h; rw [wordAddress_eq]; exact ⟨rfl, .refl⟩
  case dorReg r d =>
    obtain ⟨notSsh, rfl, rfl⟩ : r ≠ .c .ssh ∧ wordAddress s 2 + d = la ∧ (fun t : State => t.rdReg r) = src := by
      split at h <;> simp_all
    rw [wordAddress_eq]
    exact ⟨if_neg notSsh, fun t => .rdReg t notSsh⟩

/-- The address after an instruction sees the PC and the context of its state only. -/
theorem State.nextPc_congr {s t : State} (pc : t.pcu.pc = s.pcu.pc) (ctx : t.ctl.ctx = s.ctl.ctx) (phase : t.ctl.phase = s.ctl.phase)
    (n : Nat) : t.nextPc n = s.nextPc n := by
  rw [State.nextPc, State.nextPc, State.frozen, State.frozen, pc, ctx, phase]

theorem setBit_lf_on_fv_off (v : Word) : setBit (setBit v 15 true) 16 false = (v ||| 0x008000#24) &&& 0xFEFFFF#24 := rfl

theorem setBit_lf_on_fv_on (v : Word) : setBit (setBit v 15 true) 16 true = v ||| 0x018000#24 := by
  show v ||| _ ||| _ = _
  rw [BitVec.or_assoc]
  rfl

/-- A loop entered from `q`, which has the PC and the context of `s`. -/
theorem State.enterLoop_advance {s q : State} (pc : q.pcu.pc = s.pcu.pc) (ctl : q.ctl.ctx = s.ctl.ctx ∧ q.ctl.phase = s.ctl.phase)
    (la : Word) (forever : Bool) :
    (q.enterLoop la forever).advance 2 = (((q.push (s.nextPc 2) q.pcu.sr).withLa la).withSr
      (setBit (setBit q.pcu.sr 15 true) 16 forever)).withPc (s.nextPc 2) := by
  obtain ⟨ctx, phase⟩ := ctl
  have next : q.nextPc 2 = s.nextPc 2 := State.nextPc_congr pc ctx phase 2
  have after : (q.enterLoop la forever).nextPc 2 = s.nextPc 2 :=
    (State.nextPc_congr (by simp) (by simp) (by simp) 2).trans next
  rw [State.advance, after, State.enterLoop, next, State.withLoopFlags]
  simp

/-- The loop's body is entered. -/
theorem startLoop_of_count {src : State → Word × State} (la : Word) (reads : ∀ t, OperandRead t (src t).2) :
    let n := (src (s.push s.pcu.la s.pcu.lc)).1
    let q := (src (s.push s.pcu.la s.pcu.lc)).2.withLc n
    (n ≠ 0 ∨ s.sc = true) →
      startLoop src la s = .next ((((q.push (s.nextPc 2) q.pcu.sr).withLa la).withSr
        ((q.pcu.sr ||| 0x008000#24) &&& 0xFEFFFF#24)).withPc (s.nextPc 2)) := by
  intro n q count
  have read := reads (s.push s.pcu.la s.pcu.lc)
  have body : ¬(n = 0 ∧ s.sc = false) := by
    rintro ⟨zero, plain⟩
    exact count.elim (· zero) (by simp [plain])
  rw [← setBit_lf_on_fv_off, ← State.enterLoop_advance (by simp [q, read.pc]) (by simp [q, read.ctl]) la false]
  simp only [startLoop]
  exact if_neg body

/-- A loop left at once, where the stack has room: the two entries that its start has pushed are pulled. -/
theorem leaveLoop_of_zero {q : State} (room : RoomUp s 2) (read : OperandRead (s.push s.pcu.la s.pcu.lc) q) (la n : Word) :
    ((q.withLc n).enterLoop la false).leaveLoop = { q with pcu := { s.pcu with
      sr := q.pcu.sr
      ssh := (s.pcu.ssh.set (slotAt s 1) s.pcu.la).set (slotAt s 2) (s.nextPc 2)
      ssl := (s.pcu.ssl.set (slotAt s 1) s.pcu.lc).set (slotAt s 2) q.pcu.sr } } := by
  obtain ⟨plain, low⟩ := room
  have pushed := s.push_of_room ⟨plain, by omega⟩ s.pcu.la s.pcu.lc
  obtain ⟨topHigh, topLow⟩ := s.push_top ⟨plain, by omega⟩ s.pcu.la s.pcu.lc
  obtain ⟨sr, pcu⟩ : ∃ sr, q.pcu = { (s.push s.pcu.la s.pcu.lc).pcu with sr := sr } := ⟨_, read.pcu⟩
  let r := q.withLc n
  have sp : r.pcu.sp = s.pcu.sp + 1 := by show q.pcu.sp = _; rw [pcu, pushed]
  have next : r.nextPc 2 = s.nextPc 2 :=
    State.nextPc_congr (by simp [r, read.pc]) (by simp [r, read.ctl]) (by simp [r, read.ctl]) 2
  have ssh : r.ssh = s.pcu.la := by rw [← topHigh]; show q.pcu.ssh[q.slot] = _; simp only [State.slot, pcu]; rfl
  have ssl : r.ssl = s.pcu.lc := by rw [← topLow]; show q.pcu.ssl[q.slot] = _; simp only [State.slot, pcu]; rfl
  have above : slotAt r 1 = slotAt s 2 := by
    simp only [slotAt, sp, Fin.ext_iff, Fin.val_ofNat]
    bv_omega
  have extension : r.sen = false := by show q.pcu.omr.getLsbD 20 = _; rw [pcu, pushed]; exact plain
  have sp_back : s.pcu.sp + 1 - 1 = s.pcu.sp := by bv_omega
  have sc_back : s.pcu.sc + 1 - 1 = s.pcu.sc := by bv_omega
  rw [r.leaveLoop_enterLoop extension (by rw [sp]; bv_omega) (by rw [sp]; bv_omega)]
  simp only [above, next, ssh, ssl]
  simp only [r, State.withLc, pcu, pushed, sp_back, sc_back]

/-- The loop's body is left out. -/
theorem startLoop_of_zero {src : State → Word × State} (la : Word) (plain : s.sc = false)
    (zero : (src (s.push s.pcu.la s.pcu.lc)).1 = 0) :
    startLoop src la s = .next ((((src (s.push s.pcu.la s.pcu.lc)).2.withLc 0).enterLoop la false).leaveLoop.withPc (la + 1)) := by
  simp only [startLoop, zero, plain, and_self, if_true]

theorem startForever_eq (la : Word) :
    startForever la s = .next (((((s.push s.pcu.la s.pcu.lc).push (s.nextPc 2) s.pcu.sr).withLa la).withSr
      (s.pcu.sr ||| 0x018000#24)).withPc (s.nextPc 2)) := by
  rw [startForever, State.enterLoop_advance (s := s) (by simp) (by simp) la true, setBit_lf_on_fv_on]
  simp

theorem exec_loopForever {s : State} {i : Instr} {la : Word}
    (h : i = .doForever la ∨ (∃ d, i = .dorForever d ∧ la = wordAddress s 2 + d)) : exec i s = startForever la s := by
  rcases h with rfl | ⟨d, rfl, rfl⟩
  · rfl
  · rw [wordAddress_eq]
    rfl

end Sys2Proof.Machine

open Sys2Proof Sys2Proof.Machine

/-- Settles O45: the counted forms are `startLoop`, whose zero count pulls the two entries that it has pushed. -/
theorem loop_start : Obligations.Loop_start := by
  refine ⟨fun s i la src h => ?_, fun s i la h => ?_⟩
  · obtain ⟨run, reads⟩ := exec_loopStart h
    refine ⟨fun count => run ▸ startLoop_of_count s la reads count, fun zero plain => ?_⟩
    have read := reads (s.push s.pcu.la s.pcu.lc)
    refine ⟨_, run.trans (startLoop_of_zero s la plain zero), rfl, fun room => ?_⟩
    rw [leaveLoop_of_zero s room read]
    have pushed := s.push_of_room ⟨room.plain, by have := room.low; omega⟩ s.pcu.la s.pcu.lc
    refine ⟨rfl, rfl, rfl, rfl, rfl, fun k h6 h7 => ?_, rfl, ?_, ?_, ?_, ?_, ?_, fun j h1 h2 => ?_⟩
    · exact (read.sr k h6 h7).trans (by rw [pushed]; rfl)
    · exact read.alu.trans (by rw [pushed])
    · exact read.mem.trans (by rw [pushed])
    · exact read.irq.trans (by rw [pushed])
    · exact read.port.trans (by rw [pushed])
    · exact read.dma.trans (by rw [pushed])
    · simp [Fin.ext_iff] at h1 h2
      simp [Ne.symm h1, Ne.symm h2]
  · exact (exec_loopForever h).trans (startForever_eq s la)

end

section
/-!
How an instruction ends: in sequence, and at the end of a loop (45_loop R405 to R407).
-/
namespace Sys2Proof.Machine

variable {s : State}

/-! ## Instructions that end in sequence -/

/-- Where there is a next state, its PC is the address after an instruction of `n` words. -/
def EndsInSequence (n : Nat) (s : State) (r : Res) : Prop := ∀ t, r = .next t → t.pcu.pc = s.nextPc n

theorem EndsInSequence.next {n : Nat} {t : State} (h : t.pcu.pc = s.nextPc n) : EndsInSequence n s (.next t) :=
  fun _ e => by cases e; exact h

/-- What an instruction may do before its end: the PC and what freezes it are as before. -/
def SameFlow (s u : State) : Prop := u.pcu.pc = s.pcu.pc ∧ u.ctl.ctx = s.ctl.ctx ∧ u.ctl.phase = s.ctl.phase

theorem SameFlow.advance_pc {u : State} (h : SameFlow s u) (n : Nat) : (u.advance n).pcu.pc = s.nextPc n := by
  obtain ⟨pc, ctx, phase⟩ := h
  exact State.nextPc_congr pc ctx phase n

theorem EndsInSequence.advance {u : State} (h : SameFlow s u) (n : Nat) : EndsInSequence n s (.next (u.advance n)) :=
  .next (h.advance_pc n)

@[simp] theorem State.wrC_pc (c : CReg) (w : Word) : (s.wrC c w).pcu.pc = s.pcu.pc := by cases c <;> simp [State.wrC]

@[simp] theorem State.wrReg_pc (r : Reg) (w : Word) : (s.wrReg r w).pcu.pc = s.pcu.pc := by cases r <;> simp [State.wrReg]

@[simp] theorem State.bitRead_flow (o : BitOpd) :
    (s.bitRead o).st.pcu.pc = s.pcu.pc ∧ (s.bitRead o).st.ctl.ctx = s.ctl.ctx ∧ (s.bitRead o).st.ctl.phase = s.ctl.phase := by
  cases o <;> simp [State.bitRead]

@[simp] theorem State.bitWrite_flow (o : BitOpd) (a w : Word) :
    (s.bitWrite o a w).pcu.pc = s.pcu.pc ∧ (s.bitWrite o a w).ctl.ctx = s.ctl.ctx ∧
      (s.bitWrite o a w).ctl.phase = s.ctl.phase := by
  cases o <;> simp [State.bitWrite]

@[simp] theorem State.enterDebug_pcu (c : BitVec 3) : (s.enterDebug c).pcu = s.pcu := by
  simp only [State.enterDebug, State.endHalt]
  (repeat' split) <;> simp

theorem SameFlow.controlByte (f : Word → Word → Word) (w : Word) (e : PcuByte) : SameFlow s (controlByte f w e s) := by
  cases e <;> simp [Machine.controlByte, SameFlow]

theorem bitModify_endsInSequence (f : Bool → Bool) (n : BitVec 5) (o : BitOpd) (len : Nat) :
    EndsInSequence len s (bitModify f n o len s) := by
  simp only [bitModify]
  split
  · rintro _ ⟨⟩
  · exact .advance (by split <;> simp [SameFlow]) len

theorem bitTest_endsInSequence (n : BitVec 5) (o : BitOpd) (len : Nat) : EndsInSequence len s (bitTest n o len s) := by
  simp only [bitTest]
  split
  · rintro _ ⟨⟩
  · exact .advance (by simp [SameFlow]) len

theorem loadReg_endsInSequence (w : Word) (u : Option (Fin 8 × Word)) (r : Reg) (n : Nat) :
    EndsInSequence n s (loadReg w u r n s) := .advance (by simp [SameFlow]) n

theorem storeReg_endsInSequence (put : State → Word → State) (keeps : ∀ t v, SameFlow t (put t v))
    (u : Option (Fin 8 × Word)) (r : Reg) (n : Nat) : EndsInSequence n s (storeReg put u r n s) := by
  refine .advance ?_ n
  obtain ⟨pc, ctx, phase⟩ := keeps ((s.rdReg r).2.applyUpd u) (s.rdReg r).1
  exact ⟨pc.trans (by simp), ctx.trans (by simp), phase.trans (by simp)⟩

theorem moveData_endsInSequence (sp : Space) (w : Dir) (e : Ea) (r : Reg) :
    EndsInSequence (1 + e.extWords.length) s (moveData sp w e r s) := by
  cases w with
  | read => exact storeReg_endsInSequence (fun t v => t.writeData sp _ v) (fun t v => by simp [SameFlow]) _ r _
  | write => exact loadReg_endsInSequence _ _ r _

theorem moveAt_endsInSequence (sp : Space) (w : Dir) (a : Word) (r : Reg) (n : Nat) :
    EndsInSequence n s (moveAt sp w a r n s) := by
  cases w with
  | read => exact storeReg_endsInSequence (fun t v => t.writeData sp _ v) (fun t v => by simp [SameFlow]) _ r _
  | write => exact loadReg_endsInSequence _ _ r _

theorem moveProgram_endsInSequence (w : Dir) (a : Word) (u : Option (Fin 8 × Word)) (r : Reg) (n : Nat) :
    EndsInSequence n s (moveProgram w a u r n s) := by
  cases w with
  | read => exact storeReg_endsInSequence (fun t v => t.writeP a v) (fun t v => by simp [SameFlow]) _ r _
  | write => exact loadReg_endsInSequence _ _ r _

theorem moveRegs_endsInSequence (src dst : Reg) : EndsInSequence 1 s (moveRegs src dst s) := .advance (by simp [SameFlow]) 1

theorem movePeripheral_endsInSequence (ps : Space) (io : Word) (w : Dir) (sp : Space) (e : Ea) :
    EndsInSequence (1 + e.extWords.length) s (movePeripheral ps io w sp e s) := by
  cases w <;> exact .advance (by simp [SameFlow]) _

theorem movePeripheralP_endsInSequence (ps : Space) (io : Word) (w : Dir) (e : Ea) :
    EndsInSequence (1 + e.extWords.length) s (movePeripheralP ps io w e s) := by
  cases w <;> exact .advance (by simp [SameFlow]) _

theorem movePeripheralReg_endsInSequence (ps : Space) (io : Word) (w : Dir) (r : Reg) :
    EndsInSequence 1 s (movePeripheralReg ps io w r s) := by
  cases w with
  | read => exact loadReg_endsInSequence _ _ r 1
  | write => exact storeReg_endsInSequence (fun t v => t.writeData ps io v) (fun t v => by simp [SameFlow]) _ r 1

theorem runTcc_endsInSequence (c : Cond) (o : State → AluOut) (r : Option (Fin 8 × Fin 8)) :
    EndsInSequence 1 s (runTcc c o r s) := by
  refine .advance ?_ 1
  split
  · cases r <;> simp [SameFlow]
  · simp [SameFlow]

theorem runIf_endsInSequence (c : Cond) (op : State → AluOut) : EndsInSequence 1 s (runIf c op s) :=
  .advance (by split <;> simp [SameFlow]) 1

theorem runIfU_endsInSequence (c : Cond) (op : State → AluOut) : EndsInSequence 1 s (runIfU c op s) :=
  .advance (by split <;> simp [SameFlow]) 1

theorem cacheCommand_endsInSequence (f : ICache → ICache) (n : Nat) : EndsInSequence n s (cacheCommand f n s) := by
  unfold cacheCommand
  split <;> exact .advance (by simp [SameFlow]) n

theorem lockEa_endsInSequence (b : Bool) (e : Ea) : EndsInSequence (1 + e.extWords.length) s (lockEa b e s) := by
  unfold lockEa
  split <;> exact .advance (by simp [SameFlow]) _

theorem State.debugCall_pc : s.debugCall.pcu.pc = s.nextPc 1 := by simp [State.debugCall, State.advance]

/-- An instruction of a class that REP may repeat ends in sequence. -/
theorem exec_endsInSequence {i : Instr} (h : (kindOf i).repeatable = true) : EndsInSequence i.len s (exec i s) := by
  cases o : outOf s i with
  | some o => rw [exec_outOf s i _ ‹_›]; exact .advance (by simp [SameFlow]) _
  | none =>
    cases i <;> simp only [outOf, reduceCtorEq] at o <;> simp only [kindOf, Kind.repeatable, Bool.false_eq_true] at h
    case reservedA | reservedB | illegal | nop | reset | norm | lraReg | lraLong | luaEa | luaDisp | movecImm | vsl =>
      exact .advance (by simp [SameFlow]) _
    case andi | ori => exact .advance (.controlByte _ _ _) 1
    case debug => exact .next State.debugCall_pc
    case debugcc c => exact .next (by split <;> [exact State.debugCall_pc; rfl])
    case ifcc => exact runIf_endsInSequence _ _
    case ifccU => exact runIfU_endsInSequence _ _
    case tccD c s1 d => exact runTcc_endsInSequence c (tccSrc s1 d) none
    case tccDR c s1 d t u => exact runTcc_endsInSequence c (tccSrc s1 d) (some (t, u))
    case tccR c t u => exact runTcc_endsInSequence c (fun _ => .nothing) (some (t, u))
    case bchgEa | bchgAa | bchgPp | bchgQq | bchgReg => exact bitModify_endsInSequence (fun b => !b) _ _ _
    case bclrEa | bclrAa | bclrPp | bclrQq | bclrReg => exact bitModify_endsInSequence (fun _ => false) _ _ _
    case bsetEa | bsetAa | bsetPp | bsetQq | bsetReg => exact bitModify_endsInSequence (fun _ => true) _ _ _
    case btstEa | btstAa | btstPp | btstQq | btstReg => exact bitTest_endsInSequence _ _ _
    case moveXLong | moveYLong | moveXShort | moveYShort | movecAa => exact moveAt_endsInSequence _ _ _ _ _
    case movecEa => exact moveData_endsInSequence _ _ _ _
    case movecReg w r c => cases w <;> exact moveRegs_endsInSequence _ _
    case movemEa | movemAa => exact moveProgram_endsInSequence _ _ _ _ _
    case movepPpEa | movepXqqEa | movepYqqEa => exact movePeripheral_endsInSequence _ _ _ _ _
    case movepPpP | movepQqP => exact movePeripheralP_endsInSequence _ _ _ _
    case movepPpReg | movepXqqReg | movepYqqReg => exact movePeripheralReg_endsInSequence _ _ _ _
    case plock | punlock => exact lockEa_endsInSequence _ _
    case plockr d => exact cacheCommand_endsInSequence (fun c => c.setLock (s.opRelative 2 d) true) 2
    case punlockr d => exact cacheCommand_endsInSequence (fun c => c.setLock (s.opRelative 2 d) false) 2
    case pflush | pflushun => exact cacheCommand_endsInSequence _ 1
    case pfree => exact cacheCommand_endsInSequence (fun c => { c with lock := 0 }) 1

/-! ## When a loop ends -/

theorem State.loopEnds_iff {b t : State} {i : Instr} : b.loopEnds i t = true ↔
    b.lf = true ∧ t.lf = true ∧ b.frozen = false ∧ t.frozen = false ∧ t.ctl.rep = none ∧ b.changesFlow i = false ∧
      t.pcu.pc = b.pcu.pc + BitVec.ofNat 24 i.len ∧ b.pcu.pc + BitVec.ofNat 24 i.len = t.pcu.la + 1 := by
  have last : BitVec.ofNat 24 i.len = BitVec.ofNat 24 (i.len - 1) + 1 := by
    rw [Instr.len, Nat.add_sub_cancel_left, Nat.add_comm, BitVec.ofNat_add]
    rfl
  have la : (t.pcu.la = b.pcu.pc + BitVec.ofNat 24 (i.len - 1)) ↔ b.pcu.pc + BitVec.ofNat 24 i.len = t.pcu.la + 1 := by
    rw [last, ← BitVec.add_assoc, BitVec.add_left_inj, eq_comm]
  simp only [State.loopEnds, Bool.and_eq_true, beq_iff_eq, Bool.not_eq_true', Option.isNone_iff_eq_none, la, and_assoc]

/-- `u` has the loop state of `s`: LF and LA, and what the end-of-loop rule asks of the context. -/
def SameLoop (s u : State) : Prop :=
  u.lf = s.lf ∧ u.pcu.la = s.pcu.la ∧ u.ctl.ctx = s.ctl.ctx ∧ u.ctl.phase = s.ctl.phase ∧ u.ctl.rep = s.ctl.rep

theorem changesFlow_of_dests {i : Instr} {l : List Reg} (h : dests i = some l) : s.changesFlow i = false := by
  cases i <;> simp only [dests, reduceCtorEq] at h <;> rfl

theorem repeatable_of_dests {i : Instr} {l : List Reg} (h : dests i = some l) : (kindOf i).repeatable = true := by
  cases i <;> simp only [dests, reduceCtorEq] at h <;> rfl

@[simp] theorem State.lf_commit (o : AluOut) (p : Plan) : (s.commit o p).lf = s.lf := by simp [State.lf, State.srBit_commit]

theorem SameLoop.commit_advance (o : AluOut) (p : Plan) (n : Nat) : SameLoop s ((s.commit o p).advance n) :=
  ⟨s.lf_commit o p, by simp, by simp, by simp, by simp⟩

theorem runTcc_sameLoop {c : Cond} {o : State → AluOut} {r : Option (Fin 8 × Fin 8)} {t : State}
    (e : runTcc c o r s = .next t) : SameLoop s t := by
  cases e
  split
  · cases r <;> simp [SameLoop, State.lf, State.srBit]
  · simp [SameLoop, State.lf, State.srBit]

/-- An instruction of the Data ALU, a transfer, a parallel move, LUA or LRA leaves the loop state alone. -/
theorem exec_sameLoop {i : Instr} {l : List Reg} {t : State} (h : dests i = some l) (e : exec i s = .next t) : SameLoop s t := by
  cases o : outOf s i with
  | some o =>
    rw [exec_outOf s i _ ‹_›] at e
    cases e
    exact .commit_advance _ _ _
  | none =>
    cases i <;> simp only [outOf, reduceCtorEq] at o <;> simp only [dests, reduceCtorEq] at h
    case norm n d =>
      cases e
      refine ⟨?_, by simp, by simp, by simp, by simp⟩
      show (s.commitAlu (opNorm d s)).lf = s.lf
      rw [State.commitAlu_eq_commit, State.lf_commit]
    case luaEa | luaDisp | lraReg | lraLong =>
      cases e
      simp [SameLoop, State.lf, State.srBit]
    case tccD c s1 d => exact runTcc_sameLoop (c := c) (o := tccSrc s1 d) (r := none) e
    case tccDR c s1 d t u => exact runTcc_sameLoop (c := c) (o := tccSrc s1 d) (r := some (t, u)) e
    case tccR c t u => exact runTcc_sameLoop (c := c) (o := fun _ => .nothing) (r := some (t, u)) e

theorem loopEnds_iff_of_sameLoop {b t : State} {i : Instr} {l : List Reg} (d : dests i = some l) (same : SameLoop b t)
    (rep : b.ctl.rep = none) (pc : t.pcu.pc = b.nextPc i.len) : b.loopEnds i t = true ↔
      b.lf = true ∧ b.frozen = false ∧ b.pcu.pc + BitVec.ofNat 24 i.len = b.pcu.la + 1 := by
  obtain ⟨lf, la, ctx, phase, rep'⟩ := same
  have frozen : t.frozen = b.frozen := by simp only [State.frozen, ctx, phase]
  have next (free : b.frozen = false) : t.pcu.pc = b.pcu.pc + BitVec.ofNat 24 i.len := by rw [pc, State.nextPc, free]; rfl
  rw [State.loopEnds_iff, lf, la, frozen, rep', rep, changesFlow_of_dests d]
  constructor
  · rintro ⟨on, -, free, -, -, -, -, last⟩
    exact ⟨on, free, last⟩
  · rintro ⟨on, free, last⟩
    exact ⟨on, on, free, free, rfl, rfl, next free, last⟩

/-- A taken jump or branch is a change of flow. -/
theorem changesFlow_of_jumpOf {i : Instr} {F : Flow} (h : jumpOf s i = some F) : s.changesFlow i = F.taken := by
  cases i <;> simp only [jumpOf, Option.some.injEq, reduceCtorEq] at h <;> subst h <;> rfl

/-- A taken call is a change of flow. -/
theorem changesFlow_of_callOf {i : Instr} {F : Flow} (h : callOf s i = some F) : s.changesFlow i = F.taken := by
  cases i <;> simp only [callOf, Option.some.injEq, reduceCtorEq] at h <;> subst h <;> rfl

theorem not_loopEnds_of_changesFlow {b t : State} {i : Instr} (h : b.changesFlow i = true) : b.loopEnds i t = false := by
  simp [State.loopEnds, h]

/-! ## What the end of a loop does -/

theorem State.endOfLoop_of_again (h : s.fv = true ∨ s.lcIsOne = false) : s.endOfLoop = (s.withLc s.decLc).withPc s.ssh := by
  have again : (s.fv || !s.lcIsOne) = true := by simpa using h
  rw [State.endOfLoop, if_pos again]

theorem State.endOfLoop_of_last (fv : s.fv = false) (one : s.lcIsOne = true) :
    s.endOfLoop = s.leaveLoop.withPc (s.pcu.la + 1) := by
  simp [State.endOfLoop, fv, one]

/-- The loop of `s` is left, at `pc`: LF and FV as the top entry of the stack has them, LA and LC as the one below it. -/
def LoopLeft (s t : State) (pc : Word) : Prop :=
  t.pcu.pc = pc ∧ t.pcu.sp = s.pcu.sp - 2 ∧ t.pcu.la = s.pcu.ssh[slotAt s (-1)] ∧ t.pcu.lc = s.pcu.ssl[slotAt s (-1)] ∧
  (∀ k < 24, t.srBit k = if k = 15 ∨ k = 16 then s.ssl.getLsbD k else s.srBit k) ∧
  t.alu = s.alu ∧ t.agu = s.agu ∧ t.mem = s.mem ∧ t.irq = s.irq ∧ t.pcu.ssh = s.pcu.ssh ∧ t.pcu.ssl = s.pcu.ssl

theorem loopLeft_leaveLoop (room : RoomDown s 2) (pc : Word) : LoopLeft s (s.leaveLoop.withPc pc) pc := by
  rw [s.leaveLoop_of_room room]
  refine ⟨rfl, rfl, rfl, rfl, fun k hk => ?_, rfl, rfl, rfl, rfl, rfl, rfl⟩
  simp only [State.srBit, State.withPc, getLsbD_setBit]
  grind

theorem State.leaveLoop_advance_one : s.leaveLoop.advance 1 = s.leaveLoop.withPc (s.nextPc 1) := by
  rw [State.advance, State.nextPc_congr (s := s) (by simp) (by simp) (by simp)]

theorem State.lcIsOne_iff : s.lcIsOne = true ↔ (if s.sc then s.pcu.lc.extractLsb' 0 16 = 1 else s.pcu.lc = 1) := by
  unfold State.lcIsOne
  cases s.sc
  · simp
  · simp only [if_true, beq_iff_eq, low16]
    rw [← BitVec.toNat_inj, ← BitVec.toNat_inj (y := (1 : BitVec 16))]
    simp [Nat.and_two_pow_sub_one_eq_mod _ 16]

end Sys2Proof.Machine

open Sys2Proof Sys2Proof.Machine

/-- Settles O46, from what an instruction in sequence leaves of the loop state and what leaving a loop restores. -/
theorem loop_exit : Obligations.Loop_exit := by
  refine ⟨?_, ?_, ?_, ?_, ?_, ?_, ?_⟩
  · intro b t i h
    obtain ⟨before, after, free, -, -, -, pc, last⟩ := State.loopEnds_iff.mp h
    exact ⟨before, after, free, pc, last⟩
  · intro b t i l d free rep e
    rw [loopEnds_iff_of_sameLoop d (exec_sameLoop d e) rep (exec_endsInSequence (repeatable_of_dests d) t e)]
    simp [free]
  · rintro b t i F (h | h) taken -
    · exact not_loopEnds_of_changesFlow ((changesFlow_of_jumpOf h).trans taken)
    · exact not_loopEnds_of_changesFlow ((changesFlow_of_callOf h).trans taken)
  · intro s again
    rw [State.endOfLoop_of_again again]
    exact ⟨rfl, rfl, rfl, rfl⟩
  · intro s room
    refine ⟨fun fv one => ?_, ⟨_, rfl, ?_⟩, fun c holds => ⟨_, rfl, ?_⟩⟩
    · rw [State.endOfLoop_of_last fv one]
      exact loopLeft_leaveLoop room _
    · rw [State.leaveLoop_advance_one]
      exact loopLeft_leaveLoop room _
    · rw [if_pos holds]
      exact loopLeft_leaveLoop room _
  · intro s c fails
    simp only [exec, execBrkcc, fails, Bool.false_eq_true, if_false]
  · exact fun s => State.lcIsOne_iff

end

section
/-!
REP and the executions of its target (45_loop R408, R412).
-/
namespace Sys2Proof.Machine

variable {s : State}

/-! ## REP -/

/-- Reading REP's count moves neither the PC nor what freezes it. -/
theorem sameFlow_of_repeatCount {i : Instr} {n : Word} {q : State} (h : repeatCount s i = some (n, q)) : SameFlow s q := by
  cases i <;> simp only [repeatCount, Option.some.injEq, Prod.ext_iff, reduceCtorEq] at h <;> obtain ⟨-, rfl⟩ := h <;>
    simp [SameFlow]

theorem exec_of_repeatCount {i : Instr} {r : Word × State} (h : repeatCount s i = some r) : exec i s = startRep r s := by
  cases i <;> simp only [repeatCount, Option.some.injEq, reduceCtorEq] at h <;> subst h <;> rfl

theorem startRep_of_zero {n : Word} {q : State} (zero : n = 0) (plain : s.sc = false) :
    startRep (n, q) s = .next (q.advance 2) := if_pos ⟨zero, plain⟩

theorem startRep_of_count {n : Word} {q : State} (count : n ≠ 0 ∨ s.sc = true) :
    startRep (n, q) s = .next (((q.advance 1).withLc n).withRep (some ⟨s.pcu.lc, none⟩)) :=
  if_neg fun ⟨zero, plain⟩ => count.elim (· zero) (by simp [plain])

/-! ## What surrounds an instruction -/

/-- The registers, the memories and REP's field are the same. -/
def SameWork (s u : State) : Prop :=
  u.alu = s.alu ∧ u.agu = s.agu ∧ u.mem = s.mem ∧ u.pcu = s.pcu ∧ u.ctl.rep = s.ctl.rep

theorem SameWork.refl (s : State) : SameWork s s := ⟨rfl, rfl, rfl, rfl, rfl⟩

theorem SameWork.trans {s t u : State} (h : SameWork s t) (k : SameWork t u) : SameWork s u := by
  obtain ⟨alu, agu, mem, pcu, rep⟩ := h
  obtain ⟨alu', agu', mem', pcu', rep'⟩ := k
  exact ⟨alu'.trans alu, agu'.trans agu, mem'.trans mem, pcu'.trans pcu, rep'.trans rep⟩

theorem SameWork.foldl {α : Type} {f : State → α → State} (one : ∀ t a, SameWork t (f t a)) (l : List α) (s : State) :
    SameWork s (l.foldl f s) := by
  induction l generalizing s with
  | nil => exact .refl s
  | cons a l ih => exact (one s a).trans (ih (f s a))

theorem SameWork.promote (s : State) : SameWork s s.promote := by
  unfold State.promote
  split <;> exact .refl s

theorem SameWork.traceCount (s : State) : SameWork s s.traceCount := by
  unfold State.traceCount
  (repeat' split) <;> exact .refl s

theorem SameWork.watchAccess (s : State) (a : Access) : SameWork s (s.watchAccess a) := by
  simp only [State.watchAccess]
  (repeat' split) <;> exact .refl s

theorem SameWork.watchAll (s : State) (l : List Access) : SameWork s (s.watchAll l) := by
  unfold State.watchAll
  split
  · exact .refl s
  · exact .foldl .watchAccess l s

theorem SameWork.settleRequest (s : State) : SameWork s s.settleRequest := by
  unfold State.settleRequest
  split <;> exact .refl s

theorem SameWork.observe (b : State) (i : Instr) (a : Word) (l : List Access) (t u : State) : SameWork u (b.observe i a l t u) := by
  have flow : SameWork u (if isTraced i then u.promote.traceFlow a (b.changesFlow i) else u.promote) := by
    split <;> exact .promote u
  exact ((flow.trans (.traceCount _)).trans (.watchAll _ _)).trans (.settleRequest _)

theorem SameWork.maskWindow (b : State) (i : Instr) (u : State) : SameWork u (b.maskWindow i u) := by
  unfold State.maskWindow
  (repeat' split) <;> exact .refl u

theorem SameWork.dropPdb (b : State) (i : Instr) (u : State) : SameWork u (b.dropPdb i u) := by
  unfold State.dropPdb
  split <;> exact .refl u

theorem SameWork.settleLatches (s : State) : SameWork s s.settleLatches := by
  unfold State.settleLatches
  split <;> exact .refl s

theorem SameWork.remember (b : State) (i : Instr) (n : Nat) (u : State) : SameWork u (b.remember i n u) :=
  .trans (.refl u) (.foldl (f := fun v (a : Access) => v.notePWrite a.addr) (fun v _ => by simp [SameWork]) _ _)

/-- With no other master at work, what follows an instruction touches neither registers nor memories. -/
theorem SameWork.after {b : State} (dma : b.dmaActive = none) (env : b.env = []) (i : Instr) (a : Word) (l : List Access)
    (t u : State) : SameWork u (b.after i a l t u) := by
  unfold State.after
  rw [State.deferLast_of_alone dma env]
  exact ((((SameWork.maskWindow b i u).trans (.observe b i a l t _)).trans (.dropPdb b i _)).trans (.settleLatches _)).trans
    (.remember b i _ _)

/-! ## An execution of the target -/

/-- A fetch changes the cache alone. -/
theorem withCache_of_fetch {a w : Word} {t : State} (h : s.fetch a = some (w, t)) : ∃ c, t = s.withCache c := by
  unfold State.fetch State.fetchCached at h
  (repeat' split at h) <;> cases h <;> exact ⟨_, rfl⟩

theorem FetchesTarget.withCache {r : Rep} {w : Word} {s1 : State} (h : FetchesTarget s r w s1) : ∃ c, s1 = s.withCache c := by
  obtain ⟨-, rfl⟩ | ⟨-, -, -, fetched⟩ := h
  · exact ⟨s1.cache, rfl⟩
  · exact withCache_of_fetch fetched

theorem coreInstr_of_target {r : Rep} {w : Word} {s1 : State} (rep : s.ctl.rep = some r) (h : FetchesTarget s r w s1) :
    ∃ l, coreInstr s = runRepeated r w l s1 := by
  obtain ⟨latch, rfl⟩ | ⟨latch, pdb, settled, fetched⟩ := h
  · exact ⟨[], by simp only [coreInstr, rep, runRep, latch]⟩
  · refine ⟨fetches s.pcu.pc 1, ?_⟩
    simp only [coreInstr, rep, runRep, latch, State.fetchWord_of_empty pdb, fetched, settled, Bool.false_eq_true, if_false]

/-- Nothing comes before the core's next instruction. -/
theorem step_of_coreInstr {u : State} (core : CoreNext s) (h : coreInstr s = .next u) : step s = .next u.tick := by
  obtain ⟨env, phase, debug, dma, late, spilled⟩ := core
  have due : s.debugDue = false := by simp [State.debugDue, debug]
  simp only [step, live, env, turn, phase, due, dmaOr, dma, coreOr, late, coreTurn_of_alone dma env, h, Bool.false_eq_true,
    if_false]

theorem runRepeated_of_next {r : Rep} {w : Word} {l : List Access} {i : Instr} {s1 t : State} (read : decode w 0 = .ok i)
    (allowed : repeatableInstr i = true) :
    let b := (s1.begin s1.pcu.pc).withRep none
    let x := (b.corruptLast i t).repeatOrEnd r w s1.pcu.pc
    b.hazard i = none → exec i b = .next t → b.busDenied i x (b.loopTest i x) = false → b.badResult (b.loopTest i x) = none →
      runRepeated r w l s1 = .next (b.after i s1.pcu.pc l x (b.loopTest i x)) := by
  intro b x placed run bus good
  have instr : orIllegal (decode w 0) = i := by rw [read]; rfl
  simp only [runRepeated, instr, allowed, if_true]
  exact execThen_of_next placed run bus good

/-- The word that the last execution of a target may corrupt is no part of the program control unit. -/
theorem State.corruptLast_keeps (b : State) (i : Instr) (t : State) :
    (b.corruptLast i t).pcu = t.pcu ∧ (b.corruptLast i t).ctl.ctx = t.ctl.ctx ∧ (b.corruptLast i t).ctl.phase = t.ctl.phase ∧
      (b.corruptLast i t).ctl.rep = t.ctl.rep := by
  unfold State.corruptLast
  (repeat' split) <;> simp

theorem State.corruptLast_of_sound {b t : State} {i : Instr}
    (h : b.pExternal b.pcu.pc = false ∨ b.lcIsOne = false ∨ b.corrupted i = none) : b.corruptLast i t = t := by
  unfold State.corruptLast
  obtain inside | again | sound := h
  · simp [inside]
  · simp [again]
  · simp [sound]

theorem len_kind_of_repeatableInstr {i : Instr} (h : repeatableInstr i = true) :
    i.len = 1 ∧ (kindOf i).repeatable = true := by
  simp only [repeatableInstr, Bool.and_eq_true, beq_iff_eq] at h
  exact h.1

/-- The PC after the target, whose datum may be corrupted. -/
theorem corruptLast_pc_of_target {b t : State} {i : Instr} (allowed : repeatableInstr i = true) (run : exec i b = .next t) :
    (b.corruptLast i t).pcu.pc = b.nextPc 1 := by
  obtain ⟨len, kind⟩ := len_kind_of_repeatableInstr allowed
  obtain ⟨pcu, -⟩ := b.corruptLast_keeps i t
  rw [pcu, ← len]
  exact exec_endsInSequence kind t run

/-- A target that is executed again ends no loop. -/
theorem not_loopEnds_of_repeated {b v : State} {i : Instr} {r : Rep} {w a : Word} (again : v.lcIsOne = false) :
    b.loopEnds i (v.repeatOrEnd r w a) = false := by
  rw [State.repeatOrEnd, again]
  simp [State.loopEnds, State.withRep]

/-- After the last execution of a target that leaves the loop state alone, the end-of-loop rule applies as it would without REP. -/
theorem loopEnds_last_iff {b t : State} {i : Instr} {l : List Reg} {r : Rep} {w a : Word} (d : dests i = some l)
    (len : i.len = 1) (rep : b.ctl.rep = none) (run : exec i b = .next t) (last : (b.corruptLast i t).lcIsOne = true) :
    b.loopEnds i ((b.corruptLast i t).repeatOrEnd r w a) = true ↔ b.lf = true ∧ b.frozen = false ∧ b.pcu.pc = b.pcu.la := by
  obtain ⟨pcu, ctx, phase, rep'⟩ := b.corruptLast_keeps i t
  obtain ⟨lf, la, ctx', phase', rep''⟩ := exec_sameLoop d run
  have same : SameLoop b ((b.corruptLast i t).withLc r.temp) := by
    refine ⟨?_, ?_, ctx.trans ctx', phase.trans phase', rep'.trans rep''⟩
    · rw [← lf]
      show (b.corruptLast i t).pcu.sr.getLsbD 15 = t.pcu.sr.getLsbD 15
      rw [pcu]
    · exact (congrArg PcuRegs.la pcu).trans la
  have pc : ((b.corruptLast i t).withLc r.temp).pcu.pc = b.nextPc i.len :=
    (congrArg PcuRegs.pc pcu).trans (exec_endsInSequence (repeatable_of_dests d) t run)
  rw [State.repeatOrEnd, if_pos last, loopEnds_iff_of_sameLoop d same rep pc, len]
  exact and_congr_right fun _ => and_congr_right fun _ => BitVec.add_left_inj _

end Sys2Proof.Machine

open Sys2Proof Sys2Proof.Machine

/-- Settles O47: the step is `runRepeated`, and what follows an instruction keeps all that the statement names. -/
theorem repeat_ : Obligations.Repeat := by
  refine ⟨fun s i n q h => ⟨fun count => ?_, fun zero plain => ?_⟩, ?_⟩
  · obtain ⟨pc, ctx, phase⟩ := sameFlow_of_repeatCount h
    exact ⟨_, (exec_of_repeatCount h).trans (startRep_of_count count), rfl, rfl, State.nextPc_congr pc ctx phase 1, rfl, rfl,
      rfl, rfl, rfl⟩
  · exact (exec_of_repeatCount h).trans (startRep_of_zero zero plain)
  · intro s s1 r w i t core rep target read allowed b v x y placed run bus good
    obtain ⟨l, turn⟩ := coreInstr_of_target rep target
    obtain ⟨c, rfl⟩ := target.withCache
    have next := turn.trans (runRepeated_of_next (r := r) (w := w) read allowed placed run bus good)
    have kept : SameWork y _ := .after (b := b) core.dma core.env i s.pcu.pc l x y
    refine ⟨fun sound => b.corruptLast_of_sound sound, corruptLast_pc_of_target allowed run,
      fun again => not_loopEnds_of_repeated again, fun d dest last => ?_, _, step_of_coreInstr core next, kept⟩
    obtain ⟨len, -⟩ := len_kind_of_repeatableInstr allowed
    exact loopEnds_last_iff dest len rfl run last

end

section
/-!
The instruction cache (48_cache R541 to R557): the sector that answers for an address, the filling of a sector, an instruction
fetch, and the cache commands.
-/
namespace Sys2Proof.Machine

variable (s : State) (c : ICache) {a : Word} {j : Fin 8}

/-! ## The sector of an address -/

theorem sectors_split (j : Fin 8) : sectors = sectors.filter (· < j) ++ j :: sectors.filter (j < ·) := by
  revert j; decide

theorem mem_sectors (j : Fin 8) : j ∈ sectors := by revert j; decide

/-- A vector with one entry per sector, read after a write. -/
theorem getElem_set_sector {α : Type} (v : Vector α 8) (j k : Fin 8) (x : α) :
    (v.set j x)[k] = if k = j then x else v[k] := by
  simp only [Fin.getElem_fin, Vector.getElem_set, Fin.ext_iff, eq_comm]

variable {c} in
theorem ICache.find_of_tagHit (h : TagHit c a j) : c.find a = some j := by
  obtain ⟨hit, lowest⟩ := h
  refine List.find?_eq_some_iff_append.2 ⟨beq_iff_eq.2 hit, _, _, sectors_split j, fun k hk => ?_⟩
  have below : k < j := of_decide_eq_true (List.mem_filter.1 hk).2
  simpa [cacheTag] using lowest k below

variable {c} in
theorem ICache.find_eq_none (h : ∀ k : Fin 8, c.tag[k] ≠ a.extractLsb' 7 17) : c.find a = none :=
  List.find?_eq_none.2 fun k _ hk => h k (beq_iff_eq.1 hk)

variable {c} in
/-- Behind the sector to be replaced the LRU order has locked sectors only: it is the last of the unlocked ones. -/
theorem ICache.victim_of_replaced (h : Replaced c a j) : c.victim = some j := by
  obtain ⟨-, unlocked, before, after, order, locked⟩ := h
  have rest : (after.filter fun (k : Fin 8) => !c.lock.getLsbD k.val) = [] :=
    List.filter_eq_nil_iff.2 fun k hk => by simp only [locked k hk, Bool.not_true, Bool.false_eq_true, not_false_eq_true]
  rw [ICache.victim, order, List.filter_append, List.filter_cons_of_pos (by rw [unlocked]; rfl), rest, List.getLast?_concat]

variable {c} in
theorem ICache.victim_eq_none (h : ∀ k : Fin 8, c.lock.getLsbD k.val = true) : c.victim = none := by
  simp [ICache.victim, h]

theorem ICache.take_tag (j k : Fin 8) (a : Word) : (c.take j a).tag[k] = if k = j then cacheTag a else c.tag[k] :=
  getElem_set_sector c.tag j k _

theorem ICache.take_valid (j k : Fin 8) (a : Word) : (c.take j a).valid[k] = if k = j then 0 else c.valid[k] :=
  getElem_set_sector c.valid j k _

theorem ICache.put_valid (j k : Fin 8) (a w : Word) :
    (c.put j a w).valid[k] = if k = j then setBit c.valid[j] (cacheVbit a) true else c.valid[k] :=
  getElem_set_sector c.valid j k _

/-! ## The filling of a sector -/

/-- The number of words that a miss fetches (48_cache Table 8-1). -/
def fillCount (burst : Bool) (a : Word) : Nat := if burst then 4 - a.toNat % 4 else 1

/-- Sector `j` after the first `n` words of a miss at `a`. -/
def State.fillWords (j : Fin 8) (a : Word) : Nat → ICache
  | 0 => c
  | n + 1 => (State.fillWords j a n).put j (a + BitVec.ofNat 24 n) (s.pRaw (a + BitVec.ofNat 24 n))

theorem State.fill_eq_fillWords (j : Fin 8) (a : Word) : s.fill c j a = s.fillWords c j a (fillCount s.burst a) := by
  have words (n : Nat) : (List.range n).foldl
      (fun c i => c.put j (a + BitVec.ofNat 24 i) (s.pRaw (a + BitVec.ofNat 24 i))) c = s.fillWords c j a n := by
    induction n with
    | zero => rfl
    | succ n ih => rw [List.range_succ, List.foldl_append, ih]; rfl
  unfold State.fill fillAddrs fillCount
  split
  · rw [List.foldl_map]; exact words _
  · rw [← words]; simp

theorem fillCount_pos (b : Bool) (a : Word) : 0 < fillCount b a := by
  unfold fillCount; split <;> omega

theorem fillCount_le (b : Bool) (a : Word) : fillCount b a ≤ 4 - a.toNat % 4 := by
  unfold fillCount; split <;> omega

/-- A miss stays inside its group of four, so inside its sector. -/
theorem cacheVbit_add {n : Nat} (h : n < 4 - a.toNat % 4) : cacheVbit (a + BitVec.ofNat 24 n) = a.toNat % 128 + n := by
  simp only [cacheVbit, BitVec.toNat_add, BitVec.toNat_ofNat]
  omega

theorem State.fillWords_tag (j : Fin 8) (a : Word) (n : Nat) : (s.fillWords c j a n).tag = c.tag := by
  induction n with
  | zero => rfl
  | succ n ih => exact ih

theorem State.fillWords_lock (j : Fin 8) (a : Word) (n : Nat) : (s.fillWords c j a n).lock = c.lock := by
  induction n with
  | zero => rfl
  | succ n ih => exact ih

theorem State.fillWords_valid_other {k : Fin 8} (h : k ≠ j) (a : Word) (n : Nat) :
    (s.fillWords c j a n).valid[k] = c.valid[k] := by
  induction n with
  | zero => rfl
  | succ n ih => rw [State.fillWords, ICache.put_valid, if_neg h, ih]

theorem State.fillWords_valid {n v : Nat} (h : n ≤ 4 - a.toNat % 4) (hv : v < 128) :
    (s.fillWords c j a n).valid[j].getLsbD v =
      (c.valid[j].getLsbD v || decide (a.toNat % 128 ≤ v ∧ v < a.toNat % 128 + n)) := by
  induction n with
  | zero =>
    have : ¬(a.toNat % 128 ≤ v ∧ v < a.toNat % 128 + 0) := by omega
    simp only [State.fillWords, this, decide_false, Bool.or_false]
  | succ n ih =>
    rw [State.fillWords, ICache.put_valid, if_pos rfl, getLsbD_setBit, cacheVbit_add h, ih (by omega)]
    split
    · next at_n =>
      have : a.toNat % 128 ≤ v ∧ v < a.toNat % 128 + (n + 1) := by omega
      simp only [this, and_self, decide_true, Bool.or_true]
    · next apart =>
      have : (a.toNat % 128 ≤ v ∧ v < a.toNat % 128 + (n + 1)) ↔ (a.toNat % 128 ≤ v ∧ v < a.toNat % 128 + n) := by omega
      simp only [this]

theorem State.fillWords_read_other {n k : Nat} (h : n ≤ 4 - a.toNat % 4)
    (out : k < 128 * j.val + a.toNat % 128 ∨ 128 * j.val + a.toNat % 128 + n ≤ k) :
    (s.fillWords c j a n).data.read k = c.data.read k := by
  induction n with
  | zero => rfl
  | succ n ih =>
    rw [State.fillWords, ICache.put, Mem.read_write, cacheVbit_add h, if_neg (by omega), ih (by omega) (by omega)]

theorem State.fillWords_read {n i : Nat} (h : n ≤ 4 - a.toNat % 4) (hi : i < n) :
    (s.fillWords c j a n).data.read (128 * j.val + a.toNat % 128 + i) = s.pRaw (a + BitVec.ofNat 24 i) := by
  induction n with
  | zero => omega
  | succ n ih =>
    rw [State.fillWords, ICache.put, Mem.read_write, cacheVbit_add h]
    split
    · next at_n => rw [show i = n by omega]
    · next apart => exact ih (by omega) (by omega)

variable {c} in
/-- A miss in the sector that has the tag. -/
theorem State.filled_of_tag (h : c.tag[j] = cacheTag a) : Filled s c c.valid[j] a j ((s.fill c j a).touch j) := by
  have short := fillCount_le s.burst a
  rw [s.fill_eq_fillWords]
  exact
    { tag := fun k => by
        show (s.fillWords c j a _).tag[k] = _
        rw [s.fillWords_tag]
        split
        · next same => rw [same]; exact h
        · rfl
      lock := s.fillWords_lock c j a _
      lru := by
        rw [← s.fill_eq_fillWords, ICache.touch, ICache.fill_lru]
      valid := ⟨fun v hv => s.fillWords_valid c short hv, fun k hk => s.fillWords_valid_other c hk a _⟩
      data := ⟨fun i hi => s.fillWords_read c short hi, fun k hk => s.fillWords_read_other c short hk⟩ }

/-- A miss in a sector that has just been given to the address: but for that sector, the cache is as before. -/
theorem State.filled_of_take (j : Fin 8) (a : Word) :
    Filled s c 0 a j ((s.fill (c.take j a) j a).touch j) := by
  have taken : (c.take j a).tag[j] = cacheTag a := by rw [ICache.take_tag, if_pos rfl]
  have empty : (c.take j a).valid[j] = 0 := by rw [ICache.take_valid, if_pos rfl]
  obtain ⟨tag, lock, lru, ⟨valid, others⟩, data⟩ := s.filled_of_tag taken
  refine ⟨fun k => ?_, lock, lru, ⟨empty ▸ valid, fun k hk => ?_⟩, data⟩
  · rw [tag, ICache.take_tag]
    split <;> rfl
  · rw [others k hk, ICache.take_valid, if_neg hk]

/-- The word that was asked for is the first to come. -/
theorem State.fill_get (j : Fin 8) (a : Word) : ((s.fill c j a).touch j).get j a = s.pRaw a := by
  have first := s.fillWords_read c (j := j) (fillCount_le s.burst a) (fillCount_pos s.burst a)
  rw [← s.fill_eq_fillWords] at first
  rwa [Nat.add_zero, BitVec.add_zero] at first

/-! ## An instruction fetch -/

theorem State.fetch_of_uncached (h : s.ce = false ∨ s.pExternal a = false) :
    s.fetch a = if s.ebd && s.pExternal a then none else some (s.pRaw a, s) := by
  have off : ¬(s.ce && s.pExternal a) = true := by
    obtain ce | internal := h
    · simp [ce]
    · simp [internal]
  exact if_neg off

theorem State.fetch_of_cached (ce : s.ce = true) (external : s.pExternal a = true) : s.fetch a = s.fetchCached a :=
  if_pos (by simp [ce, external])

theorem State.fetchCached_of_valid (h : s.cache.find a = some j) (valid : s.cache.valid[j].getLsbD (a.toNat % 128) = true) :
    s.fetchCached a = some (s.cache.get j a, s.withCache (s.cache.touch j)) := by
  have hit : s.cache.isValid j (cacheVbit a) = true := valid
  simp only [State.fetchCached, h, hit, if_true]

theorem State.fetchCached_of_invalid (h : s.cache.find a = some j)
    (invalid : ¬s.cache.valid[j].getLsbD (a.toNat % 128) = true) :
    s.fetchCached a = if s.ebd then none else some (s.pRaw a, s.withCache ((s.fill s.cache j a).touch j)) := by
  have miss : ¬s.cache.isValid j (cacheVbit a) = true := invalid
  simp only [State.fetchCached, h, miss, Bool.false_eq_true, if_false, s.fill_get]

theorem State.fetchCached_of_victim (absent : s.cache.find a = none) (h : s.cache.victim = some j) :
    s.fetchCached a =
      if s.ebd then none else some (s.pRaw a, s.withCache ((s.fill (s.cache.take j a) j a).touch j)) := by
  simp only [State.fetchCached, absent, h, s.fill_get]

theorem State.fetchCached_of_no_victim (absent : s.cache.find a = none) (h : s.cache.victim = none) :
    s.fetchCached a = if s.ebd then none else some (s.pRaw a, s) := by
  simp only [State.fetchCached, absent, h]

/-! ## PFLUSH and PFLUSHUN -/

/-- Every sector is empty (48_cache R550). -/
theorem ICache.flush_sector (j : Fin 8) : c.flush.tag[j] = 0x1FFFF#17 ∧ c.flush.valid[j] = 0 :=
  ⟨Vector.getElem_replicate j.isLt, Vector.getElem_replicate j.isLt⟩

/-- One sector emptied, if it is not locked. -/
def ICache.emptyUnlocked (d : ICache) (k : Fin 8) : ICache :=
  if c.lock.getLsbD k.val then d else { d with tag := d.tag.set k 0x1FFFF#17, valid := d.valid.set k 0 }

theorem ICache.flushUnlocked_eq : c.flushUnlocked = { sectors.foldl c.emptyUnlocked c with lru := sectors } := rfl

theorem ICache.emptyUnlocked_lock_data (d : ICache) (k : Fin 8) :
    (c.emptyUnlocked d k).lock = d.lock ∧ (c.emptyUnlocked d k).data = d.data := by
  unfold ICache.emptyUnlocked; split <;> exact ⟨rfl, rfl⟩

/-- Tag and valid bits of sector `j` after sector `k` has been treated. -/
theorem ICache.emptyUnlocked_sector (d : ICache) (j k : Fin 8) :
    ((c.emptyUnlocked d k).tag[j], (c.emptyUnlocked d k).valid[j]) =
      if j = k ∧ c.lock.getLsbD j.val = false then (0x1FFFF#17, 0) else (d.tag[j], d.valid[j]) := by
  by_cases locked : c.lock.getLsbD k.val = true
  · have kept : ¬(j = k ∧ c.lock.getLsbD j.val = false) := by
      rintro ⟨rfl, free⟩
      exact Bool.false_ne_true (free.symm.trans locked)
    simp only [ICache.emptyUnlocked, locked, kept, if_true, if_false]
  · simp only [ICache.emptyUnlocked, locked, Bool.false_eq_true, if_false, getElem_set_sector]
    by_cases same : j = k
    · subst same; simp only [eq_false_of_ne_true locked, and_self, if_true]
    · simp only [same, false_and, if_false]

theorem ICache.foldl_emptyUnlocked_lock_data (l : List (Fin 8)) (d : ICache) :
    (l.foldl c.emptyUnlocked d).lock = d.lock ∧ (l.foldl c.emptyUnlocked d).data = d.data := by
  induction l generalizing d with
  | nil => exact ⟨rfl, rfl⟩
  | cons k l ih =>
    obtain ⟨lock, data⟩ := ih (c.emptyUnlocked d k)
    obtain ⟨lock1, data1⟩ := c.emptyUnlocked_lock_data d k
    exact ⟨lock.trans lock1, data.trans data1⟩

theorem ICache.foldl_emptyUnlocked_sector (l : List (Fin 8)) (d : ICache) (j : Fin 8) :
    ((l.foldl c.emptyUnlocked d).tag[j], (l.foldl c.emptyUnlocked d).valid[j]) =
      if j ∈ l ∧ c.lock.getLsbD j.val = false then (0x1FFFF#17, 0) else (d.tag[j], d.valid[j]) := by
  induction l generalizing d with
  | nil => simp
  | cons k l ih =>
    rw [List.foldl_cons, ih, c.emptyUnlocked_sector, ← ite_or]
    simp only [List.mem_cons, or_and_right, or_comm]

/-- The locked sectors keep their content, the others are empty (48_cache R551). -/
theorem ICache.flushUnlocked_sector (j : Fin 8) :
    if c.lock.getLsbD j.val then c.flushUnlocked.tag[j] = c.tag[j] ∧ c.flushUnlocked.valid[j] = c.valid[j]
    else c.flushUnlocked.tag[j] = 0x1FFFF#17 ∧ c.flushUnlocked.valid[j] = 0 := by
  have sector := c.foldl_emptyUnlocked_sector sectors c j
  rw [c.flushUnlocked_eq]
  split
  · next locked =>
    rw [if_neg (by simp only [locked, Bool.true_eq_false, and_false, not_false_eq_true])] at sector
    exact Prod.mk.inj sector
  · next free =>
    rw [if_pos ⟨mem_sectors j, eq_false_of_ne_true free⟩] at sector
    exact Prod.mk.inj sector

/-! ## PLOCK, PLOCKR, PUNLOCK, PUNLOCKR -/

variable {c} in
theorem ICache.setLock_of_locate {d : ICache} (h : c.locate a = some (j, d)) (b : Bool) :
    c.setLock a b = { d with lock := setBit d.lock j.val b }.touch j := by
  simp only [ICache.setLock, h]

variable {c} in
theorem ICache.setLock_tag_valid {d : ICache} (h : c.locate a = some (j, d)) (b : Bool) :
    (c.setLock a b).tag = d.tag ∧ (c.setLock a b).valid = d.valid := by
  rw [ICache.setLock_of_locate h]; exact ⟨rfl, rfl⟩

variable {c} in
theorem ICache.setLock_of_absent (h : c.locate a = none) (b : Bool) : c.setLock a b = c := by
  simp only [ICache.setLock, h]

theorem ICache.setLock_data (a : Word) (b : Bool) : (c.setLock a b).data = c.data := by
  cases h : c.locate a with
  | none => rw [ICache.setLock_of_absent h]
  | some p =>
    obtain ⟨j, d⟩ := p
    rw [ICache.setLock_of_locate h]
    exact (c.locate_keeps a h).2

theorem ICache.locate_of_find (h : c.find a = some j) : c.locate a = some (j, c) := by
  simp only [ICache.locate, h]

theorem ICache.locate_of_victim (absent : c.find a = none) (h : c.victim = some j) : c.locate a = some (j, c.take j a) := by
  simp only [ICache.locate, absent, h, Option.map_some]

theorem ICache.locate_of_no_victim (absent : c.find a = none) (h : c.victim = none) : c.locate a = none := by
  simp only [ICache.locate, absent, h, Option.map_none]

theorem ICache.locate_lock {d : ICache} (h : c.locate a = some (j, d)) : d.lock = c.lock := by
  cases found : c.find a with
  | some k =>
    rw [c.locate_of_find found] at h
    cases h; rfl
  | none =>
    cases chosen : c.victim with
    | none => rw [c.locate_of_no_victim found chosen] at h; cases h
    | some k =>
      rw [c.locate_of_victim found chosen] at h
      cases h; rfl

/-- The lock of the sector that was located is written, and the sector is the most recently used. -/
theorem lockedAt_of_locate {t : State} {d : ICache} {b : Bool} (h : s.cache.locate a = some (j, d))
    (cache : t.cache = s.cache.setLock a b) : LockedAt s t j b := by
  rw [ICache.setLock_of_locate h] at cache
  refine ⟨fun k => ?_, ?_⟩
  · have lock : t.cache.lock = setBit s.cache.lock j.val b := by rw [cache, ← s.cache.locate_lock h]; rfl
    rw [lock, getLsbD_setBit]
    simp only [j.isLt, and_true, Fin.ext_iff]
  · rw [cache, ← (s.cache.locate_keeps a h).1]; rfl

/-! ## Execution -/

theorem requested_illegal : Requested s (s.setPend 2 true) 2 := rfl

theorem cacheCommand_of_off (h : s.ce = false) (f : ICache → ICache) (n : Nat) :
    cacheCommand f n s = .next ((s.setPend 2 true).advance n) := if_neg (by simp [h])

theorem cacheCommand_of_on (h : s.ce = true) (f : ICache → ICache) (n : Nat) :
    cacheCommand f n s = .next ((s.withCache (f s.cache)).advance n) := if_pos h

variable {s} in
/-- The four commands on a sector differ in the address, the lock and the address register update only. -/
theorem exec_of_cacheLock {i : Instr} {b : Bool} {u : Option (Fin 8 × Word)} (h : cacheLock s i = some (a, b, u)) :
    exec i s = if s.ce then .next (((s.applyUpd u).withCache (s.cache.setLock a b)).advance i.len)
      else .next ((s.setPend 2 true).advance i.len) := by
  unfold cacheLock at h
  split at h <;> cases h
  case h_1 e => rfl
  case h_2 d => rw [wordAddress_eq]; rfl
  case h_3 e => rfl
  case h_4 d => rw [wordAddress_eq]; rfl

end Sys2Proof.Machine

open Sys2Proof Sys2Proof.Machine

/-- Settles O49: PFLUSH, PFLUSHUN and PFREE by `cacheCommand`, the others by `exec_of_cacheLock` and what `locate` finds. -/
theorem cache_commands : Obligations.Cache_commands := by
  refine ⟨fun s i h off => ⟨_, requested_illegal s, ?_⟩,
    fun s on => ⟨?_, ?_, cacheCommand_of_on s on (fun c => { c with lock := 0 }) 1⟩,
    fun s i a b u lock on => ⟨_, (exec_of_cacheLock lock).trans (if_pos on), rfl, s.cache.setLock_data a b, ?_⟩⟩
  · obtain lock | rfl | rfl | rfl := h
    · obtain ⟨⟨a, b, u⟩, lock⟩ := Option.isSome_iff_exists.1 lock
      rw [exec_of_cacheLock lock, if_neg (by simp [off])]
    · exact cacheCommand_of_off s off ICache.flush 1
    · exact cacheCommand_of_off s off ICache.flushUnlocked 1
    · exact cacheCommand_of_off s off (fun c => { c with lock := 0 }) 1
  · exact ⟨_, cacheCommand_of_on s on ICache.flush 1, rfl, rfl, rfl, rfl, s.cache.flush_sector⟩
  · obtain ⟨lock, data⟩ := s.cache.foldl_emptyUnlocked_lock_data sectors s.cache
    exact ⟨_, cacheCommand_of_on s on ICache.flushUnlocked 1, rfl, rfl, lock, data, s.cache.flushUnlocked_sector⟩
  · cases found : s.cache.find a with
    | some j =>
      have located := s.cache.locate_of_find found
      obtain ⟨tag, valid⟩ := ICache.setLock_tag_valid located b
      exact ⟨tag, valid, lockedAt_of_locate s located rfl⟩
    | none =>
      cases chosen : s.cache.victim with
      | none => exact ICache.setLock_of_absent (s.cache.locate_of_no_victim found chosen) b
      | some j =>
        have located := s.cache.locate_of_victim found chosen
        obtain ⟨tag, valid⟩ := ICache.setLock_tag_valid located b
        refine ⟨lockedAt_of_locate s located rfl, ?_, ?_, fun k other => ⟨?_, ?_⟩⟩
        · exact (getElem_congr_coll tag).trans ((s.cache.take_tag j j a).trans (if_pos rfl))
        · exact (getElem_congr_coll valid).trans ((s.cache.take_valid j j a).trans (if_pos rfl))
        · exact (getElem_congr_coll tag).trans ((s.cache.take_tag j k a).trans (if_neg other))
        · exact (getElem_congr_coll valid).trans ((s.cache.take_valid j k a).trans (if_neg other))

/-- Settles O50: the lookup decides which branch of the fetch is taken, and a miss leaves its sector `Filled`. -/
theorem cached_fetch : Obligations.Cached_fetch := by
  refine ⟨fun s a => s.fetch_of_uncached, fun s a j ce external hit => ?_, fun s a j ce external miss => ?_,
    fun s a ce external absent locked => ?_⟩
  · have found := ICache.find_of_tagHit hit
    obtain ⟨tag, -⟩ := hit
    rw [s.fetch_of_cached ce external]
    split
    · next valid => exact s.fetchCached_of_valid found valid
    · next invalid =>
      rw [s.fetchCached_of_invalid found invalid]
      split
      · rfl
      · exact ⟨_, rfl, rfl, s.filled_of_tag tag⟩
  · have victim := ICache.victim_of_replaced miss
    obtain ⟨absent, -⟩ := miss
    rw [s.fetch_of_cached ce external, s.fetchCached_of_victim (ICache.find_eq_none absent) victim]
    split
    · rfl
    · exact ⟨_, rfl, rfl, s.filled_of_take s.cache j a⟩
  · rw [s.fetch_of_cached ce external]
    exact s.fetchCached_of_no_victim (ICache.find_eq_none absent) (ICache.victim_eq_none locked)

end

section
/-!
Interrupt requests, their levels, and arbitration (60_exceptions R564 to R567, R577, R578).
-/
namespace Sys2Proof.Machine

variable {s : State}

/-! ## Enables, levels and requests -/

/-- A two-bit field of a word is off just where both its bits are. -/
theorem field_ne_zero (w : Word) (n : Nat) : (w.toNat / 2 ^ n % 4 != 0) = (w.getLsbD n || w.getLsbD (n + 1)) := by
  have low : w.getLsbD n = decide (w.toNat / 2 ^ n % 2 = 1) := by
    rw [BitVec.getLsbD, Nat.testBit_eq_decide_div_mod_eq]
  have high : w.getLsbD (n + 1) = decide (w.toNat / 2 ^ n / 2 % 2 = 1) := by
    rw [BitVec.getLsbD, Nat.testBit_eq_decide_div_mod_eq, Nat.pow_succ, Nat.div_div_eq_div_mul]
  rw [low, high, Bool.eq_iff_iff]
  simp only [bne_iff_ne, Bool.or_eq_true, decide_eq_true_eq]
  omega

/-- A pin is enabled where one of the two bits of its level is set. -/
theorem irqField_ne_zero (iprc : Word) (i : Nat) :
    (irqField iprc i != 0) = (iprc.getLsbD (3 * i) || iprc.getLsbD (3 * i + 1)) := field_ne_zero iprc (3 * i)

theorem irqLatches_eq (iprc : Word) (i : Nat) :
    irqLatches iprc i = (iprc.getLsbD (3 * i + 2) && (iprc.getLsbD (3 * i) || iprc.getLsbD (3 * i + 1))) := by
  rw [irqLatches, irqField_ne_zero, irqEdge, Bool.and_comm]

theorem State.levelOf_le (k : Nat) : s.levelOf k ≤ 3 := by
  have low : s.levelField k < 4 := by
    unfold State.levelField irqField dmaIprField
    split <;> [skip; split] <;> exact Nat.mod_lt _ (by decide)
  rw [State.levelOf]
  split <;> omega

theorem State.secondEnable_dma (n : Fin 6) : s.secondEnable (12 + n.val) = s.dma.ch[n].dcr.getLsbD 22 := by
  match n with
  | 0 | 1 | 2 | 3 | 4 | 5 => rfl

theorem State.requesting_dma (n : Fin 6) : s.requesting (12 + n.val) =
    (s.irq.pend.getLsbD (12 + n.val) && s.levelField (12 + n.val) != 0 && s.dma.ch[n].dcr.getLsbD 22) := by
  rw [State.requesting, if_neg (by omega), if_neg (by omega), State.secondEnable_dma]

theorem State.levelField_pin {i : Nat} (pin : i < 4) : s.levelField (8 + i) = irqField s.irq.iprc i := by
  rw [State.levelField, if_pos (by omega), Nat.add_sub_cancel_left]

theorem State.requesting_pin {i : Nat} (pin : i < 4) : s.requesting (8 + i) =
    ((s.irq.iprc.getLsbD (3 * i) || s.irq.iprc.getLsbD (3 * i + 1)) &&
      if s.irq.iprc.getLsbD (3 * i + 2) then s.irq.pend.getLsbD (8 + i) else !s.irq.pins.getLsbD i) := by
  rw [State.requesting, if_neg (by omega), if_pos (by omega), State.levelField_pin pin, irqField_ne_zero, irqEdge,
    Nat.add_sub_cancel_left, Bool.and_comm]

/-- Nothing requests while no flag is set and every pin is high. -/
theorem State.requesting_of_quiet (pend : s.irq.pend = 0) (pins : s.irq.pins = 0b1111#4) (k : Nat) : s.requesting k = false := by
  have high (i : Nat) (pin : i < 4) : (0b1111#4).getLsbD i = true := by
    interval_cases i <;> rfl
  unfold State.requesting
  rw [pend, pins]
  split
  · simp
  · split
    · rw [high (k - 8) (by omega)]
      simp
    · simp

/-! ## Arbitration -/

/-- Does the mask `i` let level `l` through (60_exceptions R566)? -/
abbrev letThrough (i : BitVec 2) (l : Nat) : Prop := l = 3 ∨ (i.toNat < 3 ∧ i.toNat ≤ l)

theorem eligible_iff {i : BitVec 2} {k : Nat} :
    eligible s i.toNat k ↔ s.requesting k = true ∧ letThrough i (s.levelOf k) := Iff.rfl

/-- The first source of a level is the one with the lowest vector address. -/
theorem State.firstOf_eq_some {l k : Nat} : s.firstOf l = some k ↔
    k < 128 ∧ (s.requesting k = true ∧ s.levelOf k = l) ∧ ∀ j < k, s.requesting j = true → s.levelOf j ≠ l := by
  simp only [State.firstOf, List.find?_range_eq_some, List.mem_range, Bool.and_eq_true, beq_iff_eq, Bool.not_eq_true',
    Bool.and_eq_false_iff, beq_eq_false_iff_ne]
  grind

theorem State.firstOf_eq_none {l : Nat} : s.firstOf l = none ↔ ∀ k < 128, s.requesting k = true → s.levelOf k ≠ l := by
  simp only [State.firstOf, List.find?_eq_none, List.mem_range, Bool.and_eq_true, beq_iff_eq, not_and, ne_eq]

/-- The levels are searched from the highest down. -/
theorem findSome?_levels {f : Nat → Option Nat} {k : Nat} (h : [3, 2, 1, 0].findSome? f = some k) :
    ∃ l, f l = some k ∧ ∀ m, l < m → m ≤ 3 → f m = none := by
  obtain ⟨above, l, below, levels, found, missed⟩ := List.findSome?_eq_some_iff.mp h
  have descending : (above ++ l :: below).Pairwise (· > ·) := levels ▸ by decide
  obtain ⟨-, tail, -⟩ := List.pairwise_append.mp descending
  obtain ⟨lower, -⟩ := List.pairwise_cons.mp tail
  refine ⟨l, found, fun m higher top => missed m ?_⟩
  have listed : m ∈ above ++ l :: below := levels ▸ by simp; omega
  rcases List.mem_append.mp listed with here | there
  · exact here
  · rcases List.mem_cons.mp there with rfl | later
    · omega
    · have := lower m later
      omega

/-- Where some source may request, the levels are searched. -/
theorem State.arbitrateUnder_eq (i : BitVec 2) : s.arbitrateUnder i =
    if s.irq.pend = 0 ∧ s.irq.pins = 0b1111#4 then none
    else [3, 2, 1, 0].findSome? fun l => if letThrough i l then s.firstOf l else none := rfl

/-- What is found first is eligible, and no eligible source comes before it. -/
theorem State.arbitrateUnder_of_some {i : BitVec 2} {k : Nat} (h : s.arbitrateUnder i = some k) :
    k < 128 ∧ eligible s i.toNat k ∧
      ∀ j < 128, eligible s i.toNat j → s.levelOf j < s.levelOf k ∨ (s.levelOf j = s.levelOf k ∧ k ≤ j) := by
  rw [State.arbitrateUnder_eq] at h
  split at h
  · cases h
  · obtain ⟨l, found, missed⟩ := findSome?_levels h
    obtain ⟨through, first⟩ := Option.ite_none_right_eq_some.mp found
    obtain ⟨range, ⟨requests, rfl⟩, before⟩ := State.firstOf_eq_some.mp first
    refine ⟨range, eligible_iff.mpr ⟨requests, through⟩, fun j hj other => ?_⟩
    obtain ⟨asks, mask⟩ := eligible_iff.mp other
    rcases lt_trichotomy (s.levelOf j) (s.levelOf k) with lower | same | higher
    · exact .inl lower
    · exact .inr ⟨same, Nat.le_of_not_lt fun earlier => before j earlier asks same⟩
    · have none := missed _ higher (s.levelOf_le j)
      rw [if_pos mask] at none
      exact absurd rfl (State.firstOf_eq_none.mp none j hj asks)

theorem State.arbitrateUnder_of_none {i : BitVec 2} (h : s.arbitrateUnder i = none) : ∀ k < 128, ¬eligible s i.toNat k := by
  intro k range may
  obtain ⟨requests, through⟩ := eligible_iff.mp may
  rw [State.arbitrateUnder_eq] at h
  split at h
  · next quiet =>
    obtain ⟨pend, pins⟩ := quiet
    exact Bool.false_ne_true ((State.requesting_of_quiet pend pins k).symm.trans requests)
  · have level : s.levelOf k ∈ [3, 2, 1, 0] := by
      have := s.levelOf_le k
      simp
      omega
    have none := List.findSome?_eq_none_iff.mp h _ level
    rw [if_pos through] at none
    exact State.firstOf_eq_none.mp none k range requests rfl

/-- Whichever mask arbitration uses, its choice is a source with a vector. -/
theorem State.arbitrate_lt {k : Nat} (h : s.arbitrate = some k) : k < 128 := by
  have under {i : BitVec 2} (h : s.arbitrateUnder i = some k) : k < 128 := (State.arbitrateUnder_of_some h).1
  simp only [State.arbitrate] at h
  (repeat' split at h) <;> exact under h

theorem State.arbitrate_of_closed (h : s.irq.window = 0) : s.arbitrate = s.arbitrateUnder s.ipl := if_pos h

end Sys2Proof.Machine

open Sys2Proof Sys2Proof.Machine

/-- Settles O52: each level is searched from source 0 up, the levels from 3 down. -/
theorem arbitration : Obligations.Arbitration := by
  refine fun s => ⟨State.arbitrate_of_closed, State.requesting_dma, fun i => ?_⟩
  split
  · next none => exact State.arbitrateUnder_of_none none
  · next k found => exact State.arbitrateUnder_of_some found

end

section
/-!
The interrupt pins (60_exceptions R563, R564).
-/
namespace Sys2Proof.Machine

variable {s : State}

/-- A DMA request touches the DMA controller and the processing state alone. -/
theorem State.dmaRequest_keeps (drs : BitVec 5) :
    (s.dmaRequest drs).alu = s.alu ∧ (s.dmaRequest drs).agu = s.agu ∧ (s.dmaRequest drs).pcu = s.pcu ∧
      (s.dmaRequest drs).mem = s.mem ∧ (s.dmaRequest drs).irq = s.irq ∧ (s.dmaRequest drs).env = s.env := by
  unfold State.dmaRequest
  cases s.ctl.phase with
  | stop | reset | normal | debug => exact ⟨rfl, rfl, rfl, rfl, rfl, rfl⟩
  | wait =>
    dsimp only
    split <;> exact ⟨rfl, rfl, rfl, rfl, rfl, rfl⟩

/-- A change of an IRQ pin's level touches the interrupt controller, the DMA controller and the processing state alone. -/
theorem State.irqPin_keeps (i : Fin 4) (high : Bool) :
    (s.irqPin i high).alu = s.alu ∧ (s.irqPin i high).agu = s.agu ∧ (s.irqPin i high).pcu = s.pcu ∧
      (s.irqPin i high).mem = s.mem ∧ (s.irqPin i high).env = s.env := by
  simp only [State.irqPin]
  split
  · split <;> simp [State.dmaRequest_keeps]
  · exact ⟨rfl, rfl, rfl, rfl, rfl⟩

theorem State.irqPin_pins (i : Fin 4) (high : Bool) : (s.irqPin i high).irq.pins = setBit s.irq.pins i.val high := by
  simp only [State.irqPin]
  split
  · split <;> simp [State.dmaRequest_keeps]
  · rfl

/-- A falling edge, and no other, sets the flag of a pin that takes edges. -/
theorem State.irqPin_pend (i : Fin 4) (high : Bool) : (s.irqPin i high).irq.pend =
    if s.irq.pins.getLsbD i.val && !high && s.ctl.phase != .reset && irqLatches s.irq.iprc i.val
      then setBit s.irq.pend (8 + i.val) true else s.irq.pend := by
  simp only [State.irqPin]
  cases s.irq.pins.getLsbD i.val && !high && s.ctl.phase != .reset
  · rfl
  · cases irqLatches s.irq.iprc i.val <;> simp [State.dmaRequest_keeps]

theorem Phase.bne_reset (p : Phase) : (p != .reset) = decide (p ≠ .reset) := by cases p <;> rfl

/-- A set flag, bit by bit. -/
theorem getLsbD_ite_setBit {n k : Nat} (v : BitVec n) (j : Nat) (b : Bool) (range : k < n) :
    (if b then setBit v k true else v).getLsbD j = (v.getLsbD j || (j == k && b)) := by
  cases b
  · simp
  · rw [if_pos rfl, getLsbD_setBit]
    by_cases same : j = k <;> simp [same, range]

/-- A pin's level changes, whatever the bus is locked for. -/
theorem step_pin {p : Pin} {high : Bool} {rest : List Event} (h : s.env = .pin p high :: rest) :
    step s = .next (({ s with env := rest } : State).pinEvent p high).tick := by
  simp [step, live, h, Event.takesBus, happen]

theorem step_irqPin {i : Fin 4} {p : Pin} {high : Bool} {rest : List Event} (h : s.env = .pin p high :: rest)
    (pin : ∀ t : State, t.pinEvent p high = t.irqPin i high) :
    ∃ t, step s = .next t ∧ t.env = rest ∧ t.pcu = s.pcu ∧ t.alu = s.alu ∧ t.agu = s.agu ∧ t.mem = s.mem ∧
      (∀ j < 4, t.irq.pins.getLsbD j = if j = i.val then high else s.irq.pins.getLsbD j) ∧
      ∀ k < 128, t.irq.pend.getLsbD k = (s.irq.pend.getLsbD k || (k == 8 + i.val &&
        (s.irq.pins.getLsbD i.val && !high && decide (s.ctl.phase ≠ .reset) && s.irq.iprc.getLsbD (3 * i.val + 2) &&
          (s.irq.iprc.getLsbD (3 * i.val) || s.irq.iprc.getLsbD (3 * i.val + 1))))) := by
  let u : State := { s with env := rest }
  obtain ⟨alu, agu, pcu, mem, env⟩ := u.irqPin_keeps i high
  refine ⟨(u.irqPin i high).tick, pin u ▸ step_pin h, env, pcu, alu, agu, mem, fun j _ => ?_, fun k _ => ?_⟩
  · show (u.irqPin i high).irq.pins.getLsbD j = _
    rw [State.irqPin_pins, getLsbD_setBit]
    simp [i.isLt, u]
  · show (u.irqPin i high).irq.pend.getLsbD k = _
    rw [State.irqPin_pend, getLsbD_ite_setBit _ _ _ (by omega), irqLatches_eq]
    simp only [u, Phase.bne_reset, Bool.and_assoc]

/-- The edge latches that a new IPRC keeps, flag by flag. -/
theorem getLsbD_irqKeep (w : Word) {k : Nat} (range : k < 128) :
    (irqKeep w).getLsbD k = (decide (k < 8 ∨ 12 ≤ k) || irqLatches w (k - 8)) := by
  simp only [irqKeep, BitVec.getLsbD_not, BitVec.getLsbD_or, getLsbD_bitAt, range, decide_true, Bool.true_and]
  by_cases pin : k < 8 ∨ 12 ≤ k
  · have other (j : Nat) (h : 8 ≤ j ∧ j < 12) : k ≠ j := by omega
    simp [pin, other]
  · obtain rfl | rfl | rfl | rfl : k = 8 ∨ k = 9 ∨ k = 10 ∨ k = 11 := by omega
    all_goals simp

/-- The address of IPRC is $FFFFFF. -/
theorem State.writeData_iprc (w : Word) : s.writeData .x (coreAddr 0x7F) w = s.writeIprc w :=
  s.writeData_coreAddr (by omega) (by omega) w

theorem State.pinEvent_nmi_pend (high : Bool) : (s.pinEvent .nmi high).irq.pend =
    if s.irq.nmi && !high && s.ctl.phase != .reset then setBit s.irq.pend 5 true else s.irq.pend := by
  simp only [State.pinEvent]
  split <;> rfl

theorem State.pinEvent_nmi_keeps (high : Bool) :
    (s.pinEvent .nmi high).irq.nmi = high ∧ (s.pinEvent .nmi high).pcu = s.pcu := by
  simp only [State.pinEvent]
  split <;> exact ⟨rfl, rfl⟩

end Sys2Proof.Machine

open Sys2Proof Sys2Proof.Machine

/-- Settles O53: `irqPin` says what an edge does, `irqKeep` what a new IPRC keeps. -/
theorem interrupt_pins : Obligations.Interrupt_pins := by
  refine ⟨fun s rest high q pins h => ?_, fun s rest high h => ?_, fun s i pin => State.requesting_pin pin, fun s w => ?_⟩
  · simp only [List.mem_cons, List.not_mem_nil, or_false] at pins
    rcases pins with rfl | rfl | rfl | rfl
    · exact step_irqPin (i := 0) h fun _ => rfl
    · exact step_irqPin (i := 1) h fun _ => rfl
    · exact step_irqPin (i := 2) h fun _ => rfl
    · exact step_irqPin (i := 3) h fun _ => rfl
  · let u : State := { s with env := rest }
    obtain ⟨nmi, pcu⟩ := u.pinEvent_nmi_keeps high
    refine ⟨(u.pinEvent .nmi high).tick, step_pin h, nmi, pcu, fun k _ => ?_⟩
    show (u.pinEvent .nmi high).irq.pend.getLsbD k = _
    rw [State.pinEvent_nmi_pend, getLsbD_ite_setBit _ _ _ (by omega), Phase.bne_reset]
    simp only [u, Bool.and_assoc]
  · rw [State.writeData_iprc]
    refine ⟨rfl, fun k range => ?_⟩
    rw [State.writeIprc_pend, BitVec.getLsbD_and, getLsbD_irqKeep w range, irqLatches_eq]

end

section
/-!
The ends of the Wait and Stop states (60_exceptions R575, R580 to R582; 61_debug R640).
-/
namespace Sys2Proof.Machine

variable {s : State}

/-- `t` has the registers and the memories of `s` that a halted core keeps. -/
def HaltKept (s t : State) : Prop := t.pcu = s.pcu ∧ t.alu = s.alu ∧ t.mem = s.mem

/-- With nothing from outside, a halted core looks at its own end of the halt. -/
theorem step_wait (env : s.env = []) (h : s.ctl.phase = .wait) : step s = .next (waitTurn s).tick := by
  simp [step, live, env, turn, h]

theorem step_stop (env : s.env = []) (h : s.ctl.phase = .stop) : step s = .next (stopTurn s).tick := by
  simp [step, live, env, turn, h]

/-! ## Without a debug request -/

theorem waitTurn_of_quiet (request : s.once.request = false) (de : s.irq.de = true) : waitTurn s =
    if s.arbitrateUnder s.ipl = none then s else ({ s with irq := { s.irq with window := 0 } } : State).withPhase .normal := by
  simp only [waitTurn, request, de]
  cases s.arbitrateUnder s.ipl <;> rfl

theorem stopTurn_of_quiet (request : s.once.request = false) (de : s.irq.de = true) :
    stopTurn s = if s.irq.pins.getLsbD 0 then s else s.endHalt := by
  simp [stopTurn, request, de]

/-- The flags below 8, those of level 3, are the ones that no mask stops (60_exceptions R561). -/
theorem getLsbD_level3Mask (k : Nat) : level3Mask.getLsbD k = decide (k < 8) := by
  have mask : level3Mask = (BitVec.allOnes 8).setWidth 128 := rfl
  rw [mask, BitVec.getLsbD_setWidth, BitVec.getLsbD_allOnes]
  simp only [Bool.and_eq_right_iff_imp, decide_eq_true_eq]
  omega

theorem State.endHalt_of_stop (h : s.ctl.phase = .stop) : s.endHalt =
    ({ s with irq := { s.irq with pend := s.irq.pend &&& level3Mask, window := 0 } } : State).withPhase .normal := by
  simp [State.endHalt, h]

/-- The end of Stop clears the maskable requests. -/
theorem State.endHalt_pend_of_stop (h : s.ctl.phase = .stop) (k : Nat) :
    s.endHalt.irq.pend.getLsbD k = (s.irq.pend.getLsbD k && decide (k < 8)) := by
  rw [State.endHalt_of_stop h, ← getLsbD_level3Mask, ← BitVec.getLsbD_and]
  rfl

theorem State.endHalt_of_wait (h : s.ctl.phase = .wait) :
    s.endHalt = ({ s with irq := { s.irq with window := 0 } } : State).withPhase .normal := by
  simp [State.endHalt, h]

/-! ## With a debug request -/

theorem waitTurn_of_request (h : s.once.request = true ∨ s.irq.de = false) : waitTurn s = s.acknowledge :=
  if_pos (by simpa using h)

theorem stopTurn_of_request (h : s.once.request = true ∨ s.irq.de = false) : stopTurn s = s.acknowledge :=
  if_pos (by simpa using h)

/-- A halted core leaves its halt for the Normal state. -/
theorem State.endHalt_normal (h : s.ctl.phase = .wait ∨ s.ctl.phase = .stop) : s.endHalt.ctl.phase = .normal := by
  rcases h with h | h
  · rw [State.endHalt_of_wait h]; rfl
  · rw [State.endHalt_of_stop h]; rfl

theorem State.endHalt_kept (s : State) : HaltKept s s.endHalt := by
  unfold State.endHalt
  split <;> exact ⟨rfl, rfl, rfl⟩

/-- Whatever has asked for Debug mode ends the halt. -/
theorem State.enterDebug_of_halt (c : BitVec 3) (h : s.ctl.phase = .wait ∨ s.ctl.phase = .stop) :
    HaltKept s (s.enterDebug c) ∧
      (∀ k, k ≠ 3 → (s.enterDebug c).irq.pend.getLsbD k = s.endHalt.irq.pend.getLsbD k) ∧
      if s.once.oscr.getLsbD 1 then (s.enterDebug c).ctl.phase = .normal ∧ (s.enterDebug c).irq.pend.getLsbD 3 = true
      else (s.enterDebug c).ctl.phase = .debug := by
  have halted : s.ctl.phase ≠ .debug := by rcases h with h | h <;> simp [h]
  simp only [State.enterDebug, if_neg halted]
  split
  · exact ⟨s.endHalt_kept, fun k other => by simp [other], State.endHalt_normal h, by simp⟩
  · exact ⟨s.endHalt_kept, fun k _ => rfl, rfl⟩

end Sys2Proof.Machine

open Sys2Proof Sys2Proof.Machine

/-- Settles O55: Wait ends by arbitration, Stop by the level of IRQA, both by what asks for Debug mode. -/
theorem wait_and_stop : Obligations.Wait_and_stop := by
  refine fun s env => ⟨fun request de => ⟨fun wait => ?_, fun stop => ?_⟩, fun halted asked => ?_⟩
  · refine ⟨_, step_wait env wait, ?_⟩
    rw [waitTurn_of_quiet request de]
    split
    · next none => exact ⟨rfl, rfl, rfl, .inl ⟨wait, State.arbitrateUnder_of_none none⟩⟩
    · next some =>
      obtain ⟨k, found⟩ := Option.ne_none_iff_exists'.mp some
      obtain ⟨range, may, -⟩ := State.arbitrateUnder_of_some found
      exact ⟨rfl, rfl, rfl, .inr ⟨rfl, k, range, may⟩⟩
  · refine ⟨_, step_stop env stop, ?_⟩
    rw [stopTurn_of_quiet request de]
    split
    · next high => exact ⟨rfl, rfl, rfl, stop, fun k _ => by rw [high]; simp⟩
    · next low =>
      obtain ⟨pcu, alu, mem⟩ := s.endHalt_kept
      refine ⟨pcu, alu, mem, State.endHalt_normal (.inr stop), fun k _ => (State.endHalt_pend_of_stop stop k).trans ?_⟩
      rw [Bool.eq_false_of_not_eq_true low, Bool.or_false]
  · let a : State := { s with once := { s.once with request := false, asked := 0 } }
    have ends : step s = .next (a.enterDebug s.once.asked).tick := by
      rcases halted with wait | stop
      · rw [step_wait env wait, waitTurn_of_request asked]
        rfl
      · rw [step_stop env stop, stopTurn_of_request asked]
        rfl
    obtain ⟨⟨pcu, alu, mem⟩, pend, mode⟩ := State.enterDebug_of_halt (s := a) s.once.asked halted
    refine ⟨_, ends, pcu, alu, mem, fun stop k _ high => (pend k (by omega)).trans ?_, mode⟩
    rw [State.endHalt_pend_of_stop (s := a) stop, decide_eq_false (by omega), Bool.and_false]

end

section
/-!
What an instruction in a vector word leaves of the interrupt context and the frozen PC (60_exceptions R571).
-/
namespace Sys2Proof.Machine

variable {s : State}

/-! ## Instructions that keep the context -/

/-- Where there is a next state, it has the interrupt context of `s`. -/
def KeepsCtx (s : State) (r : Res) : Prop := ∀ t, r = .next t → t.ctl.ctx = s.ctl.ctx

theorem KeepsCtx.next {t : State} (h : t.ctl.ctx = s.ctl.ctx) : KeepsCtx s (.next t) := fun _ e => by cases e; exact h

theorem KeepsCtx.refused (r : Refusal) : KeepsCtx s (.refused r) := fun _ e => by cases e

theorem KeepsCtx.advance {u : State} (h : u.ctl.ctx = s.ctl.ctx) (n : Nat) : KeepsCtx s (.next (u.advance n)) :=
  .next (by simp [h])

theorem State.enterDebug_ctx (c : BitVec 3) : (s.enterDebug c).ctl.ctx = s.ctl.ctx := by
  simp only [State.enterDebug, State.endHalt]
  (repeat' split) <;> simp

theorem State.debugCall_ctx : s.debugCall.ctl.ctx = s.ctl.ctx := by simp [State.debugCall, State.enterDebug_ctx]

theorem bitModify_keepsCtx (f : Bool → Bool) (n : BitVec 5) (o : BitOpd) (len : Nat) : KeepsCtx s (bitModify f n o len s) := by
  simp only [bitModify]
  split
  · exact .refused _
  · exact .advance (by split <;> simp) len

theorem bitTest_keepsCtx (n : BitVec 5) (o : BitOpd) (len : Nat) : KeepsCtx s (bitTest n o len s) := by
  simp only [bitTest]
  split
  · exact .refused _
  · exact .advance (by simp) len

theorem loadReg_keepsCtx (w : Word) (u : Option (Fin 8 × Word)) (r : Reg) (n : Nat) : KeepsCtx s (loadReg w u r n s) :=
  .advance (by simp) n

theorem storeReg_keepsCtx (put : State → Word → State) (keeps : ∀ t v, (put t v).ctl.ctx = t.ctl.ctx)
    (u : Option (Fin 8 × Word)) (r : Reg) (n : Nat) : KeepsCtx s (storeReg put u r n s) :=
  .advance ((keeps _ _).trans (by simp)) n

theorem moveData_keepsCtx (sp : Space) (w : Dir) (e : Ea) (r : Reg) : KeepsCtx s (moveData sp w e r s) := by
  cases w with
  | read => exact storeReg_keepsCtx (fun t v => t.writeData sp _ v) (fun t v => by simp) _ r _
  | write => exact loadReg_keepsCtx _ _ r _

theorem moveAt_keepsCtx (sp : Space) (w : Dir) (a : Word) (r : Reg) (n : Nat) : KeepsCtx s (moveAt sp w a r n s) := by
  cases w with
  | read => exact storeReg_keepsCtx (fun t v => t.writeData sp _ v) (fun t v => by simp) _ r _
  | write => exact loadReg_keepsCtx _ _ r _

theorem moveProgram_keepsCtx (w : Dir) (a : Word) (u : Option (Fin 8 × Word)) (r : Reg) (n : Nat) :
    KeepsCtx s (moveProgram w a u r n s) := by
  cases w with
  | read => exact storeReg_keepsCtx (fun t v => t.writeP a v) (fun t v => by simp) _ r _
  | write => exact loadReg_keepsCtx _ _ r _

theorem movePeripheral_keepsCtx (ps : Space) (io : Word) (w : Dir) (sp : Space) (e : Ea) :
    KeepsCtx s (movePeripheral ps io w sp e s) := by
  cases w <;> exact .advance (by simp) _

theorem movePeripheralP_keepsCtx (ps : Space) (io : Word) (w : Dir) (e : Ea) : KeepsCtx s (movePeripheralP ps io w e s) := by
  cases w <;> exact .advance (by simp) _

theorem movePeripheralReg_keepsCtx (ps : Space) (io : Word) (w : Dir) (r : Reg) :
    KeepsCtx s (movePeripheralReg ps io w r s) := by
  cases w with
  | read => exact loadReg_keepsCtx _ _ r 1
  | write => exact storeReg_keepsCtx (fun t v => t.writeData ps io v) (fun t v => by simp) _ r 1

theorem runTcc_keepsCtx (c : Cond) (o : State → AluOut) (r : Option (Fin 8 × Fin 8)) : KeepsCtx s (runTcc c o r s) := by
  refine .advance ?_ 1
  split
  · cases r <;> simp
  · rfl

theorem cacheCommand_keepsCtx (f : ICache → ICache) (n : Nat) : KeepsCtx s (cacheCommand f n s) := by
  unfold cacheCommand
  split <;> exact .advance (by simp) n

theorem lockEa_keepsCtx (b : Bool) (e : Ea) : KeepsCtx s (lockEa b e s) := by
  unfold lockEa
  split <;> exact .advance (by simp) _

/-- An instruction of a class that REP may repeat leaves the interrupt context alone. -/
theorem exec_keepsCtx_of_repeatable {i : Instr} (h : (kindOf i).repeatable = true) : KeepsCtx s (exec i s) := by
  cases o : outOf s i with
  | some o => rw [exec_outOf s i _ ‹_›]; exact .advance (by simp) _
  | none =>
    cases i <;> simp only [outOf, reduceCtorEq] at o <;> simp only [kindOf, Kind.repeatable, Bool.false_eq_true] at h
    case reservedA | reservedB | illegal | nop | reset | norm | lraReg | lraLong | luaEa | luaDisp | movecImm | vsl =>
      exact .advance (by simp) _
    case andi _ e | ori _ e => exact .advance (by cases e <;> simp [controlByte]) 1
    case debug => exact .next State.debugCall_ctx
    case debugcc c => exact .next (by split <;> [exact State.debugCall_ctx; rfl])
    case ifcc | ifccU => exact .advance (by split <;> simp) 1
    case tccD c s1 d => exact runTcc_keepsCtx c (tccSrc s1 d) none
    case tccDR c s1 d t u => exact runTcc_keepsCtx c (tccSrc s1 d) (some (t, u))
    case tccR c t u => exact runTcc_keepsCtx c (fun _ => .nothing) (some (t, u))
    case bchgEa | bchgAa | bchgPp | bchgQq | bchgReg => exact bitModify_keepsCtx (fun b => !b) _ _ _
    case bclrEa | bclrAa | bclrPp | bclrQq | bclrReg => exact bitModify_keepsCtx (fun _ => false) _ _ _
    case bsetEa | bsetAa | bsetPp | bsetQq | bsetReg => exact bitModify_keepsCtx (fun _ => true) _ _ _
    case btstEa | btstAa | btstPp | btstQq | btstReg => exact bitTest_keepsCtx _ _ _
    case moveXLong | moveYLong | moveXShort | moveYShort | movecAa => exact moveAt_keepsCtx _ _ _ _ _
    case movecEa => exact moveData_keepsCtx _ _ _ _
    case movecReg w r c => cases w <;> exact .advance (by simp) 1
    case movemEa | movemAa => exact moveProgram_keepsCtx _ _ _ _ _
    case movepPpEa | movepXqqEa | movepYqqEa => exact movePeripheral_keepsCtx _ _ _ _ _
    case movepPpP | movepQqP => exact movePeripheralP_keepsCtx _ _ _ _
    case movepPpReg | movepXqqReg | movepYqqReg => exact movePeripheralReg_keepsCtx _ _ _ _
    case plock | punlock => exact lockEa_keepsCtx _ _
    case plockr d => exact cacheCommand_keepsCtx (fun c => c.setLock (s.opRelative 2 d) true) 2
    case punlockr d => exact cacheCommand_keepsCtx (fun c => c.setLock (s.opRelative 2 d) false) 2
    case pflush | pflushun => exact cacheCommand_keepsCtx _ 1
    case pfree => exact cacheCommand_keepsCtx (fun c => { c with lock := 0 }) 1

theorem startLoop_keepsCtx {src : State → Word × State} (keeps : ∀ t, (src t).2.ctl.ctx = t.ctl.ctx) (la : Word) :
    KeepsCtx s (startLoop src la s) := by
  simp only [startLoop]
  split
  · exact .next (by simp [keeps])
  · exact .advance (by simp [keeps]) 2

/-- A loop start that a vector word may hold, DOR or DOR FOREVER, leaves the interrupt context alone. -/
theorem exec_keepsCtx_of_loopStart {i : Instr} (h : kindOf i = .loopStart true) : KeepsCtx s (exec i s) := by
  cases i <;> simp only [kindOf, reduceCtorEq, Kind.loopStart.injEq, Bool.false_eq_true] at h
  case dorEa sp e d => exact startLoop_keepsCtx (src := countEa sp e) (fun t => by simp [countEa]) _
  case dorAa | dorNum => exact startLoop_keepsCtx (fun t => rfl) _
  case dorReg r d =>
    refine fun t run => ?_
    simp only [exec, execDorReg] at run
    split at run
    · cases run
    · exact startLoop_keepsCtx (src := countReg r) (fun t => by simp [countReg]) _ t run
  case dorForever => exact .advance (by simp) 2

/-! ## Changes of flow -/

/-- Where there is a next state, the interrupt is over, or its context and the frozen PC are as before. -/
def LeavesOrFrozen (s : State) (r : Res) : Prop :=
  ∀ t, r = .next t → t.ctl.ctx = none ∨ (t.ctl.ctx = s.ctl.ctx ∧ t.pcu.pc = s.pcu.pc)

theorem SameFlow.advance_of_frozen {u : State} (frozen : s.frozen = true) (h : SameFlow s u) (n : Nat) :
    (u.advance n).pcu.pc = s.pcu.pc := by
  rw [h.advance_pc, State.nextPc, if_pos frozen]

theorem State.call_ctx (n : Nat) (a : Word) : (s.call n a).ctl.ctx = none := by
  unfold State.call
  split <;> rfl

/-- A jump or a call to `v`, if it is taken, which ends the interrupt; else the end in sequence of `u`. -/
theorem LeavesOrFrozen.ite {u v : State} {take : Prop} [Decidable take] (frozen : s.frozen = true) (h : SameFlow s u)
    (leaves : v.ctl.ctx = none) (n : Nat) : LeavesOrFrozen s (.next (if take then v else u.advance n)) := by
  rintro _ ⟨⟩
  split
  · exact .inl leaves
  · have ⟨_, ctx, _⟩ := h
    exact .inr ⟨by simpa using ctx, h.advance_of_frozen frozen n⟩

theorem LeavesOrFrozen.taken {v : State} (leaves : v.ctl.ctx = none) : LeavesOrFrozen s (.next v) := by
  rintro _ ⟨⟩
  exact .inl leaves

theorem LeavesOrFrozen.inSequence {n : Nat} {r : Res} (frozen : s.frozen = true) (keeps : KeepsCtx s r)
    (ends : EndsInSequence n s r) : LeavesOrFrozen s r := fun t run =>
  .inr ⟨keeps t run, by rw [ends t run, State.nextPc, if_pos frozen]⟩

theorem bitJump_leavesOrFrozen (frozen : s.frozen = true) (want : Bool) (n : BitVec 5) (o : BitOpd) (target : Word) :
    LeavesOrFrozen s (bitJump want n o target s) := by
  simp only [bitJump]
  split
  · rintro _ ⟨⟩
  · exact .ite frozen (by simp [SameFlow]) rfl 2

theorem bitCall_leavesOrFrozen (frozen : s.frozen = true) (want : Bool) (n : BitVec 5) (o : BitOpd) (target : Word) :
    LeavesOrFrozen s (bitCall want n o target s) := by
  simp only [bitCall]
  split
  · rintro _ ⟨⟩
  · exact .ite frozen (by simp [SameFlow]) (State.call_ctx _ _) 2

theorem jumpIf_leavesOrFrozen (frozen : s.frozen = true) (c : Cond) (target : Word) (n : Nat) :
    LeavesOrFrozen s (jumpIf c target n s) := .ite frozen ⟨rfl, rfl, rfl⟩ rfl n

theorem callIf_leavesOrFrozen (frozen : s.frozen = true) (c : Cond) (target : Word) (n : Nat) :
    LeavesOrFrozen s (callIf c target n s) := .ite frozen ⟨rfl, rfl, rfl⟩ (State.call_ctx _ _) n

theorem jumpEaIf_leavesOrFrozen (frozen : s.frozen = true) (take : Bool) (e : Ea) : LeavesOrFrozen s (jumpEaIf take e s) :=
  .ite frozen (by simp [SameFlow]) rfl _

theorem callEaIf_leavesOrFrozen (frozen : s.frozen = true) (take : Bool) (e : Ea) : LeavesOrFrozen s (callEaIf take e s) :=
  .ite frozen (by simp [SameFlow]) (State.call_ctx _ _) _

theorem exec_leavesOrFrozen_of_jump {i : Instr} {rel : Bool} {g : Gate} (frozen : s.frozen = true)
    (h : kindOf i = .jump rel g) : LeavesOrFrozen s (exec i s) := by
  cases i <;> simp only [kindOf, reduceCtorEq] at h
  case bccLong | bccShort | bccReg | jccShort => exact jumpIf_leavesOrFrozen frozen _ _ _
  case jccEa | jmpEa => exact jumpEaIf_leavesOrFrozen frozen _ _
  case braLong | braShort | braReg | jmpShort => exact .taken rfl
  all_goals exact bitJump_leavesOrFrozen frozen _ _ _ _

theorem exec_leavesOrFrozen_of_call {i : Instr} {rel : Bool} {g : Gate} (frozen : s.frozen = true)
    (h : kindOf i = .call rel g) : LeavesOrFrozen s (exec i s) := by
  cases i <;> simp only [kindOf, reduceCtorEq] at h
  case bsccLong | bsccShort | bsccReg | jsccShort => exact callIf_leavesOrFrozen frozen _ _ _
  case jsccEa | jsrEa => exact callEaIf_leavesOrFrozen frozen _ _
  case bsrLong | bsrShort | bsrReg | jsrShort => exact .taken (State.call_ctx _ _)
  all_goals exact bitCall_leavesOrFrozen frozen _ _ _ _

/-- An instruction that a vector word may hold ends the interrupt, or leaves its context, and but for DOR the frozen PC. -/
theorem exec_of_inVector {i : Instr} {t : State} (frozen : s.frozen = true) (h : (kindOf i).inVector = true)
    (run : exec i s = .next t) : t.ctl.ctx = none ∨
      (t.ctl.ctx = s.ctl.ctx ∧ (kindOf i ≠ .loopStart true → t.pcu.pc = s.pcu.pc)) := by
  have sequence (c : (kindOf i).repeatable = true) : LeavesOrFrozen s (exec i s) :=
    .inSequence frozen (exec_keepsCtx_of_repeatable c) (exec_endsInSequence c)
  by_cases dor : kindOf i = .loopStart true
  · exact .inr ⟨exec_keepsCtx_of_loopStart dor t run, fun other => absurd dor other⟩
  · have ends : LeavesOrFrozen s (exec i s) := by
      cases kind : kindOf i with
      | jump => exact exec_leavesOrFrozen_of_jump frozen kind
      | call => exact exec_leavesOrFrozen_of_call frozen kind
      | plain | control | move | moveRegs | modify | test => exact sequence (by rw [kind]; rfl)
      | loopStart rel =>
        rw [kind] at h dor
        exact absurd (congrArg Kind.loopStart h) dor
      | loopEnd | rep | ret | trap | halt =>
        rw [kind] at h
        cases h
    exact (ends t run).imp_right fun ⟨ctx, pc⟩ => ⟨ctx, fun _ => pc⟩

end Sys2Proof.Machine
end

section
/-!
The acceptance of an interrupt, and the steps that execute its vector words (60_exceptions R561, R562, R570, R571).
-/
namespace Sys2Proof.Machine

variable {s : State}

/-! ## The vector and its flag -/

/-- A byte below the high sixteen bits of a word. -/
theorem high_or_byte (v : Word) (m : Byte) : (v &&& 0xFFFF00#24) ||| m.setWidth 24 = v.extractLsb' 8 16 ++ m := by
  have mask : 0xFFFF00#24 = BitVec.allOnes 16 ++ 0#8 := rfl
  apply BitVec.eq_of_getLsbD_eq
  intro j hj
  rw [mask, BitVec.getLsbD_or, BitVec.getLsbD_and, BitVec.getLsbD_append, BitVec.getLsbD_append, BitVec.getLsbD_setWidth,
    BitVec.getLsbD_extractLsb', BitVec.getLsbD_allOnes]
  by_cases low : j < 8
  · simp [low, hj]
  · simp only [low, hj, show j - 8 < 16 by omega, show 8 + (j - 8) = j by omega, BitVec.getLsbD_of_ge m j (by omega)]
    simp

/-- The vector of source `k` is at VBA[23:8] : 2k (60_exceptions R561). -/
theorem State.vector_eq {k : Nat} (range : k < 128) :
    s.vector k = s.pcu.vba.extractLsb' 8 16 ++ BitVec.ofNat 8 (2 * k) := by
  have byte : BitVec.ofNat 24 (2 * k) = (BitVec.ofNat 8 (2 * k)).setWidth 24 := by
    apply BitVec.eq_of_toNat_eq
    simp only [BitVec.toNat_ofNat, BitVec.toNat_setWidth]
    omega
  rw [State.vector, byte, high_or_byte]

theorem toNat_append_byte (v : BitVec 16) {n : Nat} (byte : n < 2 ^ 8) :
    (v ++ BitVec.ofNat 8 n : Word).toNat = v.toNat * 2 ^ 8 + n := by
  rw [BitVec.toNat_append, BitVec.toNat_ofNat, Nat.mod_eq_of_lt byte, ← Nat.shiftLeft_add_eq_or_of_lt byte, Nat.shiftLeft_eq]

/-- Its second word is at the odd address. -/
theorem vector_succ (v : BitVec 16) {k : Nat} (range : k < 128) :
    (v ++ BitVec.ofNat 8 (2 * k) : Word) + 1 = v ++ BitVec.ofNat 8 (2 * k + 1) := by
  have even := toNat_append_byte v (n := 2 * k) (by omega)
  have odd := toNat_append_byte v (n := 2 * k + 1) (by omega)
  bv_omega

theorem State.clearAccepted_getLsbD (k j : Nat) : (s.clearAccepted k).irq.pend.getLsbD j =
    (s.irq.pend.getLsbD j && !(j == k && decide (k < 18))) := by
  rw [State.clearAccepted_pend]
  by_cases core : k < 18
  · rw [if_pos core, getLsbD_setBit]
    by_cases same : j = k <;> simp [same, core]
    omega
  · simp [core]

/-! ## Acceptance -/

/-- What acceptance leaves: both words fetched, or while another master is at work the second still to be fetched. -/
theorem accept_of_fetches {s1 s2 : State} {k : Nat} {w1 w2 : Word} (first : (s.withPdb []).fetch (s.vector k) = some (w1, s1))
    (second : s1.fetch (s.vector k + 1) = some (w2, s2)) :
    let c : List Word → IntCtx := fun words => ⟨BitVec.ofNat 7 k, BitVec.ofNat 2 (s.levelOf k), s.vector k, words⟩
    accept k s = .next (if s.shared && s.freeBit .lateAccess 2
      then (s1.withLate [.vector (s.vector k + 1)]).withCtx (some (c [w1]))
      else (s2.clearAccepted k).withCtx (some (c [w1, w2]))) := by
  simp only [accept, first, second]
  split <;> rfl

/-- Two fetches, from an empty program data bus, change the cache and that bus alone. -/
theorem withCache_of_fetches {s1 s2 : State} {a b w1 w2 : Word} (first : (s.withPdb []).fetch a = some (w1, s1))
    (second : s1.fetch b = some (w2, s2)) :
    (∃ c, s1 = (s.withPdb []).withCache c) ∧ ∃ c, s2 = (s.withPdb []).withCache c := by
  obtain ⟨c, rfl⟩ := withCache_of_fetch first
  obtain ⟨d, rfl⟩ := withCache_of_fetch second
  exact ⟨⟨c, rfl⟩, d, rfl⟩

theorem coreInstr_of_arbitrate {k : Nat} (rep : s.ctl.rep = none) (ctx : s.ctl.ctx = none) (spilled : s.ctl.spilled = false)
    (h : s.arbitrate = some k) : coreInstr s = accept k s := by
  simp [coreInstr, rep, ctx, spilled, h]

/-- The core alone makes the access that is still to be made. -/
theorem step_of_late {l : Late} {r : List Late} (env : s.env = []) (phase : s.ctl.phase = .normal) (dma : s.dmaActive = none)
    (late : s.ctl.late = l :: r) : step s = .next ((s.withLate r).land l).tick := by
  simp [step, live, env, turn, phase, State.debugDue, late, dmaOr, dma, coreOr]

/-! ## A vector word executed -/

theorem IntCtx.next_eq (c : IntCtx) : c.next = c.base + BitVec.ofInt 24 (2 - c.words.length) := by
  simp only [IntCtx.next, Int.sub_eq_add_neg, BitVec.ofInt_add, BitVec.ofInt_neg, BitVec.ofInt_natCast, BitVec.ofInt_ofNat]
  generalize BitVec.ofNat 24 c.words.length = l
  bv_omega

theorem coreInstr_of_ctx {c : IntCtx} (rep : s.ctl.rep = none) (ctx : s.ctl.ctx = some c) : coreInstr s = runVector c s := by
  simp [coreInstr, rep, ctx]

theorem runVector_of_vectorInstr {c : IntCtx} {i : Instr} {rest : List Word} (h : VectorInstr c.words i rest) :
    runVector c s = runVectorInstr c i rest s := by
  obtain ⟨w, ⟨words, read, len⟩ | ⟨len, ⟨j, reads, two⟩, x, words, read⟩⟩ := h
  · have instr : orIllegal (decode w 0) = i := by rw [read]; rfl
    simp only [runVector, words, instr, len, if_true]
  · have first : (orIllegal (decode w 0)).len ≠ 1 := by
      rw [reads]
      simp [orIllegal, two]
    have instr : orIllegal (decode w x) = i := by rw [read]; rfl
    simp only [runVector, words, first, instr, if_false]

/-- A vector word ends no loop (60_exceptions R571). -/
theorem State.loopTest_of_frozen {b : State} (frozen : b.frozen = true) (i : Instr) (t : State) : b.loopTest i t = t := by
  simp [State.loopTest, State.loopEnds, frozen]

theorem runVectorInstr_of_next {c : IntCtx} {i : Instr} {rest : List Word} {t : State} (may : (kindOf i).inVector = true)
    (settled : s.wordsTooSoon c.next i.len = false) :
    let b := (s.begin c.next).withCtx (some { c with words := rest })
    b.hazard i = none → exec i b = .next t → b.busDenied i t t = false → b.badResult t = none →
      runVectorInstr c i rest s = .next (b.after i c.next (fetches c.next i.len) t t).endVector := by
  intro b placed run bus good
  have same : b.loopTest i t = t := State.loopTest_of_frozen rfl i t
  have done := execThen_of_next (again := id) (k := fun t u => (b.after i c.next (fetches c.next i.len) t u).endVector)
    placed run (by rw [id, same]; exact bus) (by rw [id, same]; exact good)
  rw [id, same] at done
  simpa only [runVectorInstr, may, settled, Bool.true_eq_false, Bool.false_eq_true, if_false] using done

/-! ## The context after an instruction -/

/-- What each step of a fold keeps, the fold keeps. -/
theorem foldl_keeps {α β : Type} {f : State → α → State} {g : State → β} (one : ∀ t a, g (f t a) = g t) (l : List α)
    (s : State) : g (l.foldl f s) = g s := by
  induction l generalizing s with
  | nil => rfl
  | cons a l ih => exact (ih (f s a)).trans (one s a)

theorem State.promote_ctl : s.promote.ctl = s.ctl := by
  unfold State.promote
  split <;> rfl

theorem State.traceCount_ctl : s.traceCount.ctl = s.ctl := by
  unfold State.traceCount
  (repeat' split) <;> rfl

theorem State.watchAccess_ctl (a : Access) : (s.watchAccess a).ctl = s.ctl := by
  simp only [State.watchAccess]
  (repeat' split) <;> rfl

theorem State.watchAll_ctl (l : List Access) : (s.watchAll l).ctl = s.ctl := by
  unfold State.watchAll
  split
  · rfl
  · exact foldl_keeps (g := State.ctl) (fun _ a => State.watchAccess_ctl a) l s

theorem State.settleRequest_ctl : s.settleRequest.ctl = s.ctl := by
  unfold State.settleRequest
  split <;> rfl

/-- The debug observer sees an instruction and changes OnCE registers alone. -/
theorem State.observe_ctl (b : State) (i : Instr) (a : Word) (l : List Access) (t u : State) :
    (b.observe i a l t u).ctl = u.ctl := by
  simp only [State.observe, State.settleRequest_ctl, State.watchAll_ctl, State.traceCount_ctl]
  split <;> exact State.promote_ctl

theorem State.maskWindow_ctl (b : State) (i : Instr) (u : State) : (b.maskWindow i u).ctl = u.ctl := by
  unfold State.maskWindow
  (repeat' split) <;> rfl

theorem State.dropPdb_ctx (b : State) (i : Instr) (u : State) : (b.dropPdb i u).ctl.ctx = u.ctl.ctx := by
  unfold State.dropPdb
  split <;> rfl

theorem State.settleLatches_ctl : s.settleLatches.ctl = s.ctl := by
  unfold State.settleLatches
  split <;> rfl

theorem State.notePWrites_ctx (b : State) (i : Instr) (u : State) : (b.notePWrites i u).ctl.ctx = u.ctl.ctx :=
  foldl_keeps (g := fun v => v.ctl.ctx) (fun v (a : Access) => v.notePWrite_ctx a.addr) _ u

theorem State.remember_ctx (b : State) (i : Instr) (n : Nat) (u : State) : (b.remember i n u).ctl.ctx = u.ctl.ctx :=
  State.notePWrites_ctx b i _

/-- With no other master at work, what follows an instruction leaves the interrupt context alone. -/
theorem State.after_ctx {b : State} (dma : b.dmaActive = none) (env : b.env = []) (i : Instr) (a : Word) (l : List Access)
    (t u : State) : (b.after i a l t u).ctl.ctx = u.ctl.ctx := by
  rw [State.after, State.deferLast_of_alone dma env, State.remember_ctx, State.settleLatches_ctl, State.dropPdb_ctx,
    State.observe_ctl, State.maskWindow_ctl]

theorem SameWork.endVector (s : State) : SameWork s s.endVector := by
  unfold State.endVector
  (repeat' split) <;> exact .refl s

/-- The context is over where the instruction has ended it, and with the last of its words. -/
theorem State.endVector_ctx {c : IntCtx} (h : s.ctl.ctx = none ∨ s.ctl.ctx = some c) :
    s.endVector.ctl.ctx = if s.ctl.ctx = none ∨ c.words = [] then none else some c := by
  rcases h with h | h
  · simp [State.endVector, h]
  · by_cases last : c.words = [] <;> simp [State.endVector, h, last]

/-- The next vector word is the step: what follows its instruction touches no register, and ends the context with the last
word. -/
theorem step_vectorInstr {c : IntCtx} {i : Instr} {rest : List Word} {t : State} (core : CoreNext s) (rep : s.ctl.rep = none)
    (ctx : s.ctl.ctx = some c) (words : VectorInstr c.words i rest) (may : (kindOf i).inVector = true) :
    let b := (s.begin c.next).withCtx (some { c with words := rest })
    s.wordsTooSoon c.next i.len = false → b.hazard i = none → exec i b = .next t → b.busDenied i t t = false →
      b.badResult t = none →
      ∃ u, step s = .next u ∧ u.alu = t.alu ∧ u.agu = t.agu ∧ u.pcu = t.pcu ∧ u.mem = t.mem ∧
        (t.ctl.ctx ≠ none → kindOf i ≠ .loopStart true → u.pcu.pc = s.pcu.pc) ∧
        u.ctl.ctx = if t.ctl.ctx = none ∨ rest = [] then none else some { c with words := rest } := by
  intro b settled placed run bus good
  let v := b.after i c.next (fetches c.next i.len) t t
  have next : step s = .next v.endVector.tick := step_of_coreInstr core ((coreInstr_of_ctx rep ctx).trans
    ((runVector_of_vectorInstr words).trans (runVectorInstr_of_next may settled placed run bus good)))
  have same : SameWork t v := .after (b := b) core.dma core.env i c.next _ t t
  obtain ⟨alu, agu, mem, pcu, -⟩ := same.trans (.endVector v)
  have kept : v.ctl.ctx = t.ctl.ctx := State.after_ctx (b := b) core.dma core.env i c.next _ t t
  have result := exec_of_inVector (s := b) rfl may run
  refine ⟨_, next, alu, agu, pcu, mem, fun stays plain => ?_, ?_⟩
  · obtain left | ⟨-, pc⟩ := result
    · exact absurd left stays
    · exact (congrArg PcuRegs.pc pcu).trans (pc plain)
  · have context : v.ctl.ctx = none ∨ v.ctl.ctx = some { c with words := rest } := by
      rw [kept]
      exact result.imp_right And.left
    have ends := State.endVector_ctx context
    rw [kept] at ends
    exact ends

end Sys2Proof.Machine

open Sys2Proof Sys2Proof.Machine

/-- Settles O54: acceptance by its two fetches, a vector word by what an instruction may do in one. -/
theorem interrupts : Obligations.Interrupts := by
  refine ⟨?_, ?_, ?_, ?_⟩
  · intro s s1 s2 k w1 w2 core rep ctx chosen v first second
    have range := State.arbitrate_lt chosen
    rw [← State.vector_eq range] at first
    rw [← vector_succ _ range, ← State.vector_eq range] at second
    have accepted := accept_of_fetches first second
    obtain ⟨-, d, rfl⟩ := withCache_of_fetches first second
    rw [State.shared_of_alone core.dma core.env] at accepted
    have next := step_of_coreInstr core ((coreInstr_of_arbitrate rep ctx core.spilled chosen).trans accepted)
    refine ⟨_, next, by simp, by simp, by simp, by simp, ?_, fun j _ => ?_⟩
    · simp [v, State.vector_eq range]
    · exact State.clearAccepted_getLsbD k j
  · intro s s1 s2 k w1 w2 range a first second
    rw [show a = s.vector k from (State.vector_eq range).symm] at first second ⊢
    have accepted := accept_of_fetches first second
    obtain ⟨⟨c, rfl⟩, d, rfl⟩ := withCache_of_fetches first second
    cases apart : s.shared && s.freeBit .lateAccess 2
    · rw [apart] at accepted
      exact ⟨_, [w1, w2], accepted, rfl, by simp, .inl ⟨rfl, by simp, fun j _ => State.clearAccepted_getLsbD k j⟩⟩
    · rw [apart] at accepted
      exact ⟨_, [w1], accepted, rfl, rfl, .inr ⟨rfl, rfl, rfl⟩⟩
  · intro s s2 c a w env phase dma late ctx fetched
    have next := step_of_late env phase dma late
    have landed : (s.withLate []).land (.vector a) =
        (s2.clearAccepted c.src.toNat).withCtx (some { c with words := c.words.take 1 ++ [w] }) := by
      simp only [State.land, State.landVector, fetched, State.withLate_ctx, ctx]
    obtain ⟨d, rfl⟩ := withCache_of_fetch fetched
    rw [landed] at next
    exact ⟨_, next, by simp, by simp, by simp, by simp, by simp, rfl, fun j _ => State.clearAccepted_getLsbD _ j⟩
  · intro s t c rest i core rep ctx words may
    rw [← IntCtx.next_eq]
    exact step_vectorInstr core rep ctx words may

end

section
/-!
Moves between registers, of immediate data and of computed addresses (46_move R422 to R424, R434, R437, R438).
-/
namespace Sys2Proof.Machine

variable {s : State}

/-! ## A parallel move that writes one register -/

/-- The CCR that SR holds, written back. -/
theorem State.withCcr_of_sr {t : State} (h : t.pcu.sr = s.pcu.sr) : t.withCcr s.ccr = t := by
  have same : (s.pcu.sr &&& 0xFFFF00#24) ||| s.ccr.setWidth 24 = s.pcu.sr := by
    rw [high_or_byte, State.ccr]
    exact (BitVec.extractLsb'_append_extractLsb'_eq_extractLsb' rfl).trans (extract_all _)
  rw [State.withCcr, h, same]
  exact congrArg t.withSr h.symm

theorem State.commitAcc_nothing : s.commitAcc .nothing = s := by
  have kept : (s.acc .a &&& ~~~0#56) ||| (0#56 &&& 0#56) = s.acc .a := by
    rw [BitVec.and_zero, BitVec.or_zero]
    exact and_accAll _
  exact congrArg (s.withAcc .a) kept

theorem twiceWritten_nothing (p : Plan) : twiceWritten .nothing p = p.twice := by
  simp [twiceWritten, AluOut.nothing]

theorem CcrUpd.keep_apply (c : Byte) : CcrUpd.keep.apply c = c := by
  have mask : c &&& 0xFF#8 = c := BitVec.and_allOnes
  simp [CcrUpd.apply, CcrUpd.keep, mask]

/-- No Data ALU operation: the move's own writes, and what its reads leave in S and L. -/
theorem runMove_eq (m : PMove) : runMove m s =
    .next ((((((s.applyUpds (s.plan m).upds).applyRegs (s.plan m).regs).freeTwice (s.plan m).twice).withCcr
      (orSL (s.plan m).sTerm (s.plan m).lTerm s.ccr)).applyMems (s.plan m).mems).advance (moveLen m)) := by
  rw [runMove, runParallel, State.commit, State.commitAcc_nothing, twiceWritten_nothing, AluOut.nothing, CcrUpd.keep_apply]

theorem orSL_false (c : Byte) : orSL false false c = c := by simp [orSL, bitAt]

/-- SA is no bit of the CCR, so S and L may be set before a register write or after it. -/
theorem State.wrD_withCcr (c : Byte) (d : DReg) (w : Word) : (s.withCcr c).wrD d w = (s.wrD d w).withCcr c := by
  have sa : (s.withCcr c).sa = s.sa := s.srBit_withCcr c 17
  have sc : (s.withCcr c).sc = s.sc := s.srBit_withCcr c 13
  cases d with
  | r n | n n => simp only [State.wrD, sc]; rfl
  | alu r =>
    cases r <;> simp only [State.wrD, State.wrAlu, State.wrXY, sa]
    case x0 | x1 | y0 | y1 => split <;> rfl
    all_goals rfl

theorem exec_moveImm (i : BitVec 8) (d : DReg) :
    exec (.moveImm i d) s = .next ((s.wrD d (shortImm s.sa i d)).advance 1) := by
  show runMove (.imm i d) s = _
  rw [runMove_eq]
  show Host.Outcome.next (((s.wrD d (shortImm s.sa i d)).withCcr (orSL false false s.ccr)).advance 1) = _
  rw [orSL_false, State.withCcr_of_sr (by simp)]

theorem exec_moveReg (r d : DReg) :
    exec (.moveReg r d) s = .next (((s.mergeSL (s.rdD r)).wrD d (s.rdD r).w).advance 1) := by
  show runMove (.reg r d) s = _
  rw [runMove_eq, State.mergeSL, State.wrD_withCcr]
  rfl

theorem exec_moveUpd (u : UpdMode) (n : Fin 8) :
    exec (.moveUpd u n) s = .next ((s.setR n (s.updMode .updX u n)).advance 1) := by
  show runMove (.upd u n) s = _
  rw [runMove_eq]
  show Host.Outcome.next (((s.setR n (s.updMode .updX u n)).withCcr (orSL false false s.ccr)).advance 1) = _
  rw [orSL_false, State.withCcr_of_sr (by simp)]

theorem exec_moveNone : exec .moveNone s = .next (s.advance 1) := by
  show runMove .none s = _
  rw [runMove_eq]
  show Host.Outcome.next ((s.withCcr (orSL false false s.ccr)).advance 1) = _
  rw [orSL_false, State.withCcr_of_sr rfl]

/-! ## The number that immediate data leaves -/

theorem toNat_append_zero {m : Nat} (i : BitVec m) (n : Nat) : (i ++ 0#n).toNat = i.toNat * 2 ^ n := by
  simp [BitVec.toNat_append, Nat.shiftLeft_eq]

/-- An input register or a full accumulator takes the immediate as a fraction: in its eight most significant bits. -/
theorem taken_fraction (sa : Bool) (i : BitVec 8) :
    taken sa (if sa then (i ++ 0#8 : BitVec 16).setWidth 24 else i ++ 0#16) = i ++ 0#16 := by
  cases sa
  · rfl
  · apply BitVec.eq_of_toNat_eq
    have byte := i.isLt
    have half := toNat_append_zero i 8
    have word := toNat_append_zero i 16
    simp only [taken, if_true, BitVec.toNat_shiftLeft, BitVec.toNat_setWidth, Nat.shiftLeft_eq]
    omega

theorem taken_integer (sa : Bool) (i : BitVec 8) :
    (taken sa (i.setWidth 24)).toNat = if sa then i.toNat * 2 ^ 8 else i.toNat := by
  have byte := i.isLt
  cases sa <;> simp [taken, Nat.shiftLeft_eq] <;> omega

/-- A word in a wider register is no negative number. -/
theorem toInt_setWidth_word (w : Word) : (w.setWidth 56).toInt = w.toNat := by
  rw [BitVec.toInt_eq_toNat_of_lt] <;> simp <;> omega

theorem setWidth_byte_and {m : Word} (h : 0x0000FF#24 &&& m = 0x0000FF#24) (i : BitVec 8) :
    i.setWidth 24 &&& m = i.setWidth 24 := by
  have low : i.setWidth 24 &&& 0x0000FF#24 = i.setWidth 24 := by
    apply BitVec.eq_of_toNat_eq
    have byte := i.isLt
    simp only [BitVec.toNat_and, BitVec.toNat_setWidth, BitVec.toNat_ofNat]
    rw [show 255 % 2 ^ 24 = 2 ^ 8 - 1 from rfl, Nat.and_two_pow_sub_one_eq_mod]
    omega
  rw [← low, BitVec.and_assoc, h]

/-- What a full accumulator takes. -/
theorem landed_fraction_acc (i : BitVec 8) (d : Acc) :
    (landed s (.alu (accReg d)) (shortImm s.sa i (.alu (accReg d)))).toInt = i.toInt * 2 ^ 40 := by
  have word : landed s (.alu (accReg d)) (shortImm s.sa i (.alu (accReg d))) =
      (i ++ 0#16 ++ 0#24 : BitVec 48).signExtend 56 := by
    rw [← taken_fraction s.sa i]
    cases d <;> rfl
  rw [word, BitVec.toInt_signExtend_of_le (by omega), BitVec.toInt_append_zero, BitVec.toInt_append_zero]
  omega

theorem landed_fraction (i : BitVec 8) {r : AluReg} (h : r = .x0 ∨ r = .x1 ∨ r = .y0 ∨ r = .y1) :
    (landed s (.alu r) (shortImm s.sa i (.alu r))).toInt = i.toNat * 2 ^ 16 := by
  have word : landed s (.alu r) (shortImm s.sa i (.alu r)) = (i ++ 0#16 : Word).setWidth 56 := by
    rw [← taken_fraction s.sa i]
    rcases h with rfl | rfl | rfl | rfl <;> rfl
  rw [word, toInt_setWidth_word]
  exact (congrArg Nat.cast (toNat_append_zero i 16)).trans (Nat.cast_mul _ _)

theorem landed_integer (i : BitVec 8) {r : AluReg} (h : r = .a0 ∨ r = .b0 ∨ r = .a1 ∨ r = .b1) :
    (landed s (.alu r) (shortImm s.sa i (.alu r))).toInt = if s.sa then (i.toNat * 2 ^ 8 : Int) else i.toNat := by
  have word : landed s (.alu r) (shortImm s.sa i (.alu r)) = (taken s.sa (i.setWidth 24)).setWidth 56 := by
    rcases h with rfl | rfl | rfl | rfl <;> rfl
  rw [word, toInt_setWidth_word, taken_integer]
  split <;> simp

/-- The bits of the immediate that an extension or an address register takes are all of them. -/
theorem landed_masked (i : BitVec 8) {d : DReg} {m : Word} (h : 0x0000FF#24 &&& m = 0x0000FF#24)
    (word : landed s d (shortImm s.sa i d) = (i.setWidth 24 &&& m).setWidth 56) :
    (landed s d (shortImm s.sa i d)).toInt = i.toNat := by
  rw [word, setWidth_byte_and h, toInt_setWidth_word]
  have byte := i.isLt
  simp
  omega

theorem compatible_eq_and (sc : Bool) (w : Word) :
    (if sc then w &&& 0x00FFFF#24 else w) = w &&& (if sc then 0x00FFFF#24 else 0xFFFFFF#24) := by
  cases sc
  · exact (BitVec.and_allOnes (x := w)).symm
  · rfl

theorem landed_agu (i : BitVec 8) {d : DReg} (h : (∃ n, d = .r n) ∨ ∃ n, d = .n n) :
    (landed s d (shortImm s.sa i d)).toInt = i.toNat := by
  refine landed_masked (m := if s.sc then 0x00FFFF#24 else 0xFFFFFF#24) i (by split <;> rfl) ?_
  rw [← compatible_eq_and]
  rcases h with ⟨n, rfl⟩ | ⟨n, rfl⟩ <;> rfl

end Sys2Proof.Machine

open Sys2Proof Sys2Proof.Machine

/-- Settles O36: a parallel move by what is left of its end without an operation, and every other move by its meaning. -/
theorem register_moves : Obligations.Register_moves := by
  intro s
  refine ⟨fun i d => ⟨_, exec_moveImm i d, ?_⟩, exec_moveReg, exec_moveUpd, exec_moveNone, fun _ _ => rfl, fun _ _ => rfl,
    fun _ _ => rfl, fun _ _ _ => rfl, fun _ _ _ => rfl, fun _ _ _ => rfl, fun n d => ?_, fun d a => ?_⟩
  · match d with
    | .alu .a => exact landed_fraction_acc i .a
    | .alu .b => exact landed_fraction_acc i .b
    | .alu .x0 | .alu .x1 | .alu .y0 | .alu .y1 => exact landed_fraction i (by simp)
    | .alu .a0 | .alu .b0 | .alu .a1 | .alu .b1 => exact landed_integer i (by simp)
    | .alu .a2 | .alu .b2 => exact landed_masked (m := 0x0000FF#24) i rfl rfl
    | .r n => exact landed_agu i (.inl ⟨n, rfl⟩)
    | .n n => exact landed_agu i (.inr ⟨n, rfl⟩)
  · rw [wordAddress_eq]
    rfl
  · rw [wordAddress_eq]
    rfl

end

section
/-!
What one executed instruction shows the OnCE module (61_debug R635, R636, R642).
-/
namespace Sys2Proof.Machine

variable {s : State}

/-! ## An instruction of the program, from its fetch to its end -/

theorem FetchesInstr.withCache {i : Instr} {s1 : State} (h : FetchesInstr s i s1) : ∃ c, s1 = s.withCache c := by
  obtain ⟨w, s0, first, ⟨-, -, rfl⟩ | ⟨-, -, x, second, -⟩⟩ := h
  · exact withCache_of_fetch first
  · obtain ⟨c, rfl⟩ := withCache_of_fetch first
    obtain ⟨d, rfl⟩ := withCache_of_fetch second
    exact ⟨d, rfl⟩

theorem FetchesInstr.len {i : Instr} {s1 : State} (h : FetchesInstr s i s1) : i.len = 1 ∨ i.len = 2 := by
  obtain ⟨w, s0, -, ⟨-, one, -⟩ | ⟨two, -⟩⟩ := h
  · exact .inl one
  · exact .inr two

theorem FetchesInstr.fetchInstr {i : Instr} {s1 : State} (h : FetchesInstr s i s1) (pdb : s.ctl.pdb = []) :
    ∃ w, s.fetchInstr = some ⟨i, w, s1⟩ := by
  obtain ⟨w, s0, first, ⟨read, one, rfl⟩ | ⟨two, ⟨j, reads, long⟩, x, second, read⟩⟩ := h
  · have instr : orIllegal (decode w 0) = i := by rw [read]; rfl
    refine ⟨w, ?_⟩
    simp only [State.fetchInstr, State.fetchWord_of_empty pdb, first, instr, one, if_true]
  · have short : (orIllegal (decode w 0)).len ≠ 1 := by
      rw [reads]
      simp [orIllegal, long]
    have instr : orIllegal (decode w x) = i := by rw [read]; rfl
    obtain ⟨c, rfl⟩ := withCache_of_fetch first
    refine ⟨w, ?_⟩
    simp only [State.fetchInstr, State.fetchWord_of_empty pdb, first, short, if_false,
      State.fetchWord_of_empty (s := s.withCache c) pdb, second, instr]

/-- The step that executes an instruction of the program. -/
theorem step_of_runs {i : Instr} {s1 t : State} (h : Runs s i s1 t) : let b := s1.begin s.pcu.pc
    step s = .next (b.after i s.pcu.pc (fetches s.pcu.pc i.len) t (b.loopTest i t)).tick := by
  obtain ⟨⟨core, rep, ctx, irq, pdb⟩, fetched, settled, placed, result, bus, good⟩ := h
  obtain ⟨w, read⟩ := fetched.fetchInstr pdb
  obtain ⟨c, rfl⟩ := fetched.withCache
  have run : runInstr i (s.withCache c) = .next _ :=
    execThen_of_next (again := id) (k := ((s.withCache c).begin s.pcu.pc).after i s.pcu.pc (fetches s.pcu.pc i.len))
      placed result bus good
  refine step_of_coreInstr core ?_
  simp only [coreInstr, rep, ctx, core.spilled, irq, Bool.false_eq_true, if_false, runNext, read, settled]
  exact run

/-! ## What an instruction writes of the OnCE registers -/

/-- The OnCE registers but OGDBR, the one that a program can write (61_debug R632), are the same. -/
def SameOnce (s t : State) : Prop := t.once = { s.once with ogdbr := t.once.ogdbr }

theorem SameOnce.of_eq {t : State} (h : t.once = s.once) : SameOnce s t := by rw [SameOnce, h]

/-- Any other OnCE register. -/
theorem SameOnce.field {t : State} (h : SameOnce s t) {α : Type} (f : Once → α) (other : ∀ o w, f { o with ogdbr := w } = f o) :
    f t.once = f s.once := (congrArg f h).trans (other s.once t.once.ogdbr)

theorem SameOnce.trans {t u : State} (h : SameOnce s t) (k : SameOnce t u) : SameOnce s u := by
  rw [SameOnce] at k ⊢
  rw [k, h]

theorem SameOnce.writeCoreReg (s : State) (k : Nat) (v : Word) : SameOnce s (s.writeCoreReg k v) := by
  by_cases ogdbr : k = 0x7C
  · subst ogdbr
    exact rfl
  · refine .of_eq ?_
    simp only [State.writeCoreReg, if_neg ogdbr]
    (repeat' split) <;> simp

theorem SameOnce.writeData (s : State) (sp : Space) (a w : Word) : SameOnce s (s.writeData sp a w) := by
  unfold State.writeData
  split
  · split
    · exact .writeCoreReg s _ w
    · exact .of_eq rfl
  · refine .of_eq ?_
    (repeat' split) <;> simp

theorem SameOnce.applyMems (s : State) (l : List (Space × Word × Word)) : SameOnce s (s.applyMems l) := by
  unfold State.applyMems
  induction l generalizing s with
  | nil => exact .of_eq rfl
  | cons p l ih => exact (SameOnce.writeData s p.1 p.2.1 p.2.2).trans (ih _)

theorem SameOnce.commit (s : State) (o : AluOut) (p : Plan) : SameOnce s (s.commit o p) :=
  SameOnce.trans (.of_eq (by simp)) (.applyMems _ p.mems)

theorem SameOnce.spill (s : State) : SameOnce s s.spill :=
  SameOnce.trans (s := s) (.trans (.of_eq rfl) (.writeData (s.withOmr (s.pcu.omr ||| 0x080000#24)) s.xys s.agu.ep _))
    (.trans (.writeData _ _ _ _) (.of_eq rfl))

theorem SameOnce.push (s : State) (h l : Word) : SameOnce s (s.push h l) := by
  simp only [State.push, State.afterPush]
  split
  · exact SameOnce.trans (.of_eq (by simp)) (.spill _)
  · exact .of_eq (by simp)

theorem SameOnce.call (s : State) (n : Nat) (a : Word) : SameOnce s (s.call n a) := by
  unfold State.call
  split
  · exact (SameOnce.push s (s.nextPc n) s.pcu.sr).trans (.of_eq (by simp))
  · exact (SameOnce.push s s.pcu.pc s.pcu.sr).trans (.of_eq (by simp [State.longEntry]))

theorem runTcc_once {c : Cond} {o : State → AluOut} {r : Option (Fin 8 × Fin 8)} {t : State}
    (e : runTcc c o r s = .next t) : t.once = s.once := by
  cases e
  split
  · cases r <;> simp
  · rfl

/-- An instruction of the Data ALU, a transfer, a parallel move, LUA or LRA changes OGDBR at most. -/
theorem exec_sameOnce {i : Instr} {l : List Reg} {t : State} (h : dests i = some l) (e : exec i s = .next t) : SameOnce s t := by
  cases out : outOf s i with
  | some o =>
    rw [exec_outOf s i o out] at e
    cases e
    exact (SameOnce.commit s o (s.plan (parallelPart i))).trans (.of_eq (by simp))
  | none =>
    cases i <;> simp only [outOf, reduceCtorEq] at out <;> simp only [dests, reduceCtorEq] at h
    case norm | luaEa | luaDisp | lraReg | lraLong =>
      cases e
      exact .of_eq (by simp)
    case tccD c s1 d => exact .of_eq (runTcc_once (c := c) (o := tccSrc s1 d) (r := none) e)
    case tccDR c s1 d t u => exact .of_eq (runTcc_once (c := c) (o := tccSrc s1 d) (r := some (t, u)) e)
    case tccR c t u => exact .of_eq (runTcc_once (c := c) (o := fun _ => .nothing) (r := some (t, u)) e)

/-! ## Jumps and calls -/

theorem exec_of_jumpOf {i : Instr} {F : Flow} (h : jumpOf s i = some F) : exec i s = .next (if F.taken
    then (s.applyUpd F.upd).jump F.target else (s.applyUpd F.upd).advance i.len) := by
  cases i <;> simp only [jumpOf, Option.some.injEq, reduceCtorEq] at h <;> subst h <;> rfl

theorem exec_of_callOf {i : Instr} {F : Flow} (h : callOf s i = some F) : exec i s = .next (if F.taken
    then (s.applyUpd F.upd).call i.len F.target else (s.applyUpd F.upd).advance i.len) := by
  cases i <;> simp only [callOf, Option.some.injEq, reduceCtorEq] at h <;> subst h <;> rfl

theorem State.call_pc (n : Nat) (a : Word) : (s.call n a).pcu.pc = a := by
  unfold State.call
  split <;> rfl

/-- A jump or call, taken or not, leaves the OnCE registers and the processing state alone; taken, it ends at its target. -/
theorem exec_flow {i : Instr} {F : Flow} {t : State} (h : jumpOf s i = some F ∨ callOf s i = some F) (e : exec i s = .next t) :
    SameOnce s t ∧ t.ctl.phase = s.ctl.phase ∧ (F.taken = true → t.pcu.pc = F.target) := by
  rcases h with jump | call
  · rw [exec_of_jumpOf jump] at e
    cases e
    refine ⟨.of_eq ?_, ?_, fun taken => by rw [if_pos taken]; rfl⟩ <;> split <;> simp
  · rw [exec_of_callOf call] at e
    cases e
    refine ⟨?_, by split <;> simp, fun taken => by rw [if_pos taken, State.call_pc]⟩
    split
    · exact SameOnce.trans (.of_eq (by simp)) (.call _ _ _)
    · exact .of_eq (by simp)

theorem changesFlow_of_flow {i : Instr} {F : Flow} (h : jumpOf s i = some F ∨ callOf s i = some F) :
    s.changesFlow i = F.taken := h.elim changesFlow_of_jumpOf changesFlow_of_callOf

theorem isTraced_of_flow {i : Instr} {F : Flow} (h : jumpOf s i = some F ∨ callOf s i = some F) : isTraced i = true := by
  rcases h with h | h
  · cases i <;> simp only [jumpOf, reduceCtorEq] at h <;> rfl
  · cases i <;> simp only [callOf, reduceCtorEq] at h <;> rfl

theorem isTraced_of_dests {i : Instr} {l : List Reg} (h : dests i = some l) : isTraced i = false := by
  cases i <;> simp only [dests, reduceCtorEq] at h <;> rfl

/-! ## What follows an instruction -/

theorem State.loopTest_ctl_once (b : State) (i : Instr) (t : State) :
    (b.loopTest i t).ctl = t.ctl ∧ (b.loopTest i t).once = t.once := by
  unfold State.loopTest
  split <;> simp

theorem State.maskWindow_once (b : State) (i : Instr) (u : State) : (b.maskWindow i u).once = u.once := by
  unfold State.maskWindow
  (repeat' split) <;> rfl

theorem State.notePWrites_once (b : State) (i : Instr) (u : State) : (b.notePWrites i u).once = u.once :=
  foldl_keeps (g := State.once) (fun v (a : Access) => v.notePWrite_once a.addr) _ u

theorem State.dropPdb_once (b : State) (i : Instr) (u : State) : (b.dropPdb i u).once = u.once := by
  unfold State.dropPdb
  split <;> rfl

theorem State.dropPdb_phase (b : State) (i : Instr) (u : State) : (b.dropPdb i u).ctl.phase = u.ctl.phase := by
  unfold State.dropPdb
  split <;> rfl

theorem State.settleLatches_of_running (h : s.ctl.phase ≠ .debug) : s.settleLatches = s := if_neg h

theorem State.settleRequest_of_running (h : s.ctl.phase ≠ .debug) : s.settleRequest = s := if_neg h

/-- With no other master at work, and outside Debug mode, what follows an instruction changes the OnCE registers by what they see
of it alone. -/
theorem State.after_once {b u : State} (dma : b.dmaActive = none) (env : b.env = []) (running : u.ctl.phase ≠ .debug) (i : Instr)
    (a : Word) (l : List Access) (t : State) :
    (b.after i a l t u).once = (b.observe i a l t (b.maskWindow i u)).once := by
  have phase : (b.dropPdb i (b.observe i a l t (b.maskWindow i u))).ctl.phase = u.ctl.phase := by
    rw [State.dropPdb_phase, State.observe_ctl, State.maskWindow_ctl]
  rw [State.after, State.deferLast_of_alone dma env, State.settleLatches_of_running (phase ▸ running), State.remember,
    State.notePWrites_once]
  exact State.dropPdb_once _ _ _

/-! ## The trace buffer -/

/-- The trace buffer and the address of the last instruction are the same. -/
def SameTrace (s t : State) : Prop := t.once.trace = s.once.trace ∧ t.once.lastPc = s.once.lastPc

theorem SameTrace.trans {t u : State} (h : SameTrace s t) (k : SameTrace t u) : SameTrace s u :=
  ⟨k.1.trans h.1, k.2.trans h.2⟩

theorem SameOnce.sameTrace {t : State} (h : SameOnce s t) : SameTrace s t :=
  ⟨h.field Once.trace fun _ _ => rfl, h.field Once.lastPc fun _ _ => rfl⟩

theorem SameTrace.promote (s : State) : SameTrace s s.promote := by
  unfold State.promote
  split <;> exact ⟨rfl, rfl⟩

theorem SameTrace.traceCount (s : State) : SameTrace s s.traceCount := by
  unfold State.traceCount
  (repeat' split) <;> exact ⟨rfl, rfl⟩

theorem SameTrace.watchAccess (s : State) (a : Access) : SameTrace s (s.watchAccess a) := by
  simp only [State.watchAccess]
  (repeat' split) <;> exact ⟨rfl, rfl⟩

theorem SameTrace.watchAll (s : State) (l : List Access) : SameTrace s (s.watchAll l) := by
  unfold State.watchAll
  split
  · exact ⟨rfl, rfl⟩
  · exact ⟨foldl_keeps (g := fun t => t.once.trace) (fun t a => (SameTrace.watchAccess t a).1) l s,
      foldl_keeps (g := fun t => t.once.lastPc) (fun t a => (SameTrace.watchAccess t a).2) l s⟩

theorem SameTrace.settleRequest (s : State) : SameTrace s s.settleRequest := by
  unfold State.settleRequest
  split <;> exact ⟨rfl, rfl⟩

/-- What the trace buffer takes of an instruction: a change of flow, and nothing of another. -/
theorem State.observe_trace (b : State) (i : Instr) (a : Word) (l : List Access) (t v : State) :
    SameTrace (if isTraced i then v.promote.traceFlow a (b.changesFlow i) else v.promote) (b.observe i a l t v) :=
  ((SameTrace.traceCount _).trans (.watchAll _ _)).trans (.settleRequest _)

end Sys2Proof.Machine
end

section
/-!
The trace counter, a breakpoint on an instruction fetch and the trace buffer, after one executed instruction (61_debug R635, R636,
R642).
-/
namespace Sys2Proof.Machine

variable {s : State}

/-! ## The trace counter -/

/-- One step of an enabled trace counter: it asks for Debug mode, or counts down. -/
def TraceCounted (s u : State) : Prop :=
  if s.once.otc = 0 then u.once.request = true ∧ u.once.asked.getLsbD 2 = true
  else u.once.request = s.once.request ∧ u.once.otc = s.once.otc - 1

theorem State.traceCount_of_on (on : s.once.oscr.getLsbD 0 = true) : TraceCounted s s.traceCount := by
  rw [TraceCounted, State.traceCount, if_pos on]
  by_cases zero : s.once.otc = 0
  · rw [if_pos zero, if_pos zero]
    exact ⟨rfl, by simp [State.requestDebug]⟩
  · rw [if_neg zero, if_neg zero]
    exact ⟨rfl, rfl⟩

theorem State.traceCount_of_off (off : s.once.oscr.getLsbD 0 = false) : s.traceCount = s :=
  if_neg (by rw [off]; exact Bool.false_ne_true)

theorem State.traceCount_obcr : s.traceCount.once.obcr = s.once.obcr := by
  unfold State.traceCount
  (repeat' split) <;> rfl

/-! ## A breakpoint on the fetch of an instruction -/

/-- Breakpoint 0 alone watches for reads of program memory at OMLR0 (61_debug R634). -/
def FetchBreak (s : State) : Prop := s.once.obcr = 0x000419#24

theorem FetchBreak.bpEvent (on : FetchBreak s) (x : Access) :
    s.bp0 x = (x.space == .p && !x.isWrite && x.addr == s.once.omlr0) ∧ s.bp1 x = false ∧ s.bpEvent x = s.bp0 x := by
  have h : s.once.obcr = 0x000419#24 := on
  obtain ⟨space, addr, isWrite, isFetch⟩ := x
  have first : s.bp0 ⟨space, addr, isWrite, isFetch⟩ = (space == .p && !isWrite && addr == s.once.omlr0) := by
    simp only [State.bp0, h]
    cases space <;> rfl
  have second : s.bp1 ⟨space, addr, isWrite, isFetch⟩ = false := by
    simp only [State.bp1, h]
    cases space <;> rfl
  refine ⟨first, second, ?_⟩
  simp only [State.bpEvent, h, second]
  exact Bool.or_false _

/-- All the OnCE registers but OMAL are the same. -/
def SameButOmal (s t : State) : Prop := ∃ a, t.once = { s.once with omal := a }

theorem FetchBreak.watchAccess_of_missed (h : FetchBreak s) {x : Access} (missed : x.space = .p → x.addr ≠ s.once.omlr0) :
    SameButOmal s (s.watchAccess x) := by
  obtain ⟨first, second, event⟩ := h.bpEvent x
  have none : s.bp0 x = false := by
    rw [first]
    by_cases program : x.space = .p
    · simp [missed program]
    · simp [program]
  unfold State.watchAccess
  split
  · simp only [event, none, second, Bool.or_false, Bool.false_eq_true, if_false]
    exact ⟨x.addr, rfl⟩
  · exact ⟨s.once.omal, rfl⟩

theorem FetchBreak.foldl_of_missed (h : FetchBreak s) {l : List Access} (missed : ∀ x ∈ l, x.space = .p → x.addr ≠ s.once.omlr0) :
    SameButOmal s (l.foldl State.watchAccess s) := by
  induction l generalizing s with
  | nil => exact ⟨s.once.omal, rfl⟩
  | cons x l ih =>
    obtain ⟨a, same⟩ := h.watchAccess_of_missed (missed x List.mem_cons_self)
    obtain ⟨c, rest⟩ := ih (s := s.watchAccess x) ((congrArg Once.obcr same).trans h) fun y mem program => by
      rw [same]
      exact missed y (List.mem_cons_of_mem x mem) program
    exact ⟨c, rest.trans (by rw [same])⟩

/-- A breakpoint seen: it asks for Debug mode, or counts down. -/
def BreakCounted (s u : State) : Prop := u.once.seen0 = true ∧
  if s.once.ombc = 0 then u.once.request = true ∧ u.once.asked.getLsbD 1 = true
  else u.once.request = s.once.request ∧ u.once.ombc = s.once.ombc - 1

theorem FetchBreak.watchAccess_of_hit (h : FetchBreak s) : let u := s.watchAccess ⟨.p, s.once.omlr0, false, true⟩
    FetchBreak u ∧ u.once.omlr0 = s.once.omlr0 ∧ BreakCounted s u := by
  obtain ⟨first, second, event⟩ := h.bpEvent ⟨.p, s.once.omlr0, false, true⟩
  have watched : s.once.obcr.extractLsb' 0 2 = watchCode .p := congrArg (fun w => w.extractLsb' 0 2) h
  have hit : s.bp0 ⟨.p, s.once.omlr0, false, true⟩ = true := by simp [first]
  have seen : (s.once.seen0 || s.bp0 ⟨.p, s.once.omlr0, false, true⟩) = true := by rw [hit, Bool.or_true]
  simp only [State.watchAccess, BreakCounted]
  rw [if_pos watched, event, if_pos hit]
  by_cases zero : s.once.ombc = 0
  · rw [if_pos zero, if_pos zero]
    exact ⟨h, rfl, seen, rfl, by simp [State.requestDebug]⟩
  · rw [if_neg zero, if_neg zero]
    exact ⟨h, rfl, seen, rfl, rfl⟩

/-- The fetch at OMLR0 comes first, and no other access hits the breakpoint. -/
theorem FetchBreak.watchAll_of_first (h : FetchBreak s) {l : List Access}
    (missed : ∀ x ∈ l, x.space = .p → x.addr ≠ s.once.omlr0) :
    BreakCounted s (s.watchAll (⟨.p, s.once.omlr0, false, true⟩ :: l)) := by
  obtain ⟨still, omlr0, counted⟩ := h.watchAccess_of_hit
  obtain ⟨a, same⟩ := still.foldl_of_missed (l := l) (by rw [omlr0]; exact missed)
  have on : s.once.obcr.extractLsb' 0 2 = 1#2 := congrArg (fun w => w.extractLsb' 0 2) h
  rw [State.watchAll, if_neg (by rw [on]; decide), List.foldl_cons]
  simp only [BreakCounted, same]
  exact counted

/-! ## The accesses of an instruction -/

theorem watchOf_ne_program (sp : Space) : watchOf sp ≠ .p := by cases sp <;> decide

theorem State.moveAccesses_data (m : PMove) : ∀ x ∈ s.moveAccesses m, x.space ≠ .p := by
  have one (sp : Space) (w : Dir) (a : Word) : ∀ x ∈ touches sp w a, x.space ≠ .p := fun x mem => by
    rw [List.mem_singleton.1 mem]
    exact watchOf_ne_program sp
  have ea (sp : Space) (w : Dir) (e : Ea) : ∀ x ∈ s.eaAccess sp w e, x.space ≠ .p := by
    unfold State.eaAccess
    split
    · simp
    · exact one sp w _
  have both {l r : List Access} (hl : ∀ x ∈ l, x.space ≠ .p) (hr : ∀ x ∈ r, x.space ≠ .p) : ∀ x ∈ l ++ r, x.space ≠ .p :=
    fun x mem => (List.mem_append.1 mem).elim (hl x) (hr x)
  cases m with
  | none | imm | reg | upd => simp [State.moveAccesses]
  | xEa | yEa | xr1 | xr2 | ry1 | ry2 => exact ea _ _ _
  | xAa | yAa => exact one _ _ _
  | lEa l w e => exact both (ea .x w e) (ea .y w e)
  | lAa l w a => exact both (one .x w _) (one .y w _)
  | xy => exact both (one _ _ _) (one _ _ _)

theorem State.accesses_of_dests {i : Instr} {l : List Reg} (h : dests i = some l) :
    s.accesses i = s.moveAccesses (parallelPart i) := by
  cases i <;> simp only [dests, reduceCtorEq] at h <;> rfl

theorem State.stackMoves_data (t : State) : ∀ x ∈ s.stackMoves t, x.space ≠ .p := by
  have data : ∀ x ∈ s.stackMoves t, x.space = watchOf s.xys := by
    simp only [State.stackMoves]
    (repeat' split) <;> simp
  exact fun x mem => data x mem ▸ watchOf_ne_program _

theorem mem_inOrder {α : Type} {i : Instr} {own st : List α} {x : α} (h : x ∈ inOrder i own st) : x ∈ own ∨ x ∈ st := by
  unfold inOrder at h
  split at h
  · exact (List.mem_append.1 h).symm
  · split at h
    · rcases List.mem_append.1 h with h | h
      · exact (List.mem_append.1 h).symm.imp_right List.mem_of_mem_take
      · exact .inr (List.mem_of_mem_drop h)
    · exact List.mem_append.1 h

/-- An instruction of the Data ALU, a transfer, a parallel move, LUA or LRA makes no access to program memory, and neither does
the end of a loop. -/
theorem State.allAccesses_data {i : Instr} {l : List Reg} (h : dests i = some l) (t u : State) :
    ∀ x ∈ s.allAccesses i t u, x.space ≠ .p := by
  intro x mem
  rcases List.mem_append.1 mem with own | stack
  · rcases mem_inOrder own with own | stack
    · rw [State.accesses_of_dests h] at own
      exact State.moveAccesses_data _ x own
    · rcases List.mem_append.1 stack with stack | stack
      · rcases List.mem_append.1 stack with before | stack
        · split at before
          · simp only [List.mem_cons, List.not_mem_nil, or_false] at before
            rcases before with rfl | rfl <;> exact watchOf_ne_program _
          · exact absurd before List.not_mem_nil
        · exact State.stackMoves_data _ x stack
      · exact State.stackMoves_data _ x stack
  · exact State.stackMoves_data _ x stack

theorem fetches_succ (a : Word) (n : Nat) : fetches a (n + 1) =
    ⟨.p, a, false, true⟩ :: (List.range n).map fun k => ⟨.p, a + BitVec.ofNat 24 (k + 1), false, true⟩ := by
  rw [fetches, List.range_succ_eq_map, List.map_cons, List.map_map]
  congr 2
  exact BitVec.add_zero a

/-- The fetch at `a` comes first, and no other of an instruction of at most two words is there. -/
theorem fetches_eq_cons {a : Word} {len : Nat} (h : len = 1 ∨ len = 2) : ∃ l, fetches a len = ⟨.p, a, false, true⟩ :: l ∧
    ∀ x ∈ l, x.addr ≠ a := by
  rcases h with rfl | rfl
  · exact ⟨_, fetches_succ a 0, by simp⟩
  · refine ⟨_, fetches_succ a 1, fun x mem => ?_⟩
    simp only [List.mem_map, List.mem_range] at mem
    obtain ⟨k, lt, rfl⟩ := mem
    obtain rfl : k = 0 := by omega
    show a + 1#24 ≠ a
    bv_omega

/-! ## The step -/

theorem State.promote_of_not_later (h : s.once.later = false) : s.promote = s := if_neg (by rw [h]; exact Bool.false_ne_true)

/-- An instruction that is no change of flow, with no breakpoint left from the one before it. -/
theorem State.observe_of_untraced {v : State} {i : Instr} (untraced : isTraced i = false) (later : v.once.later = false)
    (running : v.ctl.phase ≠ .debug) (b : State) (a : Word) (l : List Access) (t : State) :
    b.observe i a l t v = v.traceCount.watchAll (l ++ b.allAccesses i t v) := by
  have phase : (v.traceCount.watchAll (l ++ b.allAccesses i t v)).ctl.phase ≠ .debug := by
    rw [State.watchAll_ctl, State.traceCount_ctl]
    exact running
  rw [State.observe, untraced, if_neg Bool.false_ne_true, State.promote_of_not_later later, State.settleRequest_of_running phase]

/-- What a step leaves in the OnCE registers: `v` as the instruction has left them, the step of the trace counter, and the
fetches and the data accesses `rest` watched. -/
theorem step_once_of_dests {i : Instr} {s1 t : State} {l : List Reg} (h : Runs s i s1 t) (d : dests i = some l)
    (later : s.once.later = false) : ∃ (u v : State) (rest : List Access), step s = .next u ∧
      SameOnce (s.begin s.pcu.pc) v ∧ (∀ x ∈ rest, x.space ≠ .p) ∧
      u.once = (v.traceCount.watchAll (fetches s.pcu.pc i.len ++ rest)).once := by
  have next := step_of_runs h
  obtain ⟨⟨core, -, -, -, -⟩, fetched, -, -, result, -, -⟩ := h
  obtain ⟨c, rfl⟩ := fetched.withCache
  let b := (s.withCache c).begin s.pcu.pc
  let v := b.maskWindow i (b.loopTest i t)
  obtain ⟨ctl, once⟩ := State.loopTest_ctl_once b i t
  obtain ⟨-, -, -, phase, -⟩ := exec_sameLoop d result
  have normal : (b.loopTest i t).ctl.phase = .normal := by
    rw [ctl, phase]
    exact core.phase
  have running : (b.loopTest i t).ctl.phase ≠ .debug := by
    rw [normal]
    exact Phase.noConfusion
  have begun : SameOnce (s.begin s.pcu.pc) b := .of_eq rfl
  have same : SameOnce (s.begin s.pcu.pc) v :=
    (begun.trans (exec_sameOnce d result)).trans (.of_eq ((State.maskWindow_once b i _).trans once))
  refine ⟨_, v, b.allAccesses i t v, next, same, State.allAccesses_data d t v, ?_⟩
  have after := State.after_once (b := b) core.dma core.env running i s.pcu.pc (fetches s.pcu.pc i.len) t
  have seen := State.observe_of_untraced (v := v) (isTraced_of_dests d)
    ((same.field Once.later fun _ _ => rfl).trans later) (by rw [State.maskWindow_ctl]; exact running) b s.pcu.pc
    (fetches s.pcu.pc i.len) t
  rw [State.tick_once]
  exact after.trans (congrArg State.once seen)

theorem step_traceCount {i : Instr} {s1 t : State} {l : List Reg} (h : Runs s i s1 t) (d : dests i = some l)
    (later : s.once.later = false) (on : s.once.oscr.getLsbD 0 = true) (unwatched : s.once.obcr.extractLsb' 0 2 = 0) :
    ∃ u, step s = .next u ∧ TraceCounted s u := by
  obtain ⟨u, v, rest, next, same, -, once⟩ := step_once_of_dests h d later
  have counted := v.traceCount_of_on (by rw [same.field Once.oscr fun _ _ => rfl]; exact on)
  have off : v.traceCount.once.obcr.extractLsb' 0 2 = 0 := by
    rw [State.traceCount_obcr, same.field Once.obcr fun _ _ => rfl]
    exact unwatched
  rw [State.watchAll, if_pos off] at once
  refine ⟨u, next, ?_⟩
  rw [TraceCounted, same.field Once.otc fun _ _ => rfl, same.field Once.request fun _ _ => rfl, ← once] at counted
  exact counted

theorem step_fetchBreak {i : Instr} {s1 t : State} {l : List Reg} (h : Runs s i s1 t) (d : dests i = some l)
    (later : s.once.later = false) (off : s.once.oscr.getLsbD 0 = false) (on : FetchBreak s) (here : s.once.omlr0 = s.pcu.pc) :
    ∃ u, step s = .next u ∧ BreakCounted s u := by
  obtain ⟨u, v, rest, next, same, data, once⟩ := step_once_of_dests h d later
  obtain ⟨l, fetched, apart⟩ := fetches_eq_cons (a := s.pcu.pc) h.fetched.len
  have omlr0 : v.once.omlr0 = s.pcu.pc := (same.field Once.omlr0 fun _ _ => rfl).trans here
  have counted := FetchBreak.watchAll_of_first (s := v) ((same.field Once.obcr fun _ _ => rfl).trans on) (l := l ++ rest)
    fun x mem program => by
      rw [omlr0]
      exact (List.mem_append.1 mem).elim (apart x) fun mem => absurd program (data x mem)
  rw [v.traceCount_of_off (by rw [same.field Once.oscr fun _ _ => rfl]; exact off), fetched, List.cons_append, ← omlr0] at once
  refine ⟨u, next, ?_⟩
  rw [BreakCounted, same.field Once.ombc fun _ _ => rfl, same.field Once.request fun _ _ => rfl, ← once] at counted
  exact counted

/-- A change of flow comes before what the buffer holds: its target if it is taken, and its address. -/
theorem State.traceFlow_trace (a : Word) (taken : Bool) : (s.traceFlow a taken).once.trace =
    ((if taken then [s.pcu.pc ++ 0#1, a ++ 0#1] else [a ++ 1#1]) ++ s.once.trace).take 12 := by
  cases taken <;> rfl

/-- What a step leaves in the trace buffer, after an instruction that changes OGDBR at most of the OnCE registers. -/
theorem step_trace {i : Instr} {s1 t : State} (h : Runs s i s1 t) : let b := s1.begin s.pcu.pc
    SameOnce b t → t.ctl.phase = b.ctl.phase → ∃ u, step s = .next u ∧ u.once.lastPc = s.pcu.pc ∧
      u.once.trace = if isTraced i then
        ((if b.changesFlow i then [(b.loopTest i t).pcu.pc ++ 0#1, s.pcu.pc ++ 0#1] else [s.pcu.pc ++ 1#1]) ++
          s.once.trace).take 12 else s.once.trace := by
  intro b kept phase
  have next := step_of_runs h
  obtain ⟨⟨core, -, -, -, -⟩, fetched, -, -, -, -, -⟩ := h
  obtain ⟨c, rfl⟩ := fetched.withCache
  let v := b.maskWindow i (b.loopTest i t)
  obtain ⟨ctl, once⟩ := State.loopTest_ctl_once b i t
  have normal : (b.loopTest i t).ctl.phase = .normal := by
    rw [ctl, phase]
    exact core.phase
  have running : (b.loopTest i t).ctl.phase ≠ .debug := by
    rw [normal]
    exact Phase.noConfusion
  have after := State.after_once (b := b) core.dma core.env running i s.pcu.pc (fetches s.pcu.pc i.len) t
  have begun : SameOnce (s.begin s.pcu.pc) b := .of_eq rfl
  have before : SameTrace (s.begin s.pcu.pc) v.promote :=
    ((begun.trans kept).trans (.of_eq ((State.maskWindow_once b i _).trans once))).sameTrace.trans (.promote v)
  have pc : v.promote.pcu.pc = (b.loopTest i t).pcu.pc := by
    obtain ⟨-, -, -, pcu, -⟩ := (SameWork.maskWindow b i (b.loopTest i t)).trans (.promote v)
    exact congrArg PcuRegs.pc pcu
  obtain ⟨trace, lastPc⟩ := b.observe_trace i s.pcu.pc (fetches s.pcu.pc i.len) t v
  refine ⟨_, next, ?_, ?_⟩
  · rw [State.tick_once, after, lastPc]
    split <;> exact before.2
  · rw [State.tick_once, after, trace]
    split
    · rw [State.traceFlow_trace, pc, before.1]
      rfl
    · exact before.1

theorem step_trace_of_dests {i : Instr} {s1 t : State} {l : List Reg} (h : Runs s i s1 t) (d : dests i = some l) :
    ∃ u, step s = .next u ∧ u.once.lastPc = s.pcu.pc ∧ u.once.trace = s.once.trace := by
  obtain ⟨-, -, -, phase, -⟩ := exec_sameLoop d h.result
  have stepped := step_trace h (exec_sameOnce d h.result) phase
  rw [isTraced_of_dests d] at stepped
  exact stepped

theorem step_trace_of_flow {i : Instr} {s1 t : State} {F : Flow} (h : Runs s i s1 t) : let b := s1.begin s.pcu.pc
    (jumpOf b i = some F ∨ callOf b i = some F) → ∃ u, step s = .next u ∧ u.once.lastPc = s.pcu.pc ∧
      u.once.trace = ((if F.taken then [F.target ++ 0#1, s.pcu.pc ++ 0#1] else [s.pcu.pc ++ 1#1]) ++ s.once.trace).take 12 := by
  intro b flow
  obtain ⟨kept, phase, target⟩ := exec_flow flow h.result
  have stepped := step_trace h kept phase
  have taken : b.changesFlow i = F.taken := changesFlow_of_flow flow
  rw [isTraced_of_flow flow, if_pos rfl, taken] at stepped
  cases jumps : F.taken
  · rw [jumps] at stepped
    exact stepped
  · have stays : b.loopTest i t = t := by
      rw [State.loopTest, not_loopEnds_of_changesFlow (taken.trans jumps), if_neg Bool.false_ne_true]
    rw [jumps, stays, target jumps] at stepped
    exact stepped

end Sys2Proof.Machine
end

section
/-!
Debug mode entered between two instructions, and an instruction executed there for the host (61_debug R633, R640, R641, R645).
-/
namespace Sys2Proof.Machine

variable {s : State}

/-! ## A debug request acknowledged -/

theorem step_of_request (env : s.env = []) (phase : s.ctl.phase = .normal) (request : s.once.request = true)
    (late : s.ctl.late = []) (spilled : s.ctl.spilled = false) : step s = .next s.acknowledge.tick := by
  simp [step, live, env, turn, phase, State.debugDue, request, late, spilled]

theorem State.endHalt_of_normal (h : s.ctl.phase = .normal) : s.endHalt = s := by
  simp only [State.endHalt, h]

theorem State.enterDebug_of_ime (phase : s.ctl.phase = .normal) (ime : s.once.oscr.getLsbD 1 = true) (c : BitVec 3) :
    s.enterDebug c = s.setPend 3 true := by
  rw [State.enterDebug, phase, if_neg Phase.noConfusion, if_pos ime, State.endHalt_of_normal phase]

theorem State.enterDebug_of_normal (phase : s.ctl.phase = .normal) (ime : s.once.oscr.getLsbD 1 = false) (c : BitVec 3) :
    let t := (s.withPhase .debug).debugLatches
    s.enterDebug c = { t with once := { t.once with cause := t.once.cause ||| c ||| t.once.traceCause } } := by
  rw [State.enterDebug, phase, if_neg Phase.noConfusion, ime, if_neg Bool.false_ne_true, State.endHalt_of_normal phase]

theorem Once.getLsbD_traceCause (o : Once) {k : Nat} (hk : k < 3) :
    o.traceCause.getLsbD k = (k == 2 && o.oscr.getLsbD 0 && o.otc == 0) := by
  unfold Once.traceCause
  rw [Bool.and_assoc]
  cases o.oscr.getLsbD 0 && o.otc == 0
  · simp
  · rw [if_pos rfl, Bool.and_true]
    interval_cases k <;> rfl

/-- The causes shown: those before, those now given, and that of the trace counter. -/
theorem Once.getLsbD_cause (o : Once) {k : Nat} (hk : k < 3) : (o.cause ||| o.asked ||| o.traceCause).getLsbD k =
    (o.cause.getLsbD k || o.asked.getLsbD k || (k == 2 && o.oscr.getLsbD 0 && o.otc == 0)) := by
  rw [BitVec.getLsbD_or, BitVec.getLsbD_or, o.getLsbD_traceCause hk]

/-- Between two instructions of a program, with nothing on the program data bus, the words at the PC come next (61_debug R641,
R642). -/
theorem State.pipeline_of_program (ctx : s.ctl.ctx = none) (rep : s.ctl.rep = none) (pdb : s.ctl.pdb = []) :
    s.pipeline = ((s.readP s.pcu.pc, s.readP (s.pcu.pc + 1)), (s.pcu.pc, s.pcu.pc + 1, s.pcu.pc + 2)) := by
  simp [State.pipeline, ctx, rep, State.upcoming, State.onBus, pdb]

theorem State.acknowledge_of_ime (phase : s.ctl.phase = .normal) (ime : s.once.oscr.getLsbD 1 = true) :
    s.acknowledge = ({ s with once := { s.once with request := false, asked := 0 } } : State).setPend 3 true :=
  State.enterDebug_of_ime (s := { s with once := { s.once with request := false, asked := 0 } }) phase ime _

/-- The OnCE registers and the phase as Debug mode is entered on a request. -/
theorem State.acknowledge_of_normal (phase : s.ctl.phase = .normal) (ime : s.once.oscr.getLsbD 1 = false) :
    s.acknowledge = { s with
      ctl := { s.ctl with phase := .debug }
      once := { (s.withPhase .debug).debugLatches.once with
        request := false, asked := 0, cause := s.once.cause ||| s.once.asked ||| s.once.traceCause } } :=
  State.enterDebug_of_normal (s := { s with once := { s.once with request := false, asked := 0 } }) phase ime _

/-! ## An instruction executed for the host -/

theorem SameWork.noteHit (b : State) (i : Instr) (t : State) : SameWork t (b.noteHit i t) := by
  unfold State.noteHit
  (repeat' split) <;> exact .refl t

theorem State.noteHit_dePulses (b : State) (i : Instr) (t : State) : (b.noteHit i t).once.dePulses = t.once.dePulses := by
  unfold State.noteHit
  (repeat' split) <;> rfl

theorem SameWork.notePWrites (b : State) (i : Instr) (t : State) : SameWork t (b.notePWrites i t) :=
  .foldl (f := fun v (a : Access) => v.notePWrite a.addr) (fun v _ => by simp [SameWork]) _ t

theorem State.notePWrites_phase (b : State) (i : Instr) (t : State) : (b.notePWrites i t).ctl.phase = t.ctl.phase :=
  foldl_keeps (g := fun v => v.ctl.phase) (fun v (a : Access) => by simp) _ t

/-- The state in which an instruction is executed for the host. -/
def State.injecting (s : State) : State := { s with ctl := { s.ctl with fresh := s.ctl.written, written := 0 } }

/-- What follows the instruction executed from `b` for the host, the state being `t`, with no other master at work. -/
def State.afterInjected (b s : State) (i : Instr) (t : State) : State :=
  b.notePWrites i ((b.observeInjected i (s.noteHit i t)).withPhase .debug).fade

/-- The instruction executed from `b` for the host. -/
def injectFrom (b s : State) (i : Instr) : Res :=
  if b.misusesExtension i then .refused .stackExtensionMisuse
  else
    match exec i b with
    | .fault f => .fault f
    | .refused f => .refused f
    | .next t =>
      if b.busDenied i t t then .fault .externalAccessWithBusDisabled
      else
        match b.badResult t with
        | some r => .refused r
        | none => .next (b.deferLast i t (b.afterInjected s i t))

theorem runInjected_eq (late : s.ctl.late = []) (i : Instr) : runInjected i s = injectFrom s.injecting s i := by
  have landed : runInjected i s = injectFrom s.landAll.injecting s.landAll i := rfl
  rw [landed, State.landAll_of_nil late]

theorem injectFrom_of_next {b t : State} {i : Instr} (dma : b.dmaActive = none) (env : b.env = [])
    (uses : b.misusesExtension i = false) (run : exec i b = .next t) (bus : b.busDenied i t t = false)
    (good : b.badResult t = none) : injectFrom b s i = .next (b.afterInjected s i t) := by
  simp only [injectFrom, uses, run, bus, good, State.deferLast_of_alone dma env, Bool.false_eq_true, if_false]

theorem SameWork.observeInjected (b : State) (i : Instr) (t : State) : SameWork t (b.observeInjected i t) := by
  obtain ⟨alu, agu, mem, pcu, rep⟩ := SameWork.watchAll t (b.allAccesses i t t)
  exact ⟨alu, agu, mem, pcu, rep⟩

theorem SameWork.fade_withPhase (u : State) (p : Phase) : SameWork u (u.withPhase p).fade := ⟨rfl, rfl, rfl, rfl, rfl⟩

/-- The core is in Debug mode again, with one more pulse on DE. -/
theorem State.afterInjected_kept (b s : State) (i : Instr) (t : State) : let u := b.afterInjected s i t
    SameWork t u ∧ u.ctl.phase = .debug ∧ u.once.dePulses = t.once.dePulses + 1 := by
  refine ⟨(((SameWork.noteHit s i t).trans (.observeInjected b i _)).trans (.fade_withPhase _ _)).trans (.notePWrites b i _),
    State.notePWrites_phase b i _, ?_⟩
  rw [State.afterInjected, State.notePWrites_once]
  exact congrArg (· + 1) (s.noteHit_dePulses i t)

end Sys2Proof.Machine
end

section
/-!
The TAP controller and what the host scans into the OnCE registers and out of them (61_debug R621, R630 to R634, R642).
-/
namespace Sys2Proof.Machine

variable {s : State}

/-! ## The OnCE registers -/

/-- What a write leaves in the OnCE registers depends on them alone, and it leaves nothing else. -/
theorem State.onceWrite_congr {u : State} (h : u.once = s.once) (rs : BitVec 5) (w : Word) :
    u.onceWrite rs w = (s.onceWrite rs w).map fun t => { u with once := t.once } := by
  have same : { u with once := s.once } = u := by rw [← h]
  unfold State.onceWrite
  rw [h]
  split <;> simp only [Option.map_some, Option.map_none, same]

/-- Whether a register select is reserved depends on no state. -/
theorem State.onceWrite_isNone (s t : State) (rs : BitVec 5) (w v : Word) :
    (s.onceWrite rs w).isNone = (t.onceWrite rs v).isNone := by
  unfold State.onceWrite
  split <;> rfl

theorem State.onceAfterRead_trace : s.onceAfterRead 18#5 =
    { s with once := { s.once with tracePtr := BitVec.ofNat 4 ((s.once.tracePtr.toNat + 1) % 12) } } := rfl

/-- OSCR as the host reads it, bit by bit: TME and IME, the core status, HIT, the cause (61_debug R633). -/
theorem State.getLsbD_readOscr (k : Nat) : (s.readOscr.setWidth 32).getLsbD k =
    (decide (k < 2) && s.once.oscr.getLsbD k || decide (6 ≤ k) && s.coreStatus.getLsbD (k - 6) ||
      (!s.ce || s.once.oscr.getLsbD 5) && decide (k = 5) || decide (2 ≤ k) && s.once.cause.getLsbD (k - 2)) := by
  rw [BitVec.getLsbD_setWidth]
  by_cases inside : k < 24
  · have mask : (0x000003#24).getLsbD k = decide (k < 2) := by
      rw [show 0x000003#24 = (BitVec.allOnes 2).setWidth 24 from rfl, BitVec.getLsbD_setWidth, BitVec.getLsbD_allOnes]
      simp [inside]
    simp only [State.readOscr, BitVec.getLsbD_or, BitVec.getLsbD_and, BitVec.getLsbD_shiftLeft, BitVec.getLsbD_setWidth,
      getLsbD_bitAt, mask, inside, decide_true, Bool.true_and, Bool.and_true, show k < 32 by omega, show k - 6 < 24 by omega,
      show k - 2 < 24 by omega, show 5 < 24 by omega, ← not_lt, decide_not, Bool.and_comm (decide (k < 2))]
  · simp [BitVec.getLsbD_of_ge s.readOscr k (by omega), BitVec.getLsbD_of_ge s.once.oscr k (by omega),
      BitVec.getLsbD_of_ge s.coreStatus (k - 6) (by omega), BitVec.getLsbD_of_ge s.once.cause (k - 2) (by omega),
      show k ≠ 5 by omega]

/-- The fields of that word. -/
theorem State.readOscr_fields : let v := s.readOscr.setWidth 32
    v.extractLsb' 0 2 = s.once.oscr.extractLsb' 0 2 ∧ v.extractLsb' 2 3 = s.once.cause ∧ v.extractLsb' 6 2 = s.coreStatus ∧
      v.extractLsb' 8 24 = 0 := by
  refine ⟨?_, ?_, ?_, ?_⟩ <;> apply BitVec.eq_of_getLsbD_eq <;> intro k hk <;>
    rw [BitVec.getLsbD_extractLsb', State.getLsbD_readOscr]
  · interval_cases k <;> simp
  · interval_cases k <;> simp
  · interval_cases k <;> simp
  · simp [show ¬8 + k ≤ 1 by omega, show 8 + k ≠ 5 by omega, BitVec.getLsbD_of_ge s.coreStatus (8 + k - 6) (by omega),
      BitVec.getLsbD_of_ge s.once.cause (8 + k - 2) (by omega)]

/-- What a write of OSCR leaves in it: HIT, and the new TME and IME (61_debug R633). -/
def oscrWritten (old w : Word) : Word := (old &&& 0x000020#24) ||| (w &&& 0x000003#24)

def State.withOscr (s : State) (v : Word) : State := { s with once := { s.once with oscr := v } }

theorem State.onceWrite_oscr (w : Word) : s.onceWrite 0#5 w = some (s.withOscr (oscrWritten s.once.oscr w)) := rfl

theorem extract_oscrWritten (old w : Word) : (oscrWritten old w).extractLsb' 0 2 = w.extractLsb' 0 2 := by
  apply BitVec.eq_of_getLsbD_eq
  intro k hk
  simp only [oscrWritten, BitVec.getLsbD_extractLsb', BitVec.getLsbD_or, BitVec.getLsbD_and]
  interval_cases k <;> simp

/-- OSCR written and read back: the modes are the new ones. -/
theorem State.onceRead_onceWrite_oscr (w : Word) : ∃ t v, s.onceWrite 0#5 w = some t ∧ t.onceRead 0#5 = some v ∧
    v.extractLsb' 0 2 = w.extractLsb' 0 2 ∧ v.extractLsb' 2 3 = s.once.cause ∧ v.extractLsb' 6 2 = s.coreStatus ∧
      v.extractLsb' 8 24 = 0 := by
  obtain ⟨modes, rest⟩ := State.readOscr_fields (s := s.withOscr (oscrWritten s.once.oscr w))
  exact ⟨_, _, State.onceWrite_oscr w, rfl, modes.trans (extract_oscrWritten _ w), rest⟩

/-- The pointer after `n` reads of the trace buffer from its first location. -/
theorem State.repeat_onceAfterRead (h : s.once.tracePtr = 0) (n : Nat) :
    n.repeat (fun t => t.onceAfterRead 18#5) s = { s with once := { s.once with tracePtr := BitVec.ofNat 4 (n % 12) } } := by
  induction n with
  | zero =>
    show s = _
    simp only [Nat.zero_mod]
    exact congrArg (fun p => { s with once := { s.once with tracePtr := p } }) h
  | succ n ih =>
    have next : (BitVec.ofNat 4 (n % 12)).toNat = n % 12 := by
      rw [BitVec.toNat_ofNat]
      omega
    rw [Nat.repeat, ih, State.onceAfterRead_trace]
    simp only [next, Nat.mod_add_mod]

/-- Entry `n` of the trace buffer, the newest first, is what the pointer at its `11 - n`th location shows. -/
theorem State.onceRead_trace {n : Nat} (inside : n < 12) (filled : n ≤ s.once.trace.length) :
    ({ s with once := { s.once with tracePtr := BitVec.ofNat 4 ((11 - n) % 12) } } : State).onceRead 18#5 =
      (((s.once.lastPc ++ 0#1) :: s.once.trace)[n]?).map fun e => e.setWidth 32 := by
  have entry : 11 - (BitVec.ofNat 4 ((11 - n) % 12)).toNat = n := by
    rw [BitVec.toNat_ofNat]
    omega
  have written : n < ((s.once.lastPc ++ 0#1 : BitVec 25) :: s.once.trace).length := by
    rw [List.length_cons]
    omega
  rw [List.getElem?_eq_getElem written]
  show some ((State.traceEntry _ _).setWidth 32) = _
  simp only [State.traceEntry, entry, List.getElem?_eq_getElem written, Option.map_some]

/-- Twelve reads show the buffer from the oldest entry to the newest, and end where they began. -/
theorem State.onceRead_afterReads (start : s.once.tracePtr = 0) :
    let after (n : Nat) : State := n.repeat (fun t => t.onceAfterRead 18#5) s
    (after 12).once.tracePtr = 0 ∧ ∀ n < 12, n ≤ s.once.trace.length →
      (after (11 - n)).onceRead 18#5 = (((s.once.lastPc ++ 0#1) :: s.once.trace)[n]?).map fun e => e.setWidth 32 := by
  refine ⟨congrArg (fun t : State => t.once.tracePtr) (State.repeat_onceAfterRead start 12), fun n inside filled => ?_⟩
  exact (congrArg (fun t : State => t.onceRead 18#5) (State.repeat_onceAfterRead start (11 - n))).trans
    (State.onceRead_trace inside filled)

theorem State.reservedSelect {rs : BitVec 5}
    (h : rs.toNat ∈ [3, 4, 7, 8, 14, 19, 20, 21, 22, 23, 24, 25, 26, 27, 28, 29, 30]) (w : Word) :
    s.onceWrite rs w = none ∧ s.onceRead rs = none := by
  unfold State.onceWrite State.onceRead
  simp only [List.mem_cons, List.not_mem_nil, or_false] at h
  rcases h with h | h | h | h | h | h | h | h | h | h | h | h | h | h | h | h | h <;> rw [h] <;> exact ⟨rfl, rfl⟩

/-! ## The TAP controller -/

/-- The state in Update-DR, before it acts. -/
def State.atUpdateDr (s : State) (rest : List Event) : State :=
  { s with env := rest, jtag := { s.jtag with tap := .updateDr } }

theorem live_of_updateDr {rest : List Event} {tdi : Bool} (env : s.env = .tck true tdi :: rest) (tap : s.jtag.tap = .exit1Dr) :
    live s = updateDr (s.atUpdateDr rest) := by
  simp [live, env, Event.takesBus, happen, tckEvent, tap, tapNext, State.tapAction, State.atUpdateDr]

theorem step_of_live {u : State} (h : live s = .next u) : step s = .next u.tick := by simp only [step, h]

theorem step_of_live_refused {r : Refusal} (h : live s = .refused r) : step s = .refused r := by simp only [step, h]

/-- The data scan of a write command without GO or EX. -/
theorem updateDr_of_write {rs : BitVec 5} (ir : s.jtag.ir = 0b0110#4) (data : s.jtag.dataScan = true)
    (ocr : s.once.ocr = rs.setWidth 8) : updateDr s =
      onceData rs false false (s.jtag.dr.extractLsb' 0 24) { s with jtag := { s.jtag with dataScan := false } } := by
  have select : (rs.setWidth 8).extractLsb' 0 5 = rs := by
    ext k hk
    simp [show k < 8 by omega, BitVec.getLsbD_eq_getElem hk]
  simp [updateDr, ir, selected, data, ocr, select]

/-- The data scan of a read command. -/
theorem updateDr_of_read (ir : s.jtag.ir = 0b0110#4) (data : s.jtag.dataScan = true) (ocr : s.once.ocr.getLsbD 7 = true) :
    updateDr s = .next (({ s with jtag := { s.jtag with dataScan := false } } : State).onceAfterRead
      (s.once.ocr.extractLsb' 0 5)) := by
  simp only [updateDr, ir, selected, data, ocr]
  rfl

/-- The scan of a command. -/
theorem updateDr_of_command (ir : s.jtag.ir = 0b0110#4) (data : s.jtag.dataScan = false) :
    updateDr s = onceCommand (s.jtag.dr.extractLsb' 0 8) s := by
  simp [updateDr, ir, selected, data]

theorem onceData_of_some {rs : BitVec 5} {w : Word} {t : State} (plain : rs ≠ 10#5) (h : s.onceWrite rs w = some t) :
    onceData rs false false w s = .next t := by
  simp [onceData, h, plain]

theorem onceData_of_none {rs : BitVec 5} {go ex : Bool} {w : Word} (h : s.onceWrite rs w = none) :
    onceData rs go ex w s = .refused .reservedOnceCode := by
  simp only [onceData, h]

/-- A command that selects a register to read (61_debug R630, R631). -/
theorem onceCommand_of_read {cmd : Byte} {v : BitVec 32} (h : cmd.extractLsb' 0 5 ≠ 31#5) (read : cmd.getLsbD 7 = true)
    (value : s.onceRead (cmd.extractLsb' 0 5) = some v) : onceCommand cmd s =
      .next { s with once := { s.once with ocr := cmd }, jtag := { s.jtag with dr := v, dataScan := true } } := by
  have same : ({ s with once := { s.once with ocr := cmd } } : State).onceRead (cmd.extractLsb' 0 5) = some v := value
  simp only [onceCommand, h, read, same, if_true, if_false]

theorem onceCommand_of_read_reserved {cmd : Byte} (h : cmd.extractLsb' 0 5 ≠ 31#5) (read : cmd.getLsbD 7 = true)
    (none : s.onceRead (cmd.extractLsb' 0 5) = none) : onceCommand cmd s = .refused .reservedOnceCode := by
  have same : ({ s with once := { s.once with ocr := cmd } } : State).onceRead (cmd.extractLsb' 0 5) = .none := none
  simp only [onceCommand, h, read, same, if_true, if_false]

/-- A command that selects a register to write. -/
theorem onceCommand_of_write {cmd : Byte} (h : cmd.extractLsb' 0 5 ≠ 31#5) (write : cmd.getLsbD 7 = false) :
    onceCommand cmd s = if (s.onceWrite (cmd.extractLsb' 0 5) 0).isNone then .refused .reservedOnceCode
      else .next { s with once := { s.once with ocr := cmd }, jtag := { s.jtag with dataScan := true } } := by
  rw [State.onceWrite_isNone s { s with once := { s.once with ocr := cmd } } _ 0 0]
  simp only [onceCommand, h, write, if_false, Bool.false_eq_true]
  split
  · next none => rw [none]; rfl
  · next some => rw [some]; rfl

/-- The data scan of a register that the host writes. -/
theorem step_of_write_scan {rest : List Event} {tdi : Bool} {rs : BitVec 5} (env : s.env = .tck true tdi :: rest)
    (tap : s.jtag.tap = .exit1Dr) (ir : s.jtag.ir = 0b0110#4) (data : s.jtag.dataScan = true)
    (ocr : s.once.ocr = rs.setWidth 8) (plain : rs ≠ 10#5) :
    match s.onceWrite rs (s.jtag.dr.extractLsb' 0 24) with
    | some t => ∃ u, step s = .next u ∧ u.once = t.once ∧ u.jtag.dataScan = false ∧ u.jtag.tap = .updateDr ∧ u.pcu = s.pcu
    | none => step s = .refused .reservedOnceCode := by
  let q : State := { s.atUpdateDr rest with jtag := { (s.atUpdateDr rest).jtag with dataScan := false } }
  have scan : live s = onceData rs false false (s.jtag.dr.extractLsb' 0 24) q :=
    (live_of_updateDr env tap).trans (updateDr_of_write ir data ocr)
  have written := State.onceWrite_congr (s := s) (u := q) rfl rs (s.jtag.dr.extractLsb' 0 24)
  split
  · next t some =>
    rw [some] at written
    exact ⟨_, step_of_live (scan.trans (onceData_of_some plain written)), rfl, rfl, rfl, rfl⟩
  · next none =>
    rw [none] at written
    exact step_of_live_refused (scan.trans (onceData_of_none written))

/-- The scan of a command that selects a register. -/
theorem live_of_command_scan {rest : List Event} {tdi : Bool} {cmd : Byte} (env : s.env = .tck true tdi :: rest)
    (tap : s.jtag.tap = .exit1Dr) (ir : s.jtag.ir = 0b0110#4) (data : s.jtag.dataScan = false)
    (dr : s.jtag.dr.extractLsb' 0 8 = cmd) : live s = onceCommand cmd (s.atUpdateDr rest) := by
  rw [live_of_updateDr env tap, ← dr]
  exact updateDr_of_command ir data


theorem step_of_command_scan {rest : List Event} {tdi : Bool} {cmd : Byte} (env : s.env = .tck true tdi :: rest)
    (tap : s.jtag.tap = .exit1Dr) (ir : s.jtag.ir = 0b0110#4) (data : s.jtag.dataScan = false)
    (dr : s.jtag.dr.extractLsb' 0 8 = cmd) (select : cmd.extractLsb' 0 5 ≠ 31#5) : let rs := cmd.extractLsb' 0 5
    match s.onceRead rs, cmd.getLsbD 7 with
    | none, true => step s = .refused .reservedOnceCode
    | some v, true => ∃ u, step s = .next u ∧ u.jtag.dr = v ∧ u.jtag.dataScan = true ∧ u.once = { s.once with ocr := cmd } ∧
        u.pcu = s.pcu
    | _, false => if (s.onceWrite rs 0).isNone then step s = .refused .reservedOnceCode
        else ∃ u, step s = .next u ∧ u.jtag.dataScan = true ∧ u.once = { s.once with ocr := cmd } ∧ u.pcu = s.pcu := by
  intro rs
  have scan := live_of_command_scan env tap ir data dr
  cases read : cmd.getLsbD 7
  · rw [onceCommand_of_write select read, State.onceWrite_isNone (s.atUpdateDr rest) s _ 0 0] at scan
    have write : if (s.onceWrite rs 0).isNone then step s = .refused .reservedOnceCode else ∃ u, step s = .next u ∧
        u.jtag.dataScan = true ∧ u.once = { s.once with ocr := cmd } ∧ u.pcu = s.pcu := by
      split
      · next none => exact step_of_live_refused (scan.trans (if_pos none))
      · next some => exact ⟨_, step_of_live (scan.trans (if_neg some)), rfl, rfl, rfl⟩
    cases s.onceRead rs <;> exact write
  · cases value : s.onceRead rs with
    | none => exact step_of_live_refused (scan.trans (onceCommand_of_read_reserved select read value))
    | some v => exact ⟨_, step_of_live (scan.trans (onceCommand_of_read select read value)), rfl, rfl, rfl, rfl⟩

/-- The data scan of a read of the trace buffer moves its pointer. -/
theorem step_of_trace_scan {rest : List Event} {tdi : Bool} (env : s.env = .tck true tdi :: rest)
    (tap : s.jtag.tap = .exit1Dr) (ir : s.jtag.ir = 0b0110#4) (data : s.jtag.dataScan = true) (ocr : s.once.ocr = 0x92#8) :
    ∃ u, step s = .next u ∧ u.jtag.dataScan = false ∧
      u.once = { s.once with tracePtr := BitVec.ofNat 4 ((s.once.tracePtr.toNat + 1) % 12) } ∧ u.pcu = s.pcu := by
  have scan := (live_of_updateDr env tap).trans (updateDr_of_read (s := s.atUpdateDr rest) ir data (ocr ▸ rfl))
  rw [show (s.atUpdateDr rest).once.ocr = 0x92#8 from ocr] at scan
  exact ⟨_, step_of_live scan, rfl, rfl, rfl⟩

end Sys2Proof.Machine
end

section
/-!
The debug port as a whole.
-/
namespace Sys2Proof.Machine

variable {s : State}

/-- What a debug request does that is acknowledged between two instructions (61_debug R633, R640 to R642, R645). -/
theorem step_acknowledges (env : s.env = []) (phase : s.ctl.phase = .normal) (request : s.once.request = true)
    (late : s.ctl.late = []) (spilled : s.ctl.spilled = false) :
    ∃ t, step s = .next t ∧ t.alu = s.alu ∧ t.agu = s.agu ∧ t.pcu = s.pcu ∧ t.mem = s.mem ∧ t.once.request = false ∧
      if s.once.oscr.getLsbD 1 then t.ctl.phase = .normal ∧ t.irq.pend.getLsbD 3 = true
      else t.ctl.phase = .debug ∧ t.irq = s.irq ∧ t.once.dePulses = s.once.dePulses + 1 ∧ t.once.tracePtr = 0 ∧
        t.once.trace = s.once.trace ∧ (∀ k < 3, t.once.cause.getLsbD k = (s.once.cause.getLsbD k || s.once.asked.getLsbD k ||
          (k == 2 && s.once.oscr.getLsbD 0 && s.once.otc == 0))) ∧
        (s.ctl.ctx = none → s.ctl.rep = none → s.ctl.pdb = [] → t.once.opabex = s.pcu.pc ∧ t.once.opilr = s.readP s.pcu.pc ∧
          t.once.opabdr = s.pcu.pc + 1 ∧ t.once.opdbr = s.readP (s.pcu.pc + 1) ∧ t.once.opabfr = s.pcu.pc + 2) := by
  refine ⟨_, step_of_request env phase request late spilled, ?_⟩
  cases ime : s.once.oscr.getLsbD 1
  · rw [State.acknowledge_of_normal phase ime]
    refine ⟨rfl, rfl, rfl, rfl, rfl, rfl, rfl, rfl, rfl, rfl, fun k => s.once.getLsbD_cause, fun ctx rep pdb => ?_⟩
    have shown := State.pipeline_of_program (s := s.withPhase .debug) ctx rep pdb
    simp only [State.debugLatches, State.latchPipeline, shown]
    exact ⟨rfl, rfl, rfl, rfl, rfl⟩
  · rw [State.acknowledge_of_ime phase ime]
    exact ⟨rfl, rfl, rfl, rfl, rfl, phase, by simp [State.setPend]⟩

/-- LRA executed for the host counts from the PC, between two vector words too (log 57). -/
theorem exec_lraLong_of_debug (phase : s.ctl.phase = .debug) (sc : s.sc = false) (n : Fin 8) (d : Word) :
    ∃ t, exec (.lraLong (.r n) d) s = .next t ∧ t.agu.r[n] = s.pcu.pc + d := by
  have here : s.opAddr 2 = s.pcu.pc := by
    unfold State.opAddr
    split
    · rfl
    · exact if_pos phase
  refine ⟨_, rfl, ?_⟩
  show (s.agu.r.set n (scMask s.sc (s.opAddr 2 + d)))[n] = _
  rw [sc, here]
  simp [scMask]

/-- An instruction executed for the host from the PC of the halted program (61_debug R641, R645; logs 40, 57). -/
theorem runInjected_effect {i : Instr} {t : State} (phase : s.ctl.phase = .debug) (late : s.ctl.late = [])
    (dma : s.dmaActive = none) (env : s.env = []) (uses : s.injecting.misusesExtension i = false)
    (run : exec i s.injecting = .next t) (bus : s.injecting.busDenied i t t = false) (good : s.injecting.badResult t = none) :
    (∃ u, runInjected i s = .next u ∧ u.alu = t.alu ∧ u.agu = t.agu ∧ u.pcu = t.pcu ∧ u.mem = t.mem ∧ u.ctl.phase = .debug ∧
      u.once.dePulses = t.once.dePulses + 1) ∧
    (∀ F, jumpOf s.injecting i = some F → F.taken = true → t.pcu.pc = F.target) ∧
    (∀ d, i = .braLong d → t.pcu.pc = s.pcu.pc + d) ∧
    ∀ d, i = .lraLong (.r 0) d → s.sc = false → t.agu.r[(0 : Fin 8)] = s.pcu.pc + d := by
  have target (F : Flow) (jump : jumpOf s.injecting i = some F) (taken : F.taken = true) : t.pcu.pc = F.target := by
    obtain ⟨-, -, there⟩ := exec_flow (.inl jump) run
    exact there taken
  refine ⟨?_, target, ?_, ?_⟩
  · obtain ⟨⟨alu, agu, mem, pcu, -⟩, debug, pulse⟩ := State.afterInjected_kept s.injecting s i t
    exact ⟨_, (runInjected_eq late i).trans (injectFrom_of_next dma env uses run bus good), alu, agu, pcu, mem, debug, pulse⟩
  · rintro d rfl
    exact target ⟨true, s.pcu.pc + d, none⟩ rfl rfl
  · rintro d rfl sc
    obtain ⟨u, result, loaded⟩ := exec_lraLong_of_debug (s := s.injecting) phase sc 0 d
    obtain rfl : u = t := Host.Outcome.next.inj (result.symm.trans run)
    exact loaded

/-- A GO without EX (61_debug R641; 70_reset R749). -/
theorem onceGo_of_debug (phase : s.ctl.phase = .debug) (late : s.ctl.late = []) (w : Word) : onceGo false w s =
    if s.latchTooSoon w (s.latched w).len then .refused .executedTooSoon else runInjected (s.latched w) s := by
  simp only [onceGo, phase, State.landAll_of_nil late, ne_eq, not_true_eq_false, Bool.false_eq_true, if_false]

end Sys2Proof.Machine

open Sys2Proof Sys2Proof.Machine

/-- Settles O58: the host's scans by what Update-DR does, an executed instruction by what the OnCE registers see of it once the
core has stepped (`step_once_of_dests`, `step_trace`), and an injected one by the same instruction alone. -/
theorem debug_port : Obligations.Debug_port := by
  refine ⟨fun p => by cases p <;> rfl, fun _ _ _ _ env tap ir data ocr plain => step_of_write_scan env tap ir data ocr plain,
    fun _ _ _ _ env tap ir data dr select => step_of_command_scan env tap ir data dr select, ?registers,
    fun _ env phase request late spilled => step_acknowledges env phase request late spilled, ?watched,
    fun _ _ _ _ h => ⟨fun _ flow => step_trace_of_flow h flow, fun _ d => step_trace_of_dests h d⟩,
    fun _ start => State.onceRead_afterReads start, fun _ _ _ env tap ir data ocr => step_of_trace_scan env tap ir data ocr,
    fun _ _ _ phase late dma env uses run bus good => runInjected_effect phase late dma env uses run bus good,
    fun _ w phase late => onceGo_of_debug phase late w⟩
  case registers =>
    refine fun s w => ⟨fun rs h => ?_, ⟨_, rfl, rfl⟩, State.onceRead_onceWrite_oscr w, fun rs h => ?_,
      fun rs h => State.reservedSelect h w⟩
    · simp only [List.mem_cons, List.not_mem_nil, or_false] at h
      rcases h with rfl | rfl | rfl | rfl | rfl <;> exact ⟨_, rfl, rfl⟩
    · simp only [List.mem_cons, List.not_mem_nil, or_false] at h
      rcases h with rfl | rfl | rfl | rfl | rfl | rfl <;> rfl
  case watched =>
    intro s i s1 t l h d later
    have quiet := h.ready.debug
    refine ⟨fun on unwatched => ?_, fun off breakpoint here => ?_⟩
    · obtain ⟨u, stepped, counted⟩ := step_traceCount h d later on unwatched
      rw [TraceCounted, quiet] at counted
      exact ⟨u, stepped, counted⟩
    · obtain ⟨u, stepped, counted⟩ := step_fetchBreak h d later off breakpoint here
      rw [BreakCounted, quiet] at counted
      exact ⟨u, stepped, counted⟩

end

section
/-!
What a channel's DCR selects (62_devices R701, R704 to R706): the model's spaces, address modes, levels and counter read in the
terms of the spec's codes and fields.
-/
namespace Sys2Proof.Machine

/-! ## The spaces -/

theorem dmaSpace_spaceCode (sp : DmaSpace) : dmaSpace (spaceCode sp) = some sp := by
  cases sp with
  | data sp => cases sp <;> rfl
  | program => rfl

/-- DSS and DDS are the two halves of the low four bits (62_devices R701). -/
theorem dmaSpace_of_codes {dcr : Word} {ss ds : DmaSpace} (codes : dcr.extractLsb' 0 4 = spaceCode ds ++ spaceCode ss) :
    dmaSpace (dcr.extractLsb' 0 2) = some ss ∧ dmaSpace (dcr.extractLsb' 2 2) = some ds := by
  have low : dcr.extractLsb' 0 2 = (dcr.extractLsb' 0 4).extractLsb' 0 2 := by
    ext i hi; simp
  have high : dcr.extractLsb' 2 2 = (dcr.extractLsb' 0 4).extractLsb' 2 2 := by
    ext i hi; simp
  rw [low, high, codes, BitVec.extractLsb'_append_eq_right, BitVec.extractLsb'_append_eq_left, dmaSpace_spaceCode,
    dmaSpace_spaceCode]
  exact ⟨rfl, rfl⟩

theorem dmaSpace_reserved : dmaSpace 3#2 = none := rfl

/-! ## The address modes -/

/-- The modes that address generation codes and field widths name. -/
def modesOf : Nat × Nat × Nat × Nat → DmaModes
  | (src, dst, l, m) => ⟨dmaMode3 src, dmaMode3 dst, l, m⟩

/-- The two-dimensional codes are the first six of the three-dimensional ones (62_devices R704, R705). -/
theorem dmaMode2_eq (c : Nat) : dmaMode2 c = if c < 6 then some (dmaMode3 c) else none := by
  unfold dmaMode2 dmaMode3
  grind

theorem isTwo_dmaMode3 (c : Nat) : (dmaMode3 c).isTwo = decide (c < 4) := by
  unfold dmaMode3
  (repeat' split) <;> simp [DmaMode.isTwo] <;> omega

/-- The modes are those of the codes, and a reserved code has none (62_devices R704, R705; U49). -/
theorem dmaModes_eq (dcr : Word) : dmaModes dcr = (dmaCodes dcr).map modesOf := by
  have hi : (dcr.extractLsb' 7 3).toNat = dcr.toNat / 2 ^ 7 % 8 := by simp [BitVec.extractLsb'_toNat, Nat.shiftRight_eq_div_pow]
  have lo : (dcr.extractLsb' 4 3).toNat = dcr.toNat / 2 ^ 4 % 8 := by simp [BitVec.extractLsb'_toNat, Nat.shiftRight_eq_div_pow]
  have c : (dcr.extractLsb' 4 2).toNat = dcr.toNat / 2 ^ 4 % 8 % 4 := by
    simp only [BitVec.extractLsb'_toNat, Nat.shiftRight_eq_div_pow]; omega
  have side : dcr.getLsbD 6 = decide (dcr.toNat / 2 ^ 4 % 8 / 4 = 1) := by
    rw [BitVec.getLsbD, Nat.testBit_eq_decide_div_mod_eq]; exact decide_eq_decide.2 (by omega)
  unfold dmaModes dmaCodes
  rw [hi, lo, c, side]
  generalize dcr.toNat / 2 ^ 7 % 8 = h
  have lt : dcr.toNat / 2 ^ 4 % 8 < 8 := Nat.mod_lt _ (by decide)
  generalize dcr.toNat / 2 ^ 4 % 8 = k at lt
  cases dcr.getLsbD 10 with
  | false =>
    simp only [dmaMode2_eq, Bool.false_eq_true, if_false]
    by_cases hk : k < 6 <;> by_cases hh : h < 6
    · by_cases two : k < 4 ∨ h < 4 <;> simp [modesOf, isTwo_dmaMode3, hk, hh, two, Nat.not_le.2]
    all_goals simp [hk, hh, Nat.not_lt.1]
  | true =>
    interval_cases k <;> rfl

theorem dmaCodes_lt {dcr : Word} {src dst l m : Nat} (h : dmaCodes dcr = some (src, dst, l, m)) : src < 8 ∧ dst < 8 := by
  unfold dmaCodes at h
  dsimp only at h
  grind

/-- An address steps as its code says (62_devices R706). -/
theorem dmaNext_eq_addressAfter (dor : Vector Word 4) {code : Nat} (h : code < 8) (a : Word) (level : Nat) :
    dmaNext dor (dmaMode3 code) a level = addressAfter dor code level a := by
  interval_cases code <;> rcases level with - | - | level <;> rfl

/-! ## The counter -/

theorem levelAt_eq (m L M H : Nat) : levelAt m (L, M, H) =
    if L ≠ 0 then 0 else if M ≠ 0 then 1 else if H ≠ 0 then (if m = 0 then 1 else 2) else 3 := by
  cases L <;> cases M <;> cases H <;> rfl

/-- The level of a word is that of the counter's fields. -/
theorem dmaLevel_eq (src dst : DmaMode) (l m : Nat) (w : Word) :
    dmaLevel ⟨src, dst, l, m⟩ w.toNat = levelAt m (dmaFields l m w) := by
  simp only [dmaLevel, dmaFields, levelAt_eq, Nat.pow_add, Nat.div_div_eq_div_mul]

/-- The counter with these fields. -/
def packed (l m : Nat) (f : Nat × Nat × Nat) : Nat := f.1 + 2 ^ l * (f.2.1 + 2 ^ m * f.2.2)

/-- Fields that fit the widths of L and M. -/
def FieldsFit (l m : Nat) (f : Nat × Nat × Nat) : Prop := f.1 < 2 ^ l ∧ f.2.1 < 2 ^ m

theorem fieldsFit_dmaFields (l m : Nat) (w : Word) : FieldsFit l m (dmaFields l m w) :=
  ⟨Nat.mod_lt _ (Nat.two_pow_pos l), Nat.mod_lt _ (Nat.two_pow_pos m)⟩

theorem packed_dmaFields (l m : Nat) (w : Word) : packed l m (dmaFields l m w) = w.toNat := by
  simp only [packed, dmaFields, Nat.mod_add_div]

theorem dmaFields_packed {l m : Nat} {f : Nat × Nat × Nat} (fit : FieldsFit l m f) (lt : packed l m f < 2 ^ 24) :
    dmaFields l m (BitVec.ofNat 24 (packed l m f)) = f := by
  obtain ⟨L, M, H⟩ := f
  obtain ⟨hL, hM⟩ := fit
  simp only [dmaFields, BitVec.toNat_ofNat, Nat.mod_eq_of_lt lt]
  simp only [packed, Nat.add_mul_mod_self_left, Nat.mod_eq_of_lt hL, Nat.add_mul_div_left _ _ (Nat.two_pow_pos l),
    Nat.div_eq_of_lt hL, Nat.zero_add, Nat.mod_eq_of_lt hM, Nat.add_mul_div_left _ _ (Nat.two_pow_pos m), Nat.div_eq_of_lt hM]

/-- The fields that a word leaves fit as those before it did. -/
theorem FieldsFit.fieldsAfter {l m : Nat} {f pre : Nat × Nat × Nat} (hf : FieldsFit l m f) (hp : FieldsFit l m pre) :
    FieldsFit l m (fieldsAfter m f pre) := by
  obtain ⟨hL, hM⟩ := hf
  obtain ⟨hpL, hpM⟩ := hp
  have pos := Nat.two_pow_pos m
  unfold Machine.fieldsAfter
  split
  · exact ⟨by dsimp only; omega, hM⟩
  · split
    · exact ⟨hpL, pos⟩
    · exact ⟨hpL, by dsimp only; omega⟩
  · exact ⟨hpL, hpM⟩
  · exact ⟨hpL, hpM⟩

/-- The counter steps as its fields do (62_devices R706), and stays a word. -/
theorem dmaCount_eq_packed (src dst : DmaMode) (l m : Nat) (w pre : Word) :
    dmaCount ⟨src, dst, l, m⟩ w.toNat pre.toNat = packed l m (fieldsAfter m (dmaFields l m w) (dmaFields l m pre)) ∧
    dmaCount ⟨src, dst, l, m⟩ w.toNat pre.toNat < 2 ^ 24 := by
  have lt := w.isLt
  have reload := Nat.mod_lt pre.toNat (Nat.two_pow_pos l)
  obtain ⟨-, fit⟩ := fieldsFit_dmaFields l m w
  rw [← packed_dmaFields l m w] at lt
  rw [dmaCount, dmaLevel_eq, ← packed_dmaFields l m w]
  generalize dmaFields l m w = f at lt fit
  obtain ⟨_ | L, M, H⟩ := f
  case succ =>
    simp only [packed, levelAt_eq, Machine.fieldsAfter, ne_eq, Nat.succ_ne_zero, not_false_eq_true, if_true] at lt ⊢
    omega
  obtain _ | M := M
  case succ =>
    have hm : m ≠ 0 := by rintro rfl; exact absurd fit (by simp)
    have borrow : 2 ^ l * (M + 1 + 2 ^ m * H) = 2 ^ l * (M + 2 ^ m * H) + 2 ^ l := by ring
    simp only [packed, levelAt_eq, Machine.fieldsAfter, dmaFields, hm, borrow, ne_eq, not_true_eq_false,
      if_true, if_false, Nat.succ_ne_zero, not_false_eq_true, Nat.zero_add, Nat.add_sub_cancel] at lt ⊢
    omega
  obtain _ | H := H
  case zero => simp [levelAt_eq, Machine.fieldsAfter, packed_dmaFields, pre.isLt]
  have borrow : 2 ^ l * (2 ^ m * (H + 1)) = 2 ^ l * (2 ^ m * H) + 2 ^ (l + m) := by ring
  by_cases hm : m = 0
  · subst hm
    simp only [packed, levelAt_eq, Machine.fieldsAfter, dmaFields, Nat.mul_succ, pow_zero, one_mul, Nat.div_one, ne_eq,
      not_true_eq_false, if_true, if_false, Nat.succ_ne_zero, not_false_eq_true, Nat.zero_add, Nat.add_sub_cancel] at lt ⊢
    omega
  · have reloadBoth := Nat.mod_lt pre.toNat (Nat.two_pow_pos (l + m))
    have both : pre.toNat % 2 ^ (l + m) = pre.toNat % 2 ^ l + 2 ^ l * (pre.toNat / 2 ^ l % 2 ^ m) := by
      rw [Nat.pow_add, Nat.mod_mul]
    have spread := Nat.mul_add (2 ^ l) (pre.toNat / 2 ^ l % 2 ^ m) (2 ^ m * H)
    simp only [packed, levelAt_eq, Machine.fieldsAfter, dmaFields, hm, borrow, ne_eq, not_true_eq_false,
      if_true, if_false, Nat.succ_ne_zero, not_false_eq_true, Nat.zero_add, Nat.add_sub_cancel] at lt ⊢
    omega

/-- The counter's fields after a word (62_devices R706). -/
theorem dmaFields_dmaCount (src dst : DmaMode) (l m : Nat) (w pre : Word) :
    dmaFields l m (BitVec.ofNat 24 (dmaCount ⟨src, dst, l, m⟩ w.toNat pre.toNat)) =
      fieldsAfter m (dmaFields l m w) (dmaFields l m pre) := by
  obtain ⟨count, lt⟩ := dmaCount_eq_packed src dst l m w pre
  rw [count] at lt ⊢
  exact dmaFields_packed ((fieldsFit_dmaFields l m w).fieldsAfter (fieldsFit_dmaFields l m pre)) lt

/-! ## The unit of transfer -/

theorem dmaUnitEnds_eq (dtm : BitVec 3) (level : Nat) : dmaUnitEnds dtm level = unitEnds dtm.toNat level := by
  unfold dmaUnitEnds unitEnds
  split
  · simp_all
  · simp_all
  · next h => rw [h, Bool.eq_iff_iff]; simp; omega
  · simp_all

end Sys2Proof.Machine
end

section
/-!
Memory as the DMA sees it (62_devices R700, R706; 48_cache R556): what a place holds, and what one access that is not packed into
bytes reads and leaves.
-/
namespace Sys2Proof.Machine

variable {s : State}

/-! ## What a place holds -/

/-- Where a program word is listed depends on SR and OMR alone. -/
theorem State.pPlace_congr {t : State} (h : t.pcu = s.pcu) (a : Word) : t.pPlace a = s.pPlace a := by
  simp [State.pPlace, State.pExternal, State.pInModules, State.pInRam, State.pInCacheRange, State.inCacheWords, State.mapAddr,
    State.memSwitch, State.sc, State.ce, State.srBit, State.omrBit, h]

theorem State.pInModules_congr {t : State} (h : t.pcu = s.pcu) (a : Word) : t.pInModules a = s.pInModules a := by
  simp [State.pInModules, State.sc, State.srBit, h]

theorem State.pInRom_congr {t : State} (h : t.pcu = s.pcu) (a : Word) : t.pInRom a = s.pInRom a := by
  simp [State.pInRom, State.pInBoot, State.pInModules_congr h]

theorem SameMap.of_pcu {t : State} (h : t.pcu = s.pcu) : SameMap s t := by simp [SameMap, State.sc, State.srBit, h]

/-- What program memory holds depends on SR, OMR, its lists and the step's free values alone. -/
theorem State.pRaw_congr {t : State} (pcu : t.pcu = s.pcu) (p : t.mem.p = s.mem.p) (pExt : t.mem.pExt = s.mem.pExt)
    (free : t.ctl.freeCtr = s.ctl.freeCtr) (a : Word) : t.pRaw a = s.pRaw a := by
  simp [State.pRaw, State.pMem, State.absentAt, State.pInModules_congr pcu, State.pInRom_congr pcu, State.pPlace_congr pcu, p,
    pExt, free]

theorem heldAt_congr {t : State} (pcu : t.pcu = s.pcu) (mem : t.mem = s.mem) (free : t.ctl.freeCtr = s.ctl.freeCtr)
    (sp : DmaSpace) (a : Word) : heldAt t sp a = heldAt s sp a := by
  cases sp with
  | data sp => cases sp <;> simp [heldAt, State.dataMem, mem, (SameMap.of_pcu pcu).dataKey]
  | program => exact State.pRaw_congr pcu (by rw [mem]) (by rw [mem]) free a

/-! ## One word stored -/

/-- Program memory after a store: the word at its place, the old words elsewhere (20_memory R101). -/
theorem State.pRaw_pRawWrite (a b w : Word) : (s.pRawWrite a w).pRaw b =
    if s.pInModules a = false ∧ s.pInModules b = false ∧ s.pPlace b = s.pPlace a then w else s.pRaw b := by
  by_cases ha : s.pInModules a
  · simp [State.pRawWrite, ha]
  have pcu : (s.pRawWrite a w).pcu = s.pcu := by simp
  by_cases hb : s.pInModules b
  · simp [State.pRaw, State.pInModules_congr pcu, State.pInRom_congr pcu, State.absentAt, hb]
  have stored : s.pRawWrite a w = s.withPMem (s.pPlace a).1 ((s.pMem (s.pPlace a).1).write (s.pPlace a).2 w) := if_neg ha
  simp only [State.pRaw, State.pInModules_congr pcu, State.pPlace_congr pcu, ha, hb, Prod.ext_iff]
  rw [stored, State.pMem_withPMem]
  by_cases list : (s.pPlace b).1 = (s.pPlace a).1 <;> simp [list]

/-- A store by the DMA changes no register, no device and no word of the cache, program memory included (48_cache R556). -/
theorem State.dmaWriteWord_keeps (sp : DmaSpace) (a w : Word) :
    (s.dmaWriteWord sp a w).alu = s.alu ∧ (s.dmaWriteWord sp a w).agu = s.agu ∧ (s.dmaWriteWord sp a w).pcu = s.pcu ∧
    (s.dmaWriteWord sp a w).dma = s.dma ∧ (s.dmaWriteWord sp a w).cache = s.cache ∧ (s.dmaWriteWord sp a w).irq = s.irq ∧
    (s.dmaWriteWord sp a w).ctl.freeCtr = s.ctl.freeCtr := by
  cases sp with
  | program => simp [State.dmaWriteWord]
  | data sp =>
    simp only [State.dmaWriteWord]
    split
    · simp
    · next io =>
      obtain ⟨-, dma, irq, -⟩ := s.writeData_devices sp a w (Bool.eq_false_of_not_eq_true io)
      simp [dma, irq]

theorem State.dmaWrite_keeps (sp : DmaSpace) (a w : Word) :
    (s.dmaWrite sp a w).alu = s.alu ∧ (s.dmaWrite sp a w).agu = s.agu ∧ (s.dmaWrite sp a w).pcu = s.pcu ∧
    (s.dmaWrite sp a w).dma = s.dma ∧ (s.dmaWrite sp a w).cache = s.cache ∧ (s.dmaWrite sp a w).irq = s.irq := by
  simp only [State.dmaWrite]
  split <;> simp [State.dmaWriteWord_keeps]

/-- That a store is noted for the fetches to come changes no place. -/
theorem heldAt_dmaWriteWord_program (a w : Word) (sq : DmaSpace) (b : Word) :
    heldAt (s.dmaWriteWord .program a w) sq b = heldAt (s.pRawWrite a w) sq b :=
  heldAt_congr (State.notePWrite_pcu _ a) (State.notePWrite_mem _ a) (State.notePWrite_freeCtr _ a) sq b

theorem heldAt_dmaWriteWord_same {ds : DmaSpace} {a : Word} (plain : PlainPlace s ds a) (w : Word) :
    heldAt (s.dmaWriteWord ds a w) ds a = w := by
  cases ds with
  | program =>
    obtain ⟨modules, -⟩ := plain
    rw [heldAt_dmaWriteWord_program, heldAt, State.pRaw_pRawWrite, if_pos ⟨modules, modules, rfl⟩]
  | data sp =>
    obtain ⟨io, rom, void, bus⟩ := plain
    have key := (SameMap.writeData s sp a w).dataKey sp a
    simp only [heldAt, State.dmaWriteWord, io, Bool.false_eq_true, if_false, key]
    simp [State.writeData, io, rom, void, bus]

theorem heldAt_dmaWriteWord_other {ds sq : DmaSpace} {a b : Word} (other : ¬ samePlace s (ds, a) (sq, b)) (w : Word) :
    heldAt (s.dmaWriteWord ds a w) sq b = heldAt s sq b := by
  cases ds with
  | program =>
    rw [heldAt_dmaWriteWord_program]
    cases sq with
    | program => exact (s.pRaw_pRawWrite a b w).trans (if_neg fun ⟨_, _, place⟩ => other place.symm)
    | data sq =>
      have map : SameMap s (s.pRawWrite a w) := .of_pcu (by simp)
      cases sq <;> simp [heldAt, State.dataMem, map.dataKey]
  | data sp =>
    simp only [State.dmaWriteWord]
    split
    · rfl
    cases sq with
    | program => exact State.pRaw_congr (by simp) (by simp) (by simp) (by simp) b
    | data sq =>
      rw [heldAt, heldAt, (SameMap.writeData s sp a w).dataKey]
      exact s.read_writeData sp sq a w _ fun e key => other ⟨e.symm, by rw [key, e]⟩

/-! ## An access that no AAR packs into bytes -/

section
variable (aar : ∀ j : Fin 4, s.port.aar[j] = 0)
include aar

theorem State.dmaPacked_of_aar (sp : DmaSpace) (a : Word) : s.dmaPacked sp a = false := by
  simp [State.dmaPacked, aarMatch, aar]

theorem State.aarReserved_of_aar (sp : DmaSpace) (a : Word) : s.aarReserved sp a = false := by
  simp [State.aarReserved, aar]

theorem State.dmaWrite_of_aar (sp : DmaSpace) (a w : Word) : s.dmaWrite sp a w = s.dmaWriteWord sp a w := by
  simp [State.dmaWrite, State.dmaPacked_of_aar aar]

/-- A read by the DMA from memory that answers: the word held there. -/
theorem State.dmaRead_of_plain {sp : DmaSpace} {a : Word} (plain : PlainPlace s sp a) : s.dmaRead sp a = heldAt s sp a := by
  simp only [State.dmaRead, State.dmaPacked_of_aar aar, Bool.false_eq_true, if_false]
  cases sp with
  | program =>
    obtain ⟨modules, -⟩ := plain
    simp [State.dmaReadWord, heldAt, State.pInBoot, modules]
  | data sp =>
    obtain ⟨io, rom, void, bus⟩ := plain
    simp [State.dmaReadWord, State.readData, heldAt, io, rom, void, bus]

end

end Sys2Proof.Machine
end

section
/-!
One word of a DMA transfer (62_devices R706 to R711): its read, its write, and what the end of a unit and of a block does.
-/
namespace Sys2Proof.Machine

variable {s : State}

/-! ## The channels -/

theorem State.withChannel_getElem (n k : Fin 6) (c : DmaChannel) :
    (s.withChannel n c).dma.ch[k] = if k = n then c else s.dma.ch[k] := by
  simp only [State.withChannel_ch, Fin.getElem_fin, Vector.getElem_set, Fin.ext_iff, eq_comm]

theorem State.serveTrigger_getElem (n k : Fin 6) : (s.serveTrigger n).dma.ch[k] =
    if k = n then { s.dma.ch[n] with trig := false, busy := false } else s.dma.ch[k] :=
  State.withChannel_getElem n k _

/-- A channel after the request source `drs` has fired (62_devices R707). -/
def DmaChannel.fired (c : DmaChannel) (drs : BitVec 5) : DmaChannel :=
  { c with trig := c.trig || (dcrDe c.dcr && dcrDrs c.dcr == drs) }

theorem State.dmaTrigger_getElem (drs : BitVec 5) (k : Fin 6) : (s.dmaTrigger drs).dma.ch[k] = s.dma.ch[k].fired drs := by
  simp only [State.dmaTrigger, Fin.getElem_fin, Vector.getElem_map, DmaChannel.fired]
  cases (dcrDe s.dma.ch[k.val].dcr && dcrDrs s.dma.ch[k.val].dcr == drs) <;> simp

/-! ## The end of a block -/

theorem State.dmaInterrupt_pend {dcr : Word} (die : dcrDie dcr = true) (n : Fin 6) :
    (s.dmaInterrupt n dcr).irq.pend.getLsbD (12 + n.val) = true := by
  have lt : 12 + n.val < 128 := by omega
  simp [State.dmaInterrupt, die, State.setPend, lt]

theorem State.dmaInterrupt_of_not_die {dcr : Word} (h : ¬ dcrDie dcr = true) (n : Fin 6) : s.dmaInterrupt n dcr = s := if_neg h

/-- The channel whose block has ended: DE is cleared but in the modes that keep it (62_devices R707). -/
def DmaChannel.blockEnded (c : DmaChannel) : DmaChannel :=
  { c with dcr := if 4 ≤ (dcrDtm c.dcr).toNat then c.dcr else c.dcr &&& 0x7FFFFF#24 }

theorem State.endOfBlock_keeps (n : Fin 6) :
    (s.endOfBlock n).alu = s.alu ∧ (s.endOfBlock n).agu = s.agu ∧ (s.endOfBlock n).pcu = s.pcu ∧
    (s.endOfBlock n).mem = s.mem ∧ (s.endOfBlock n).cache = s.cache ∧ (s.endOfBlock n).ctl = s.ctl ∧
    (s.endOfBlock n).dma.held = s.dma.held := by
  simp only [State.endOfBlock]
  (repeat' split) <;> simp [State.dmaTrigger]

theorem State.endOfBlock_getElem (n k : Fin 6) : (s.endOfBlock n).dma.ch[k] =
    (if k = n then s.dma.ch[n].blockEnded else s.dma.ch[k]).fired (BitVec.ofNat 5 (4 + n.val)) := by
  have interrupt (u : State) (dcr : Word) : (u.dmaInterrupt n dcr).dma = u.dma := by simp
  have ended : s.dma.ch[n].blockEnded = { s.dma.ch[n] with dcr := if decide (4 ≤ (dcrDtm s.dma.ch[n].dcr).toNat) = true
      then s.dma.ch[n].dcr else s.dma.ch[n].dcr &&& 0x7FFFFF#24 } := by simp only [DmaChannel.blockEnded, decide_eq_true_eq]
  rw [ended, ← State.withChannel_getElem]
  simp only [State.endOfBlock, apply_ite State.dma, interrupt, ite_self, State.dmaTrigger_getElem]
  split <;> rfl

/-- In the modes that clear DE the block's end shows in DTD, and with DIE requests the interrupt (62_devices R710, R711). -/
theorem State.endOfBlock_of_clears {n : Fin 6} (h : (dcrDtm s.dma.ch[n].dcr).toNat < 4) :
    (s.endOfBlock n).dma.dtd = setBit s.dma.dtd n true ∧
    (dcrDie s.dma.ch[n].dcr = true → (s.endOfBlock n).irq.pend.getLsbD (12 + n.val) = true) := by
  have clears : decide (4 ≤ (dcrDtm s.dma.ch[n].dcr).toNat) = false := decide_eq_false (Nat.not_le.2 h)
  simp only [State.endOfBlock, clears, Bool.false_and, Bool.false_eq_true, if_false]
  exact ⟨by simp [State.dmaTrigger], fun die => State.dmaInterrupt_pend die n⟩

/-- In the modes that keep DE either may fail to come (62_devices R711). -/
theorem State.endOfBlock_of_keeps {n : Fin 6} (h : 4 ≤ (dcrDtm s.dma.ch[n].dcr).toNat) :
    ((s.endOfBlock n).dma.dtd = setBit s.dma.dtd n true ∨ (s.endOfBlock n).dma.dtd = s.dma.dtd) ∧
    ((dcrDie s.dma.ch[n].dcr = true ∧ (s.endOfBlock n).irq.pend.getLsbD (12 + n.val) = true) ∨
      (s.endOfBlock n).irq = s.irq) := by
  have keeps : decide (4 ≤ (dcrDtm s.dma.ch[n].dcr).toNat) = true := decide_eq_true h
  simp only [State.endOfBlock, keeps, Bool.true_and]
  constructor
  · cases s.freeBit .doneFlag 0 <;> simp [apply_ite State.dma, State.dmaTrigger]
  · split
    · right; split <;> rfl
    · by_cases die : dcrDie s.dma.ch[n].dcr = true
      · exact .inl ⟨die, State.dmaInterrupt_pend die n⟩
      · rw [State.dmaInterrupt_of_not_die die]
        right; split <;> rfl

theorem heldAt_endOfBlock (n : Fin 6) (sq : DmaSpace) (b : Word) : heldAt (s.endOfBlock n) sq b = heldAt s sq b := by
  obtain ⟨-, -, pcu, mem, -, ctl, -⟩ := s.endOfBlock_keeps n
  exact heldAt_congr pcu mem (by rw [ctl]) sq b

theorem heldAt_serveTrigger (n : Fin 6) (sq : DmaSpace) (b : Word) : heldAt (s.serveTrigger n) sq b = heldAt s sq b :=
  heldAt_congr (State.serveTrigger_pcu s n) (State.serveTrigger_mem s n) (by rw [State.serveTrigger_ctl]) sq b

theorem State.dmaStopped_of_running {n : Fin 6} (h : s.dma.ch[n].stopping = false) : s.dmaStopped n = s := by
  simp only [State.dmaStopped, h, Bool.false_eq_true, if_false]

/-! ## The write of a word -/

/-- A word written by channel `n`, its addresses and counter stepped, and nothing else of the transfer yet (62_devices R706). -/
def State.wordStored (s : State) (n : Fin 6) (m : DmaModes) (ds : DmaSpace) (v : Word) : State :=
  let c := s.dma.ch[n]
  let level := dmaLevel m c.dco.toNat
  let t := (s.dmaWrite ds c.ddr v).withChannel n { c with
    dsr := dmaNext s.dma.dor m.src c.dsr level
    ddr := dmaNext s.dma.dor m.dst c.ddr level
    dco := BitVec.ofNat 24 (dmaCount m c.dco.toNat c.preload.toNat)
    busy := true }
  { t with dma := { t.dma with last := n, held := none } }

variable {n : Fin 6} {m : DmaModes} {ds : DmaSpace} {v : Word}

theorem State.wordStored_keeps :
    (s.wordStored n m ds v).alu = s.alu ∧ (s.wordStored n m ds v).agu = s.agu ∧ (s.wordStored n m ds v).pcu = s.pcu ∧
    (s.wordStored n m ds v).cache = s.cache ∧ (s.wordStored n m ds v).irq = s.irq ∧
    (s.wordStored n m ds v).dma.dtd = s.dma.dtd ∧ (s.wordStored n m ds v).dma.held = none := by
  simp [State.wordStored, State.dmaWrite_keeps]

theorem heldAt_wordStored (sq : DmaSpace) (b : Word) :
    heldAt (s.wordStored n m ds v) sq b = heldAt (s.dmaWrite ds s.dma.ch[n].ddr v) sq b :=
  heldAt_congr rfl rfl rfl sq b

theorem State.wordStored_getElem_other {k : Fin 6} (other : k ≠ n) : (s.wordStored n m ds v).dma.ch[k] = s.dma.ch[k] := by
  obtain ⟨-, -, -, dma, -⟩ := s.dmaWrite_keeps ds s.dma.ch[n].ddr v
  exact (State.withChannel_getElem n k _).trans ((if_neg other).trans (by rw [dma]))

theorem State.wordStored_getElem : (s.wordStored n m ds v).dma.ch[n] = { s.dma.ch[n] with
    dsr := dmaNext s.dma.dor m.src s.dma.ch[n].dsr (dmaLevel m s.dma.ch[n].dco.toNat)
    ddr := dmaNext s.dma.dor m.dst s.dma.ch[n].ddr (dmaLevel m s.dma.ch[n].dco.toNat)
    dco := BitVec.ofNat 24 (dmaCount m s.dma.ch[n].dco.toNat s.dma.ch[n].preload.toNat)
    busy := true } :=
  (State.withChannel_getElem n n _).trans (if_pos rfl)

/-- The write of a word, then what it ends: the block, the unit of the trigger, the channel (62_devices R706, R707). -/
theorem State.dmaStore_eq : s.dmaStore n m ds v =
    let c := s.dma.ch[n]
    let level := dmaLevel m c.dco.toNat
    let t := if level = 3 then (s.wordStored n m ds v).endOfBlock n else s.wordStored n m ds v
    (if dmaUnitEnds (dcrDtm c.dcr) level && !(c.stopping && dcrDe c.dcr) then t.serveTrigger n else t).dmaStopped n := rfl

theorem unitEnds_three (dtm : Nat) : unitEnds dtm 3 = true := by simp [unitEnds]

section
variable (running : s.dma.ch[n].stopping = false)
include running

theorem State.dmaStore_of_running : s.dmaStore n m ds v =
    let level := dmaLevel m s.dma.ch[n].dco.toNat
    let t := if level = 3 then (s.wordStored n m ds v).endOfBlock n else s.wordStored n m ds v
    if unitEnds (dcrDtm s.dma.ch[n].dcr).toNat level then t.serveTrigger n else t := by
  have stored : (s.wordStored n m ds v).dma.ch[n].stopping = false := by rw [State.wordStored_getElem]; exact running
  have ended (u : State) : (u.endOfBlock n).dma.ch[n].stopping = u.dma.ch[n].stopping := by
    rw [State.endOfBlock_getElem, if_pos rfl]; rfl
  have served (u : State) : (u.serveTrigger n).dma.ch[n].stopping = u.dma.ch[n].stopping := by
    rw [State.serveTrigger_getElem, if_pos rfl]
  extract_lets level t
  have whole : s.dmaStore n m ds v =
      (if unitEnds (dcrDtm s.dma.ch[n].dcr).toNat level then t.serveTrigger n else t).dmaStopped n := by
    simp only [State.dmaStore_eq, running, Bool.false_and, Bool.not_false, Bool.and_true, dmaUnitEnds_eq, t, level]
  have word : t.dma.ch[n].stopping = false := by
    dsimp only [t]
    split
    · exact (ended _).trans stored
    · exact stored
  rw [whole]
  refine State.dmaStopped_of_running ?_
  split
  · exact (served t).trans word
  · exact word

/-- The write of the last word of a block: DTD, DE, the other channels' triggers and the interrupt, and the trigger served. -/
theorem State.dmaStore_of_last (last : dmaLevel m s.dma.ch[n].dco.toNat = 3) :
    s.dmaStore n m ds v = ((s.wordStored n m ds v).endOfBlock n).serveTrigger n := by
  simp only [State.dmaStore_of_running running, last, unitEnds_three, if_true]

theorem State.dmaStore_of_not_last (notLast : dmaLevel m s.dma.ch[n].dco.toNat ≠ 3) : s.dmaStore n m ds v =
    if unitEnds (dcrDtm s.dma.ch[n].dcr).toNat (dmaLevel m s.dma.ch[n].dco.toNat) then (s.wordStored n m ds v).serveTrigger n
    else s.wordStored n m ds v := by
  simp only [State.dmaStore_of_running running, notLast, if_false]

/-- What the end of the word, of the unit or of the block leaves as the write left it. -/
theorem State.dmaStore_keeps : (s.dmaStore n m ds v).pcu = s.pcu ∧ (s.dmaStore n m ds v).alu = s.alu ∧
    (s.dmaStore n m ds v).agu = s.agu ∧ (s.dmaStore n m ds v).cache = s.cache ∧ (s.dmaStore n m ds v).dma.held = none ∧
    ∀ sq b, heldAt (s.dmaStore n m ds v) sq b = heldAt (s.dmaWrite ds s.dma.ch[n].ddr v) sq b := by
  obtain ⟨alu, agu, pcu, cache, -, -, held⟩ := s.wordStored_keeps (n := n) (m := m) (ds := ds) (v := v)
  by_cases last : dmaLevel m s.dma.ch[n].dco.toNat = 3
  · obtain ⟨alu', agu', pcu', -, cache', -, held'⟩ := (s.wordStored n m ds v).endOfBlock_keeps n
    rw [State.dmaStore_of_last running last]
    refine ⟨pcu'.trans pcu, alu'.trans alu, agu'.trans agu, cache'.trans cache, held'.trans held, fun sq b => ?_⟩
    rw [heldAt_serveTrigger, heldAt_endOfBlock, heldAt_wordStored]
  · rw [State.dmaStore_of_not_last running last]
    split
    · exact ⟨pcu, alu, agu, cache, held, fun sq b => by rw [heldAt_serveTrigger, heldAt_wordStored]⟩
    · exact ⟨pcu, alu, agu, cache, held, heldAt_wordStored⟩

/-- The channel after its word. -/
theorem State.dmaStore_getElem :
    let c := s.dma.ch[n]
    let level := dmaLevel m c.dco.toNat
    let ends := unitEnds (dcrDtm c.dcr).toNat level
    (s.dmaStore n m ds v).dma.ch[n] = { c with
      dsr := dmaNext s.dma.dor m.src c.dsr level
      ddr := dmaNext s.dma.dor m.dst c.ddr level
      dco := BitVec.ofNat 24 (dmaCount m c.dco.toNat c.preload.toNat)
      dcr := if level = 3 then c.blockEnded.dcr else c.dcr
      trig := c.trig && !ends
      busy := !ends } := by
  dsimp only
  by_cases last : dmaLevel m s.dma.ch[n].dco.toNat = 3
  · rw [State.dmaStore_of_last running last, State.serveTrigger_getElem, if_pos rfl, State.endOfBlock_getElem, if_pos rfl,
      State.wordStored_getElem]
    simp only [last, unitEnds_three, if_true, Bool.not_true, Bool.and_false]
    rfl
  · rw [State.dmaStore_of_not_last running last, if_neg last]
    split
    · next ends =>
      rw [State.serveTrigger_getElem, if_pos rfl, State.wordStored_getElem, ends, Bool.not_true, Bool.and_false]
    · next more =>
      rw [State.wordStored_getElem, Bool.eq_false_of_not_eq_true more, Bool.not_false, Bool.and_true]

/-- Another channel latches a trigger if it waits for the block's end, and is else as before (62_devices R707). -/
theorem State.dmaStore_getElem_other {k : Fin 6} (other : k ≠ n) : (s.dmaStore n m ds v).dma.ch[k] =
    if dmaLevel m s.dma.ch[n].dco.toNat = 3 then s.dma.ch[k].fired (BitVec.ofNat 5 (4 + n.val)) else s.dma.ch[k] := by
  split
  · next last =>
    rw [State.dmaStore_of_last running last, State.serveTrigger_getElem, if_neg other, State.endOfBlock_getElem,
      if_neg other, State.wordStored_getElem_other other]
  · next last =>
    rw [State.dmaStore_of_not_last running last]
    split
    · rw [State.serveTrigger_getElem, if_neg other, State.wordStored_getElem_other other]
    · exact State.wordStored_getElem_other other

theorem State.dmaStore_dtd_irq_of_not_last (notLast : dmaLevel m s.dma.ch[n].dco.toNat ≠ 3) :
    (s.dmaStore n m ds v).dma.dtd = s.dma.dtd ∧ (s.dmaStore n m ds v).irq = s.irq := by
  obtain ⟨-, -, -, -, irq, dtd, -⟩ := s.wordStored_keeps (n := n) (m := m) (ds := ds) (v := v)
  rw [State.dmaStore_of_not_last running notLast]
  split <;> exact ⟨dtd, irq⟩

theorem State.dmaStore_of_clears (last : dmaLevel m s.dma.ch[n].dco.toNat = 3) (mode : (dcrDtm s.dma.ch[n].dcr).toNat < 4) :
    (s.dmaStore n m ds v).dma.dtd.getLsbD n.val = true ∧
    (dcrDie s.dma.ch[n].dcr = true → (s.dmaStore n m ds v).irq.pend.getLsbD (12 + n.val) = true) := by
  have dcr : (s.wordStored n m ds v).dma.ch[n].dcr = s.dma.ch[n].dcr := by rw [State.wordStored_getElem]
  obtain ⟨dtd, pend⟩ := State.endOfBlock_of_clears (s := s.wordStored n m ds v) (n := n) (by rwa [dcr])
  rw [State.dmaStore_of_last running last]
  exact ⟨by simp [dtd], fun die => pend (by rwa [dcr])⟩

theorem State.dmaStore_of_keeps (last : dmaLevel m s.dma.ch[n].dco.toNat = 3) (mode : 4 ≤ (dcrDtm s.dma.ch[n].dcr).toNat) :
    ((s.dmaStore n m ds v).dma.dtd.getLsbD n.val = true ∨ (s.dmaStore n m ds v).dma.dtd = s.dma.dtd) ∧
    ((dcrDie s.dma.ch[n].dcr = true ∧ (s.dmaStore n m ds v).irq.pend.getLsbD (12 + n.val) = true) ∨
      (s.dmaStore n m ds v).irq = s.irq) := by
  have dcr : (s.wordStored n m ds v).dma.ch[n].dcr = s.dma.ch[n].dcr := by rw [State.wordStored_getElem]
  obtain ⟨-, -, -, -, irq, dtd, -⟩ := s.wordStored_keeps (n := n) (m := m) (ds := ds) (v := v)
  have ended := State.endOfBlock_of_keeps (s := s.wordStored n m ds v) (n := n) (by rwa [dcr])
  rw [dcr, irq, dtd] at ended
  rw [State.dmaStore_of_last running last]
  exact ⟨ended.1.imp_left fun set => by simp [set], ended.2⟩

end

end Sys2Proof.Machine
end

section
/-!
The step in which the DMA has its turn (62_devices R706, R709; log 18).
-/
namespace Sys2Proof.Machine

variable {s : State} {n : Fin 6} {ss ds : DmaSpace} {m : DmaModes}

/-- Channel `n` can move words from space `ss` to `ds`, none packed into bytes: no code of its DCR is reserved, and software has
not written its registers while it was busy (62_devices R701 to R705; U48, U49). -/
structure CanMove (s : State) (n : Fin 6) (ss ds : DmaSpace) (m : DmaModes) : Prop where
  upset : s.dma.ch[n].upset = false
  dtm : (dcrDtm s.dma.ch[n].dcr).toNat < 6
  modes : dmaModes s.dma.ch[n].dcr = some m
  source : dmaSpace (s.dma.ch[n].dcr.extractLsb' 0 2) = some ss
  destination : dmaSpace (s.dma.ch[n].dcr.extractLsb' 2 2) = some ds
  aar : ∀ j : Fin 4, s.port.aar[j] = 0

theorem dmaTransfer_of_read (h : CanMove s n ss ds m) (held : s.dma.held = none) :
    dmaTransfer n s = .next (s.dmaLoad n (s.dmaRead ss s.dma.ch[n].dsr)) := by
  obtain ⟨upset, dtm, modes, source, destination, aar⟩ := h
  simp only [dmaTransfer, upset, Nat.not_le.2 dtm, modes, source, destination, State.aarReserved_of_aar aar, Bool.or_self,
    Bool.false_eq_true, if_false, held]

theorem dmaTransfer_of_write {k : Fin 6} {v : Word} (h : CanMove s n ss ds m) (held : s.dma.held = some (k, v)) :
    dmaTransfer n s = .next (s.dmaStore n m ds v) := by
  obtain ⟨upset, dtm, modes, source, destination, aar⟩ := h
  simp only [dmaTransfer, upset, Nat.not_le.2 dtm, modes, source, destination, State.aarReserved_of_aar aar, Bool.or_self,
    Bool.false_eq_true, if_false, held]

/-- A reserved code of the mode, an address or a space refuses the transfer (U49). -/
theorem dmaTransfer_of_reserved (upset : s.dma.ch[n].upset = false)
    (reserved : 6 ≤ (dcrDtm s.dma.ch[n].dcr).toNat ∨ dmaModes s.dma.ch[n].dcr = none ∨
      dmaSpace (s.dma.ch[n].dcr.extractLsb' 0 2) = none ∨ dmaSpace (s.dma.ch[n].dcr.extractLsb' 2 2) = none) :
    dmaTransfer n s = .refused .reservedDmaCode := by
  simp only [dmaTransfer, upset, Bool.false_eq_true, if_false]
  split
  · rfl
  · next dtm =>
    obtain modes | source | destination := reserved.resolve_left dtm
    · rw [modes]
    · rw [source]; cases dmaModes s.dma.ch[n].dcr <;> rfl
    · rw [destination]; cases dmaModes s.dma.ch[n].dcr <;> cases dmaSpace (s.dma.ch[n].dcr.extractLsb' 0 2) <;> rfl

/-- Memory that answers does not wait for the bus. -/
theorem bus_of_plainPlace {sp : DmaSpace} {a : Word} (plain : PlainPlace s sp a) : (s.ebd && s.dmaExternal sp a) = false := by
  cases sp with
  | program => exact plain.2
  | data sp => exact plain.bus

theorem State.not_dmaBlocked_of_read (h : CanMove s n ss ds m) (held : s.dma.held = none)
    (plain : PlainPlace s ss s.dma.ch[n].dsr) : s.dmaBlocked n = false := by
  simpa only [State.dmaBlocked, State.dmaHolds, held, h.source, Bool.false_eq_true, if_false] using bus_of_plainPlace plain

theorem State.not_dmaBlocked_of_write {v : Word} (h : CanMove s n ss ds m) (held : s.dma.held = some (n, v))
    (plain : PlainPlace s ds s.dma.ch[n].ddr) : s.dmaBlocked n = false := by
  simpa only [State.dmaBlocked, State.dmaHolds, held, h.destination, beq_self_eq_true, if_true] using bus_of_plainPlace plain

/-- While a channel has a word to move and need not wait, a free bit says whose turn the next step is (log 18). -/
theorem live_of_dmaTurn (env : s.env = []) (phase : s.ctl.phase = .normal) (request : s.once.request = false)
    (active : s.dmaActive = some n) (notBlocked : s.dmaBlocked n = false) :
    live s = if s.freeBit .dmaTurn 0 then dmaTransfer n s else coreOr coreTurn s := by
  simp only [live, env, turn, phase, State.debugDue, request, Bool.false_and, Bool.false_eq_true, if_false, dmaOr, active,
    notBlocked, Bool.not_false, Bool.true_and]

end Sys2Proof.Machine

open Sys2Proof Sys2Proof.Machine

/-- Settles O56: the read and the write of a word (`dmaTransfer_of_read`, `dmaTransfer_of_write`), whose turn it is
(`live_of_dmaTurn`), and what the write leaves of the memories, the channels and DSTR (the lemmas about `State.dmaStore`), by the
level that the spec's fields of the counter give. -/
theorem dma_word : Obligations.Dma_word := by
  refine ⟨fun s n ss ds srcCode dstCode l m env phase request active => ?_, fun s n upset reserved => ?_⟩
  · intro c next upset running dtm codes spaces aar level
    obtain ⟨source, destination⟩ := dmaSpace_of_codes spaces
    have moves : CanMove s n ss ds (modesOf (srcCode, dstCode, l, m)) :=
      ⟨upset, dtm, by rw [dmaModes_eq, codes, Option.map_some], source, destination, aar⟩
    obtain ⟨srcLt, dstLt⟩ := dmaCodes_lt codes
    have turnOf (t : State) (access : dmaTransfer n s = .next t) (notBlocked : s.dmaBlocked n = false) : next t := by
      refine ⟨access, ?_⟩
      rw [step, live_of_dmaTurn env phase request active notBlocked, access]
      cases s.freeBit .dmaTurn 0 <;> rfl
    refine ⟨fun held plain => ?read, fun v held plain => ?write⟩
    case read =>
      refine turnOf _ ?_ (State.not_dmaBlocked_of_read moves held plain)
      rw [dmaTransfer_of_read moves held, State.dmaRead_of_plain aar plain]
      rfl
    case write =>
      have levels : dmaLevel (modesOf (srcCode, dstCode, l, m)) c.dco.toNat = level := dmaLevel_eq _ _ l m c.dco
      have channel := State.dmaStore_getElem (m := modesOf (srcCode, dstCode, l, m)) (ds := ds) (v := v) running
      dsimp only at channel
      rw [levels] at channel
      obtain ⟨pcu, alu, agu, cache, released, places⟩ := State.dmaStore_keeps (m := modesOf (srcCode, dstCode, l, m)) (ds := ds)
        (v := v) running
      refine ⟨s.dmaStore n (modesOf (srcCode, dstCode, l, m)) ds v,
        turnOf _ (dmaTransfer_of_write moves held) (State.not_dmaBlocked_of_write moves held plain), pcu, alu, agu, cache,
        released, ?same, ?other, ?dsr, ?ddr, ?dco, ?trig, ?busy, ?channels, ?more, ?clears, ?keeps⟩
      case same => rw [places, State.dmaWrite_of_aar aar, heldAt_dmaWriteWord_same plain]
      case other => exact fun sq b other => by rw [places, State.dmaWrite_of_aar aar, heldAt_dmaWriteWord_other other]
      case dsr => rw [channel]; exact dmaNext_eq_addressAfter _ srcLt _ _
      case ddr => rw [channel]; exact dmaNext_eq_addressAfter _ dstLt _ _
      case dco => rw [channel]; exact dmaFields_dmaCount _ _ l m _ _
      case trig => rw [channel]
      case busy => rw [channel]
      case channels =>
        intro k other
        rw [State.dmaStore_getElem_other running other, levels]
        by_cases last : level = 3
        · rw [if_pos last, beq_iff_eq.2 last]; rfl
        · rw [if_neg last, beq_false_of_ne last, Bool.false_and, Bool.false_and, Bool.or_false]
      case more =>
        intro more
        obtain ⟨dtd, irq⟩ := State.dmaStore_dtd_irq_of_not_last (v := v) (ds := ds) running (by rwa [levels])
        exact ⟨dtd, irq, by rw [channel, if_neg more]⟩
      case clears =>
        intro last mode
        obtain ⟨dtd, pend⟩ := State.dmaStore_of_clears (v := v) (ds := ds) running (levels.trans last) mode
        exact ⟨dtd, by rw [channel, if_pos last]; exact if_neg (Nat.not_le.2 mode), pend⟩
      case keeps =>
        intro last mode
        obtain ⟨dtd, pend⟩ := State.dmaStore_of_keeps (v := v) (ds := ds) running (levels.trans last) mode
        exact ⟨by rw [channel, if_pos last]; exact if_pos mode, dtd, pend⟩
  · refine dmaTransfer_of_reserved upset ?_
    rw [dmaModes_eq, Option.map_eq_none_iff]
    rcases reserved with dtm | codes | source | destination
    · exact .inl dtm
    · exact .inr (.inl codes)
    · exact .inr (.inr (.inl (by rw [source, dmaSpace_reserved])))
    · exact .inr (.inr (.inr (by rw [destination, dmaSpace_reserved])))

end

section
/-!
Decoding the encoding (30_encoding R150 to R171). `glued` lets `simp` take a word apart into its fields: a word hits its row,
and the row reads the operands back from its fields. A word of the parallel format hits none of those rows; its two parts are
read back by themselves.
-/
namespace Sys2Proof

/-! ## Words made of fields -/

/-- Two fields side by side, as a word of `N` bits: `simp` sees the width as it stands, where `x ++ y` has a sum. -/
def glued {N a b : Nat} (h : N = a + b) (x : BitVec a) (y : BitVec b) : BitVec N := (x ++ y).cast h.symm

theorem append_eq_glued {a b : Nat} (x : BitVec a) (y : BitVec b) : x ++ y = glued rfl x y := rfl

@[simp] theorem glued_extract_high {N a b k n : Nat} (h : N = a + b) (x : BitVec a) (y : BitVec b) (hk : b ≤ k) :
    (glued h x y).extractLsb' k n = x.extractLsb' (k - b) n := by
  subst h; exact extract_high x y hk

@[simp] theorem glued_extract_low {N a b k n : Nat} (h : N = a + b) (x : BitVec a) (y : BitVec b) (hk : k + n ≤ b) :
    (glued h x y).extractLsb' k n = y.extractLsb' k n := by
  subst h; exact extract_low x y hk

@[simp] theorem glued_eq_iff {N a b : Nat} (h : N = a + b) (x : BitVec a) (y : BitVec b) (p : BitVec N) :
    glued h x y = p ↔ x = p.extractLsb' b a ∧ y = p.extractLsb' 0 b := by
  subst h
  constructor
  · rintro rfl
    constructor
    · rw [glued_extract_high _ _ _ (Nat.le_refl b), Nat.sub_self, extract_all]
    · rw [glued_extract_low _ _ _ (Nat.zero_add b).le, extract_all]
  · rintro ⟨rfl, rfl⟩
    exact BitVec.extractLsb'_append_extractLsb'_eq_extractLsb' (by omega) |>.trans (by simp)

@[simp] theorem glued_and {N a b : Nat} (h : N = a + b) (x : BitVec a) (y : BitVec b) (m : BitVec N) :
    glued h x y &&& m = glued h (x &&& m.extractLsb' b a) (y &&& m.extractLsb' 0 b) := by
  subst h
  rw [eq_comm, glued_eq_iff]
  constructor <;> rw [BitVec.extractLsb'_and]
  · rw [glued_extract_high _ _ _ (Nat.le_refl b), Nat.sub_self, extract_all]
  · rw [glued_extract_low _ _ _ (Nat.zero_add b).le, extract_all]

theorem glued_assoc {N M a b c : Nat} (h : N = M + c) (h' : M = a + b) (x : BitVec a) (y : BitVec b) (z : BitVec c) :
    glued h (glued h' x y) z = glued (h.trans (by omega)) x (glued (N := b + c) rfl y z) := by
  subst h' h
  simp [glued, BitVec.append_assoc]

theorem fin8OfBits_extract (c : BitVec 3) (n : Fin 8) :
    fin8OfBits ((c ++ fin8Bits n : BitVec 6).extractLsb' 0 3) = n := by
  rw [extract_low _ _ (by decide), extract_all, fin8OfBits_fin8Bits]

theorem extract_append_extract {a b : Nat} (x : BitVec (a + b)) : x.extractLsb' b a ++ x.extractLsb' 0 b = x := by
  rw [append_eq_glued, glued_eq_iff]
  exact ⟨rfl, rfl⟩

@[simp] theorem AccOrReg.ofBits_bits (v : AccOrReg) : AccOrReg.ofBits v.bits = some v := by
  cases v with
  | other => rfl
  | reg r => cases r <;> rfl

@[simp] theorem Ea.ofBits_bits (e : Ea) (x : Word) : Ea.ofBits e.bits (e.extWords.head?.getD x) = some e := by
  cases e with
  | abs a => simp [Ea.ofBits, Ea.bits, Ea.extWords, fin8OfBits]
  | imm a => simp [Ea.ofBits, Ea.bits, Ea.extWords, fin8OfBits]
  | _ n => simp [Ea.ofBits, Ea.bits, fin8OfBits_extract, extract_high _ _ (Nat.le_refl 3)]

theorem Ea.ofBits_bits_of_registerOnly {e : Ea} (h : e.registerOnly = true) (x : Word) :
    Ea.ofBits e.bits x = some e := by
  have := Ea.ofBits_bits e x
  cases e <;> simp_all [Ea.registerOnly, Ea.extWords]

theorem Ea.bits_mode_of_registerOnly {e : Ea} (h : e.registerOnly = true) : e.bits &&& 0b111000#6 ≠ 0b110000#6 := by
  cases e with
  | abs a => exact absurd h (by simp [Ea.registerOnly])
  | imm a => exact absurd h (by simp [Ea.registerOnly])
  | _ n => rw [Ea.bits, append_eq_glued]; simp

/-- Decoding the words of the instruction gives it back, whatever word follows them. -/
def Reads (i : Instr) : Prop := ∀ x : Word, i.wf = true → decode i.opWord (i.extWords.headD x) = .ok i

theorem decode_of_find {w x : Word} {i : Instr} {r : Row 24 Instr} (h : nonparallelRows.find? (Row.hit w) = some r)
    (hb : r.build w x = some i) (hi : i.wf = true) : decode w x = .ok i := by
  simp [decode, h, hb, hi]

/-- A row reads back its instruction where the word hits neither long-displacement row. -/
theorem read_row_of_first {i : Instr} {w : Word} (k : Nat) {r : Row 24 Instr} (hk : nonparallelRows[k + 2]? = some r)
    (hw : i.opWord = w) (hit : w &&& r.mask = r.pat)
    (hf : i.wf = true → w &&& 0xFFF880#24 ≠ 0x0A7080#24 ∧ w &&& 0xFFF880#24 ≠ 0x0B7080#24)
    (hb : ∀ x, i.wf = true → r.build w (i.extWords.headD x) = some i) : Reads i := fun x hi => by
  rw [hw]
  exact decode_of_find (find_nonparallel (hf hi).1 (hf hi).2 hk (by simp [Row.hit, hit])) (hb x hi) hi

theorem ne_of_apart {w m m' p p' : Word} (a : (m &&& m' &&& (p ^^^ p') != 0) = true) (h : w &&& m' = p') : w &&& m ≠ p := by
  have := Row.not_hit_of_apart (r := (⟨m, p, fun _ _ => none⟩ : Row 24 Instr)) (q := ⟨m', p', fun _ _ => none⟩) (w := w) a
    (by simp [Row.hit, h])
  simpa [Row.hit] using this

/-- A row that is apart from the two long-displacement rows reads back the words of its instruction. -/
theorem read_row {i : Instr} {w : Word} (k : Nat) {r : Row 24 Instr} (hk : nonparallelRows[k + 2]? = some r)
    (hx : (0xFFF880#24 &&& r.mask &&& (0x0A7080#24 ^^^ r.pat) != 0) = true)
    (hy : (0xFFF880#24 &&& r.mask &&& (0x0B7080#24 ^^^ r.pat) != 0) = true) (hw : i.opWord = w)
    (hit : w &&& r.mask = r.pat) (hb : ∀ x, i.wf = true → r.build w (i.extWords.headD x) = some i) : Reads i :=
  read_row_of_first k hk hw hit (fun _ => ⟨ne_of_apart hx hit, ne_of_apart hy hit⟩) hb

/-! ## The rows of the non-parallel format, in the order of the table -/

theorem Reads.addShort (i : BitVec 6) (d : Acc) : Reads (.addShort i d) :=
  read_row 0 rfl rfl rfl (by delta Instr.opWord; simp only [append_eq_glued]; rfl) (by simp) (by delta Instr.extWords; simp)

theorem Reads.addImm (d : Acc) (imm : Word) : Reads (.addImm d imm) :=
  read_row 1 rfl rfl rfl (by delta Instr.opWord; simp only [append_eq_glued]; rfl) (by simp) (by delta Instr.extWords; simp)

theorem Reads.andShort (i : BitVec 6) (d : Acc) : Reads (.andShort i d) :=
  read_row 2 rfl rfl rfl (by delta Instr.opWord; simp only [append_eq_glued]; rfl) (by simp) (by delta Instr.extWords; simp)

theorem Reads.andImm (d : Acc) (imm : Word) : Reads (.andImm d imm) :=
  read_row 3 rfl rfl rfl (by delta Instr.opWord; simp only [append_eq_glued]; rfl) (by simp) (by delta Instr.extWords; simp)

theorem Reads.andi (i : BitVec 8) (e : PcuByte) : Reads (.andi i e) :=
  read_row 4 rfl rfl rfl (by delta Instr.opWord; simp only [append_eq_glued]; rfl) (by simp) (by delta Instr.extWords; simp)

theorem Reads.aslNum (i : BitVec 6) (s : Acc) (d : Acc) : Reads (.aslNum i s d) :=
  read_row 5 rfl rfl rfl (by delta Instr.opWord; simp only [append_eq_glued]; rfl) (by simp) (by delta Instr.extWords; simp)

theorem Reads.aslBy (c : ShiftSrc) (s : Acc) (d : Acc) : Reads (.aslBy c s d) :=
  read_row 6 rfl rfl rfl (by delta Instr.opWord; simp only [append_eq_glued]; rfl) (by simp) (by delta Instr.extWords; simp)

theorem Reads.asrNum (i : BitVec 6) (s : Acc) (d : Acc) : Reads (.asrNum i s d) :=
  read_row 7 rfl rfl rfl (by delta Instr.opWord; simp only [append_eq_glued]; rfl) (by simp) (by delta Instr.extWords; simp)

theorem Reads.asrBy (c : ShiftSrc) (s : Acc) (d : Acc) : Reads (.asrBy c s d) :=
  read_row 8 rfl rfl rfl (by delta Instr.opWord; simp only [append_eq_glued]; rfl) (by simp) (by delta Instr.extWords; simp)

theorem Reads.bccLong (c : Cond) (disp : Word) : Reads (.bccLong c disp) :=
  read_row 9 rfl rfl rfl (by delta Instr.opWord; simp only [append_eq_glued]; rfl) (by simp) (by delta Instr.extWords; simp)

theorem Reads.bccShort (c : Cond) (disp : BitVec 9) : Reads (.bccShort c disp) :=
  read_row 10 rfl rfl rfl (by delta Instr.opWord; simp only [append_eq_glued]; rfl) (by simp)
    (by delta Instr.extWords; simp [extract_append_extract (a := 4) (b := 5)])

theorem Reads.bccReg (c : Cond) (rn : Fin 8) : Reads (.bccReg c rn) :=
  read_row 11 rfl rfl rfl (by delta Instr.opWord; simp only [append_eq_glued]; rfl) (by simp) (by delta Instr.extWords; simp)

theorem Reads.bchgEa (n : BitVec 5) (sp : Space) (ea : Ea) : Reads (.bchgEa n sp ea) :=
  read_row 12 rfl rfl rfl (by delta Instr.opWord; simp only [append_eq_glued]; rfl) (by simp) (by delta Instr.extWords; simp)

theorem Reads.bchgAa (n : BitVec 5) (sp : Space) (aa : BitVec 6) : Reads (.bchgAa n sp aa) :=
  read_row 13 rfl rfl rfl (by delta Instr.opWord; simp only [append_eq_glued]; rfl) (by simp) (by delta Instr.extWords; simp)

theorem Reads.bchgPp (n : BitVec 5) (sp : Space) (pp : BitVec 6) : Reads (.bchgPp n sp pp) :=
  read_row 14 rfl rfl rfl (by delta Instr.opWord; simp only [append_eq_glued]; rfl) (by simp) (by delta Instr.extWords; simp)

theorem Reads.bchgQq (n : BitVec 5) (sp : Space) (qq : BitVec 6) : Reads (.bchgQq n sp qq) :=
  read_row 15 rfl rfl rfl (by delta Instr.opWord; simp only [append_eq_glued]; rfl) (by simp) (by delta Instr.extWords; simp)

theorem Reads.bchgReg (n : BitVec 5) (r : Reg) : Reads (.bchgReg n r) :=
  read_row 16 rfl rfl rfl (by delta Instr.opWord; simp only [append_eq_glued]; rfl) (by simp) (by delta Instr.extWords; simp)

theorem Reads.bclrEa (n : BitVec 5) (sp : Space) (ea : Ea) : Reads (.bclrEa n sp ea) :=
  read_row 17 rfl rfl rfl (by delta Instr.opWord; simp only [append_eq_glued]; rfl) (by simp) (by delta Instr.extWords; simp)

theorem Reads.bclrAa (n : BitVec 5) (sp : Space) (aa : BitVec 6) : Reads (.bclrAa n sp aa) :=
  read_row 18 rfl rfl rfl (by delta Instr.opWord; simp only [append_eq_glued]; rfl) (by simp) (by delta Instr.extWords; simp)

theorem Reads.bclrPp (n : BitVec 5) (sp : Space) (pp : BitVec 6) : Reads (.bclrPp n sp pp) :=
  read_row 19 rfl rfl rfl (by delta Instr.opWord; simp only [append_eq_glued]; rfl) (by simp) (by delta Instr.extWords; simp)

theorem Reads.bclrQq (n : BitVec 5) (sp : Space) (qq : BitVec 6) : Reads (.bclrQq n sp qq) :=
  read_row 20 rfl rfl rfl (by delta Instr.opWord; simp only [append_eq_glued]; rfl) (by simp) (by delta Instr.extWords; simp)

theorem Reads.bclrReg (n : BitVec 5) (r : Reg) : Reads (.bclrReg n r) :=
  read_row 21 rfl rfl rfl (by delta Instr.opWord; simp only [append_eq_glued]; rfl) (by simp) (by delta Instr.extWords; simp)

theorem Reads.bsetEa (n : BitVec 5) (sp : Space) (ea : Ea) : Reads (.bsetEa n sp ea) :=
  read_row 22 rfl rfl rfl (by delta Instr.opWord; simp only [append_eq_glued]; rfl) (by simp) (by delta Instr.extWords; simp)

theorem Reads.bsetAa (n : BitVec 5) (sp : Space) (aa : BitVec 6) : Reads (.bsetAa n sp aa) :=
  read_row 23 rfl rfl rfl (by delta Instr.opWord; simp only [append_eq_glued]; rfl) (by simp) (by delta Instr.extWords; simp)

theorem Reads.bsetPp (n : BitVec 5) (sp : Space) (pp : BitVec 6) : Reads (.bsetPp n sp pp) :=
  read_row 24 rfl rfl rfl (by delta Instr.opWord; simp only [append_eq_glued]; rfl) (by simp) (by delta Instr.extWords; simp)

theorem Reads.bsetQq (n : BitVec 5) (sp : Space) (qq : BitVec 6) : Reads (.bsetQq n sp qq) :=
  read_row 25 rfl rfl rfl (by delta Instr.opWord; simp only [append_eq_glued]; rfl) (by simp) (by delta Instr.extWords; simp)

theorem Reads.bsetReg (n : BitVec 5) (r : Reg) : Reads (.bsetReg n r) :=
  read_row 26 rfl rfl rfl (by delta Instr.opWord; simp only [append_eq_glued]; rfl) (by simp) (by delta Instr.extWords; simp)

theorem Reads.btstEa (n : BitVec 5) (sp : Space) (ea : Ea) : Reads (.btstEa n sp ea) :=
  read_row 27 rfl rfl rfl (by delta Instr.opWord; simp only [append_eq_glued]; rfl) (by simp) (by delta Instr.extWords; simp)

theorem Reads.btstAa (n : BitVec 5) (sp : Space) (aa : BitVec 6) : Reads (.btstAa n sp aa) :=
  read_row 28 rfl rfl rfl (by delta Instr.opWord; simp only [append_eq_glued]; rfl) (by simp) (by delta Instr.extWords; simp)

theorem Reads.btstPp (n : BitVec 5) (sp : Space) (pp : BitVec 6) : Reads (.btstPp n sp pp) :=
  read_row 29 rfl rfl rfl (by delta Instr.opWord; simp only [append_eq_glued]; rfl) (by simp) (by delta Instr.extWords; simp)

theorem Reads.btstQq (n : BitVec 5) (sp : Space) (qq : BitVec 6) : Reads (.btstQq n sp qq) :=
  read_row 30 rfl rfl rfl (by delta Instr.opWord; simp only [append_eq_glued]; rfl) (by simp) (by delta Instr.extWords; simp)

theorem Reads.btstReg (n : BitVec 5) (r : Reg) : Reads (.btstReg n r) :=
  read_row 31 rfl rfl rfl (by delta Instr.opWord; simp only [append_eq_glued]; rfl) (by simp) (by delta Instr.extWords; simp)

theorem Reads.braLong (disp : Word) : Reads (.braLong disp) :=
  read_row (w := 0x0D10C0#24) 32 rfl rfl rfl rfl rfl (fun _ _ => rfl)

theorem Reads.braShort (disp : BitVec 9) : Reads (.braShort disp) :=
  read_row 33 rfl rfl rfl (by delta Instr.opWord; simp only [append_eq_glued]; rfl) (by simp)
    (by delta Instr.extWords; simp [extract_append_extract (a := 4) (b := 5)])

theorem Reads.braReg (rn : Fin 8) : Reads (.braReg rn) :=
  read_row 34 rfl rfl rfl (by delta Instr.opWord; simp only [append_eq_glued]; rfl) (by simp) (by delta Instr.extWords; simp)

theorem Reads.brclrEa (n : BitVec 5) (sp : Space) (ea : Ea) (disp : Word) : Reads (.brclrEa n sp ea disp) :=
  read_row 35 rfl rfl rfl (by delta Instr.opWord; simp only [append_eq_glued]; rfl) (by simp)
    (fun _ h => by delta Instr.extWords; simp [Ea.ofBits_bits_of_registerOnly h])

theorem Reads.brclrAa (n : BitVec 5) (sp : Space) (aa : BitVec 6) (disp : Word) : Reads (.brclrAa n sp aa disp) :=
  read_row 36 rfl rfl rfl (by delta Instr.opWord; simp only [append_eq_glued]; rfl) (by simp) (by delta Instr.extWords; simp)

theorem Reads.brclrPp (n : BitVec 5) (sp : Space) (pp : BitVec 6) (disp : Word) : Reads (.brclrPp n sp pp disp) :=
  read_row 37 rfl rfl rfl (by delta Instr.opWord; simp only [append_eq_glued]; rfl) (by simp) (by delta Instr.extWords; simp)

theorem Reads.brclrQq (n : BitVec 5) (sp : Space) (qq : BitVec 6) (disp : Word) : Reads (.brclrQq n sp qq disp) :=
  read_row 38 rfl rfl rfl (by delta Instr.opWord; simp only [append_eq_glued]; rfl) (by simp) (by delta Instr.extWords; simp)

theorem Reads.brclrReg (n : BitVec 5) (r : Reg) (disp : Word) : Reads (.brclrReg n r disp) :=
  read_row 39 rfl rfl rfl (by delta Instr.opWord; simp only [append_eq_glued]; rfl) (by simp) (by delta Instr.extWords; simp)

theorem Reads.brsetEa (n : BitVec 5) (sp : Space) (ea : Ea) (disp : Word) : Reads (.brsetEa n sp ea disp) :=
  read_row 40 rfl rfl rfl (by delta Instr.opWord; simp only [append_eq_glued]; rfl) (by simp)
    (fun _ h => by delta Instr.extWords; simp [Ea.ofBits_bits_of_registerOnly h])

theorem Reads.brsetAa (n : BitVec 5) (sp : Space) (aa : BitVec 6) (disp : Word) : Reads (.brsetAa n sp aa disp) :=
  read_row 41 rfl rfl rfl (by delta Instr.opWord; simp only [append_eq_glued]; rfl) (by simp) (by delta Instr.extWords; simp)

theorem Reads.brsetPp (n : BitVec 5) (sp : Space) (pp : BitVec 6) (disp : Word) : Reads (.brsetPp n sp pp disp) :=
  read_row 42 rfl rfl rfl (by delta Instr.opWord; simp only [append_eq_glued]; rfl) (by simp) (by delta Instr.extWords; simp)

theorem Reads.brsetQq (n : BitVec 5) (sp : Space) (qq : BitVec 6) (disp : Word) : Reads (.brsetQq n sp qq disp) :=
  read_row 43 rfl rfl rfl (by delta Instr.opWord; simp only [append_eq_glued]; rfl) (by simp) (by delta Instr.extWords; simp)

theorem Reads.brsetReg (n : BitVec 5) (r : Reg) (disp : Word) : Reads (.brsetReg n r disp) :=
  read_row 44 rfl rfl rfl (by delta Instr.opWord; simp only [append_eq_glued]; rfl) (by simp) (by delta Instr.extWords; simp)

theorem Reads.bsclrEa (n : BitVec 5) (sp : Space) (ea : Ea) (disp : Word) : Reads (.bsclrEa n sp ea disp) :=
  read_row 45 rfl rfl rfl (by delta Instr.opWord; simp only [append_eq_glued]; rfl) (by simp)
    (fun _ h => by delta Instr.extWords; simp [Ea.ofBits_bits_of_registerOnly h])

theorem Reads.bsclrAa (n : BitVec 5) (sp : Space) (aa : BitVec 6) (disp : Word) : Reads (.bsclrAa n sp aa disp) :=
  read_row 46 rfl rfl rfl (by delta Instr.opWord; simp only [append_eq_glued]; rfl) (by simp) (by delta Instr.extWords; simp)

theorem Reads.bsclrPp (n : BitVec 5) (sp : Space) (pp : BitVec 6) (disp : Word) : Reads (.bsclrPp n sp pp disp) :=
  read_row 47 rfl rfl rfl (by delta Instr.opWord; simp only [append_eq_glued]; rfl) (by simp) (by delta Instr.extWords; simp)

theorem Reads.bsclrQq (n : BitVec 5) (sp : Space) (qq : BitVec 6) (disp : Word) : Reads (.bsclrQq n sp qq disp) :=
  read_row 48 rfl rfl rfl (by delta Instr.opWord; simp only [append_eq_glued]; rfl) (by simp) (by delta Instr.extWords; simp)

theorem Reads.bsclrReg (n : BitVec 5) (r : Reg) (disp : Word) : Reads (.bsclrReg n r disp) :=
  read_row 49 rfl rfl rfl (by delta Instr.opWord; simp only [append_eq_glued]; rfl) (by simp) (by delta Instr.extWords; simp)

theorem Reads.bssetEa (n : BitVec 5) (sp : Space) (ea : Ea) (disp : Word) : Reads (.bssetEa n sp ea disp) :=
  read_row 50 rfl rfl rfl (by delta Instr.opWord; simp only [append_eq_glued]; rfl) (by simp)
    (fun _ h => by delta Instr.extWords; simp [Ea.ofBits_bits_of_registerOnly h])

theorem Reads.bssetAa (n : BitVec 5) (sp : Space) (aa : BitVec 6) (disp : Word) : Reads (.bssetAa n sp aa disp) :=
  read_row 51 rfl rfl rfl (by delta Instr.opWord; simp only [append_eq_glued]; rfl) (by simp) (by delta Instr.extWords; simp)

theorem Reads.bssetPp (n : BitVec 5) (sp : Space) (pp : BitVec 6) (disp : Word) : Reads (.bssetPp n sp pp disp) :=
  read_row 52 rfl rfl rfl (by delta Instr.opWord; simp only [append_eq_glued]; rfl) (by simp) (by delta Instr.extWords; simp)

theorem Reads.bssetQq (n : BitVec 5) (sp : Space) (qq : BitVec 6) (disp : Word) : Reads (.bssetQq n sp qq disp) :=
  read_row 53 rfl rfl rfl (by delta Instr.opWord; simp only [append_eq_glued]; rfl) (by simp) (by delta Instr.extWords; simp)

theorem Reads.bssetReg (n : BitVec 5) (r : Reg) (disp : Word) : Reads (.bssetReg n r disp) :=
  read_row 54 rfl rfl rfl (by delta Instr.opWord; simp only [append_eq_glued]; rfl) (by simp) (by delta Instr.extWords; simp)

theorem Reads.brkcc (c : Cond) : Reads (.brkcc c) :=
  read_row 55 rfl rfl rfl (by delta Instr.opWord; simp only [append_eq_glued]; rfl) (by simp) (by delta Instr.extWords; simp)

theorem Reads.bsccLong (c : Cond) (disp : Word) : Reads (.bsccLong c disp) :=
  read_row 56 rfl rfl rfl (by delta Instr.opWord; simp only [append_eq_glued]; rfl) (by simp) (by delta Instr.extWords; simp)

theorem Reads.bsccShort (c : Cond) (disp : BitVec 9) : Reads (.bsccShort c disp) :=
  read_row 57 rfl rfl rfl (by delta Instr.opWord; simp only [append_eq_glued]; rfl) (by simp)
    (by delta Instr.extWords; simp [extract_append_extract (a := 4) (b := 5)])

theorem Reads.bsccReg (c : Cond) (rn : Fin 8) : Reads (.bsccReg c rn) :=
  read_row 58 rfl rfl rfl (by delta Instr.opWord; simp only [append_eq_glued]; rfl) (by simp) (by delta Instr.extWords; simp)

theorem Reads.bsrLong (disp : Word) : Reads (.bsrLong disp) :=
  read_row (w := 0x0D1080#24) 59 rfl rfl rfl rfl rfl (fun _ _ => rfl)

theorem Reads.bsrShort (disp : BitVec 9) : Reads (.bsrShort disp) :=
  read_row 60 rfl rfl rfl (by delta Instr.opWord; simp only [append_eq_glued]; rfl) (by simp)
    (by delta Instr.extWords; simp [extract_append_extract (a := 4) (b := 5)])

theorem Reads.bsrReg (rn : Fin 8) : Reads (.bsrReg rn) :=
  read_row 61 rfl rfl rfl (by delta Instr.opWord; simp only [append_eq_glued]; rfl) (by simp) (by delta Instr.extWords; simp)

theorem Reads.clb (s : Acc) (d : Acc) : Reads (.clb s d) :=
  read_row 62 rfl rfl rfl (by delta Instr.opWord; simp only [append_eq_glued]; rfl) (by simp) (by delta Instr.extWords; simp)

theorem Reads.cmpShort (i : BitVec 6) (d : Acc) : Reads (.cmpShort i d) :=
  read_row 63 rfl rfl rfl (by delta Instr.opWord; simp only [append_eq_glued]; rfl) (by simp) (by delta Instr.extWords; simp)

theorem Reads.cmpImm (d : Acc) (imm : Word) : Reads (.cmpImm d imm) :=
  read_row 64 rfl rfl rfl (by delta Instr.opWord; simp only [append_eq_glued]; rfl) (by simp) (by delta Instr.extWords; simp)

theorem Reads.cmpu (g : AccOrReg) (d : Acc) : Reads (.cmpu g d) :=
  read_row 65 rfl rfl rfl (by delta Instr.opWord; simp only [append_eq_glued]; rfl) (by simp) (by delta Instr.extWords; simp)

theorem Reads.debug : Reads .debug :=
  read_row 66 rfl rfl rfl rfl rfl (fun _ _ => rfl)

theorem Reads.debugcc (c : Cond) : Reads (.debugcc c) :=
  read_row 67 rfl rfl rfl (by delta Instr.opWord; simp only [append_eq_glued]; rfl) (by simp) (by delta Instr.extWords; simp)

theorem Reads.dec (d : Acc) : Reads (.dec d) :=
  read_row 68 rfl rfl rfl (by delta Instr.opWord; simp only [append_eq_glued]; rfl) (by simp) (by delta Instr.extWords; simp)

theorem Reads.div (s : XYReg) (d : Acc) : Reads (.div s d) :=
  read_row 69 rfl rfl rfl (by delta Instr.opWord; simp only [append_eq_glued]; rfl) (by simp) (by delta Instr.extWords; simp)

theorem Reads.dmac (sg : Sign2) (q : MulOps) (d : Acc) (minus : Bool) : Reads (.dmac sg q d minus) :=
  read_row 70 rfl rfl rfl (by delta Instr.opWord; simp only [append_eq_glued]; rfl) (by simp)
    (by delta Instr.extWords; simp [extract_append_extract (a := 1) (b := 1)])

theorem Reads.doEa (sp : Space) (ea : Ea) (la : Word) : Reads (.doEa sp ea la) :=
  read_row 71 rfl rfl rfl (by delta Instr.opWord; simp only [append_eq_glued]; rfl) (by simp)
    (fun _ h => by delta Instr.extWords; simp [Ea.ofBits_bits_of_registerOnly h])

theorem Reads.doAa (sp : Space) (aa : BitVec 6) (la : Word) : Reads (.doAa sp aa la) :=
  read_row 72 rfl rfl rfl (by delta Instr.opWord; simp only [append_eq_glued]; rfl) (by simp) (by delta Instr.extWords; simp)

theorem Reads.doNum (cnt : BitVec 12) (la : Word) : Reads (.doNum cnt la) :=
  read_row 73 rfl rfl rfl (by delta Instr.opWord; simp only [append_eq_glued]; rfl) (by simp)
    (by delta Instr.extWords; simp [extract_append_extract (a := 4) (b := 8)])

theorem Reads.doReg (r : Reg) (la : Word) : Reads (.doReg r la) :=
  read_row 74 rfl rfl rfl (by delta Instr.opWord; simp only [append_eq_glued]; rfl) (by simp) (by delta Instr.extWords; simp)

theorem Reads.dorEa (sp : Space) (ea : Ea) (disp : Word) : Reads (.dorEa sp ea disp) :=
  read_row 75 rfl rfl rfl (by delta Instr.opWord; simp only [append_eq_glued]; rfl) (by simp)
    (fun _ h => by delta Instr.extWords; simp [Ea.ofBits_bits_of_registerOnly h])

theorem Reads.dorAa (sp : Space) (aa : BitVec 6) (disp : Word) : Reads (.dorAa sp aa disp) :=
  read_row 76 rfl rfl rfl (by delta Instr.opWord; simp only [append_eq_glued]; rfl) (by simp) (by delta Instr.extWords; simp)

theorem Reads.dorNum (cnt : BitVec 12) (disp : Word) : Reads (.dorNum cnt disp) :=
  read_row 77 rfl rfl rfl (by delta Instr.opWord; simp only [append_eq_glued]; rfl) (by simp)
    (by delta Instr.extWords; simp [extract_append_extract (a := 4) (b := 8)])

theorem Reads.dorReg (r : Reg) (disp : Word) : Reads (.dorReg r disp) :=
  read_row 78 rfl rfl rfl (by delta Instr.opWord; simp only [append_eq_glued]; rfl) (by simp) (by delta Instr.extWords; simp)

theorem Reads.repEa (sp : Space) (ea : Ea) : Reads (.repEa sp ea) :=
  read_row 79 rfl rfl rfl (by delta Instr.opWord; simp only [append_eq_glued]; rfl) (by simp)
    (fun _ h => by delta Instr.extWords; simp [Ea.ofBits_bits_of_registerOnly h])

theorem Reads.repAa (sp : Space) (aa : BitVec 6) : Reads (.repAa sp aa) :=
  read_row 80 rfl rfl rfl (by delta Instr.opWord; simp only [append_eq_glued]; rfl) (by simp) (by delta Instr.extWords; simp)

theorem Reads.repNum (cnt : BitVec 12) : Reads (.repNum cnt) :=
  read_row 81 rfl rfl rfl (by delta Instr.opWord; simp only [append_eq_glued]; rfl) (by simp)
    (by delta Instr.extWords; simp [extract_append_extract (a := 4) (b := 8)])

theorem Reads.repReg (r : Reg) : Reads (.repReg r) :=
  read_row 82 rfl rfl rfl (by delta Instr.opWord; simp only [append_eq_glued]; rfl) (by simp) (by delta Instr.extWords; simp)

theorem Reads.doForever (la : Word) : Reads (.doForever la) :=
  read_row (w := 0x000203#24) 83 rfl rfl rfl rfl rfl (fun _ _ => rfl)

theorem Reads.dorForever (disp : Word) : Reads (.dorForever disp) :=
  read_row (w := 0x000202#24) 84 rfl rfl rfl rfl rfl (fun _ _ => rfl)

theorem Reads.enddo : Reads .enddo :=
  read_row 85 rfl rfl rfl rfl rfl (fun _ _ => rfl)

theorem Reads.eorShort (i : BitVec 6) (d : Acc) : Reads (.eorShort i d) :=
  read_row 86 rfl rfl rfl (by delta Instr.opWord; simp only [append_eq_glued]; rfl) (by simp) (by delta Instr.extWords; simp)

theorem Reads.eorImm (d : Acc) (imm : Word) : Reads (.eorImm d imm) :=
  read_row 87 rfl rfl rfl (by delta Instr.opWord; simp only [append_eq_glued]; rfl) (by simp) (by delta Instr.extWords; simp)

theorem Reads.extractBy (c : ShiftSrc) (s : Acc) (d : Acc) : Reads (.extractBy c s d) :=
  read_row 88 rfl rfl rfl (by delta Instr.opWord; simp only [append_eq_glued]; rfl) (by simp) (by delta Instr.extWords; simp)

theorem Reads.extractNum (s : Acc) (d : Acc) (co : Word) : Reads (.extractNum s d co) :=
  read_row 89 rfl rfl rfl (by delta Instr.opWord; simp only [append_eq_glued]; rfl) (by simp) (by delta Instr.extWords; simp)

theorem Reads.extractuBy (c : ShiftSrc) (s : Acc) (d : Acc) : Reads (.extractuBy c s d) :=
  read_row 90 rfl rfl rfl (by delta Instr.opWord; simp only [append_eq_glued]; rfl) (by simp) (by delta Instr.extWords; simp)

theorem Reads.extractuNum (s : Acc) (d : Acc) (co : Word) : Reads (.extractuNum s d co) :=
  read_row 91 rfl rfl rfl (by delta Instr.opWord; simp only [append_eq_glued]; rfl) (by simp) (by delta Instr.extWords; simp)

theorem Reads.illegal : Reads .illegal :=
  read_row 92 rfl rfl rfl rfl rfl (fun _ _ => rfl)

theorem Reads.inc (d : Acc) : Reads (.inc d) :=
  read_row 93 rfl rfl rfl (by delta Instr.opWord; simp only [append_eq_glued]; rfl) (by simp) (by delta Instr.extWords; simp)

theorem Reads.insertBy (c : ShiftSrc) (s : InsSrc) (d : Acc) : Reads (.insertBy c s d) :=
  read_row 94 rfl rfl rfl (by delta Instr.opWord; simp only [append_eq_glued]; rfl) (by simp) (by delta Instr.extWords; simp)

theorem Reads.insertNum (s : InsSrc) (d : Acc) (co : Word) : Reads (.insertNum s d co) :=
  read_row 95 rfl rfl rfl (by delta Instr.opWord; simp only [append_eq_glued]; rfl) (by simp) (by delta Instr.extWords; simp)

theorem Reads.jccShort (c : Cond) (a : BitVec 12) : Reads (.jccShort c a) :=
  read_row 96 rfl rfl rfl (by delta Instr.opWord; simp only [append_eq_glued]; rfl) (by simp) (by delta Instr.extWords; simp)

theorem Reads.jccEa (c : Cond) (ea : Ea) : Reads (.jccEa c ea) :=
  read_row 97 rfl rfl rfl (by delta Instr.opWord; simp only [append_eq_glued]; rfl) (by simp) (by delta Instr.extWords; simp)

theorem Reads.jclrEa (n : BitVec 5) (sp : Space) (ea : Ea) (target : Word) : Reads (.jclrEa n sp ea target) :=
  read_row_of_first 98 rfl (by delta Instr.opWord; simp only [append_eq_glued]; rfl) (by simp)
    (fun h => by simp [Ea.bits_mode_of_registerOnly h]) (fun _ h => by delta Instr.extWords; simp [Ea.ofBits_bits_of_registerOnly h])

theorem Reads.jclrAa (n : BitVec 5) (sp : Space) (aa : BitVec 6) (target : Word) : Reads (.jclrAa n sp aa target) :=
  read_row 99 rfl rfl rfl (by delta Instr.opWord; simp only [append_eq_glued]; rfl) (by simp) (by delta Instr.extWords; simp)

theorem Reads.jclrPp (n : BitVec 5) (sp : Space) (pp : BitVec 6) (target : Word) : Reads (.jclrPp n sp pp target) :=
  read_row 100 rfl rfl rfl (by delta Instr.opWord; simp only [append_eq_glued]; rfl) (by simp) (by delta Instr.extWords; simp)

theorem Reads.jclrQq (n : BitVec 5) (sp : Space) (qq : BitVec 6) (target : Word) : Reads (.jclrQq n sp qq target) :=
  read_row 101 rfl rfl rfl (by delta Instr.opWord; simp only [append_eq_glued]; rfl) (by simp) (by delta Instr.extWords; simp)

theorem Reads.jclrReg (n : BitVec 5) (r : Reg) (target : Word) : Reads (.jclrReg n r target) :=
  read_row 102 rfl rfl rfl (by delta Instr.opWord; simp only [append_eq_glued]; rfl) (by simp) (by delta Instr.extWords; simp)

theorem Reads.jsetEa (n : BitVec 5) (sp : Space) (ea : Ea) (target : Word) : Reads (.jsetEa n sp ea target) :=
  read_row_of_first 103 rfl (by delta Instr.opWord; simp only [append_eq_glued]; rfl) (by simp)
    (fun h => by simp [Ea.bits_mode_of_registerOnly h]) (fun _ h => by delta Instr.extWords; simp [Ea.ofBits_bits_of_registerOnly h])

theorem Reads.jsetAa (n : BitVec 5) (sp : Space) (aa : BitVec 6) (target : Word) : Reads (.jsetAa n sp aa target) :=
  read_row 104 rfl rfl rfl (by delta Instr.opWord; simp only [append_eq_glued]; rfl) (by simp) (by delta Instr.extWords; simp)

theorem Reads.jsetPp (n : BitVec 5) (sp : Space) (pp : BitVec 6) (target : Word) : Reads (.jsetPp n sp pp target) :=
  read_row 105 rfl rfl rfl (by delta Instr.opWord; simp only [append_eq_glued]; rfl) (by simp) (by delta Instr.extWords; simp)

theorem Reads.jsetQq (n : BitVec 5) (sp : Space) (qq : BitVec 6) (target : Word) : Reads (.jsetQq n sp qq target) :=
  read_row 106 rfl rfl rfl (by delta Instr.opWord; simp only [append_eq_glued]; rfl) (by simp) (by delta Instr.extWords; simp)

theorem Reads.jsetReg (n : BitVec 5) (r : Reg) (target : Word) : Reads (.jsetReg n r target) :=
  read_row 107 rfl rfl rfl (by delta Instr.opWord; simp only [append_eq_glued]; rfl) (by simp) (by delta Instr.extWords; simp)

theorem Reads.jsclrEa (n : BitVec 5) (sp : Space) (ea : Ea) (target : Word) : Reads (.jsclrEa n sp ea target) :=
  read_row_of_first 108 rfl (by delta Instr.opWord; simp only [append_eq_glued]; rfl) (by simp)
    (fun h => by simp [Ea.bits_mode_of_registerOnly h]) (fun _ h => by delta Instr.extWords; simp [Ea.ofBits_bits_of_registerOnly h])

theorem Reads.jsclrAa (n : BitVec 5) (sp : Space) (aa : BitVec 6) (target : Word) : Reads (.jsclrAa n sp aa target) :=
  read_row 109 rfl rfl rfl (by delta Instr.opWord; simp only [append_eq_glued]; rfl) (by simp) (by delta Instr.extWords; simp)

theorem Reads.jsclrPp (n : BitVec 5) (sp : Space) (pp : BitVec 6) (target : Word) : Reads (.jsclrPp n sp pp target) :=
  read_row 110 rfl rfl rfl (by delta Instr.opWord; simp only [append_eq_glued]; rfl) (by simp) (by delta Instr.extWords; simp)

theorem Reads.jsclrQq (n : BitVec 5) (sp : Space) (qq : BitVec 6) (target : Word) : Reads (.jsclrQq n sp qq target) :=
  read_row 111 rfl rfl rfl (by delta Instr.opWord; simp only [append_eq_glued]; rfl) (by simp) (by delta Instr.extWords; simp)

theorem Reads.jsclrReg (n : BitVec 5) (r : Reg) (target : Word) : Reads (.jsclrReg n r target) :=
  read_row 112 rfl rfl rfl (by delta Instr.opWord; simp only [append_eq_glued]; rfl) (by simp) (by delta Instr.extWords; simp)

theorem Reads.jssetEa (n : BitVec 5) (sp : Space) (ea : Ea) (target : Word) : Reads (.jssetEa n sp ea target) :=
  read_row_of_first 113 rfl (by delta Instr.opWord; simp only [append_eq_glued]; rfl) (by simp)
    (fun h => by simp [Ea.bits_mode_of_registerOnly h]) (fun _ h => by delta Instr.extWords; simp [Ea.ofBits_bits_of_registerOnly h])

theorem Reads.jssetAa (n : BitVec 5) (sp : Space) (aa : BitVec 6) (target : Word) : Reads (.jssetAa n sp aa target) :=
  read_row 114 rfl rfl rfl (by delta Instr.opWord; simp only [append_eq_glued]; rfl) (by simp) (by delta Instr.extWords; simp)

theorem Reads.jssetPp (n : BitVec 5) (sp : Space) (pp : BitVec 6) (target : Word) : Reads (.jssetPp n sp pp target) :=
  read_row 115 rfl rfl rfl (by delta Instr.opWord; simp only [append_eq_glued]; rfl) (by simp) (by delta Instr.extWords; simp)

theorem Reads.jssetQq (n : BitVec 5) (sp : Space) (qq : BitVec 6) (target : Word) : Reads (.jssetQq n sp qq target) :=
  read_row 116 rfl rfl rfl (by delta Instr.opWord; simp only [append_eq_glued]; rfl) (by simp) (by delta Instr.extWords; simp)

theorem Reads.jssetReg (n : BitVec 5) (r : Reg) (target : Word) : Reads (.jssetReg n r target) :=
  read_row 117 rfl rfl rfl (by delta Instr.opWord; simp only [append_eq_glued]; rfl) (by simp) (by delta Instr.extWords; simp)

theorem Reads.jmpShort (a : BitVec 12) : Reads (.jmpShort a) :=
  read_row 118 rfl rfl rfl (by delta Instr.opWord; simp only [append_eq_glued]; rfl) (by simp) (by delta Instr.extWords; simp)

theorem Reads.jmpEa (ea : Ea) : Reads (.jmpEa ea) :=
  read_row 119 rfl rfl rfl (by delta Instr.opWord; simp only [append_eq_glued]; rfl) (by simp) (by delta Instr.extWords; simp)

theorem Reads.jsccShort (c : Cond) (a : BitVec 12) : Reads (.jsccShort c a) :=
  read_row 120 rfl rfl rfl (by delta Instr.opWord; simp only [append_eq_glued]; rfl) (by simp) (by delta Instr.extWords; simp)

theorem Reads.jsccEa (c : Cond) (ea : Ea) : Reads (.jsccEa c ea) :=
  read_row 121 rfl rfl rfl (by delta Instr.opWord; simp only [append_eq_glued]; rfl) (by simp) (by delta Instr.extWords; simp)

theorem Reads.jsrShort (a : BitVec 12) : Reads (.jsrShort a) :=
  read_row 122 rfl rfl rfl (by delta Instr.opWord; simp only [append_eq_glued]; rfl) (by simp) (by delta Instr.extWords; simp)

theorem Reads.jsrEa (ea : Ea) : Reads (.jsrEa ea) :=
  read_row 123 rfl rfl rfl (by delta Instr.opWord; simp only [append_eq_glued]; rfl) (by simp) (by delta Instr.extWords; simp)

theorem Reads.lraReg (rn : Fin 8) (d : DReg) : Reads (.lraReg rn d) :=
  read_row 124 rfl rfl rfl (by delta Instr.opWord; simp only [append_eq_glued]; rfl) (by simp) (by delta Instr.extWords; simp)

theorem Reads.lraLong (d : DReg) (disp : Word) : Reads (.lraLong d disp) :=
  read_row 125 rfl rfl rfl (by delta Instr.opWord; simp only [append_eq_glued]; rfl) (by simp) (by delta Instr.extWords; simp)

theorem Reads.lslNum (i : BitVec 5) (d : Acc) : Reads (.lslNum i d) :=
  read_row 126 rfl rfl rfl (by delta Instr.opWord; simp only [append_eq_glued]; rfl) (by simp) (by delta Instr.extWords; simp)

theorem Reads.lslBy (c : ShiftSrc) (d : Acc) : Reads (.lslBy c d) :=
  read_row 127 rfl rfl rfl (by delta Instr.opWord; simp only [append_eq_glued]; rfl) (by simp) (by delta Instr.extWords; simp)

theorem Reads.lsrNum (i : BitVec 5) (d : Acc) : Reads (.lsrNum i d) :=
  read_row 128 rfl rfl rfl (by delta Instr.opWord; simp only [append_eq_glued]; rfl) (by simp) (by delta Instr.extWords; simp)

theorem Reads.lsrBy (c : ShiftSrc) (d : Acc) : Reads (.lsrBy c d) :=
  read_row 129 rfl rfl rfl (by delta Instr.opWord; simp only [append_eq_glued]; rfl) (by simp) (by delta Instr.extWords; simp)

theorem Reads.luaEa (u : UpdMode) (rn : Fin 8) (d : DReg) : Reads (.luaEa u rn d) :=
  read_row 130 rfl rfl rfl (by delta Instr.opWord; simp only [append_eq_glued]; rfl) (by simp) (by delta Instr.extWords; simp)

theorem Reads.luaDisp (disp : BitVec 7) (rn : Fin 8) (d : AguReg) : Reads (.luaDisp disp rn d) :=
  read_row 131 rfl rfl rfl (by delta Instr.opWord; simp only [append_eq_glued]; rfl) (by simp)
    (by delta Instr.extWords; simp [extract_append_extract (a := 3) (b := 4)])

theorem Reads.macNum (s : XYReg) (n : BitVec 5) (d : Acc) (minus : Bool) : Reads (.macNum s n d minus) :=
  read_row 132 rfl rfl rfl (by delta Instr.opWord; simp only [append_eq_glued]; rfl) (by simp) (by delta Instr.extWords; simp)

theorem Reads.macSu (sg : Sign1) (q : MulOps) (d : Acc) (minus : Bool) : Reads (.macSu sg q d minus) :=
  read_row 133 rfl rfl rfl (by delta Instr.opWord; simp only [append_eq_glued]; rfl) (by simp) (by delta Instr.extWords; simp)

theorem Reads.maci (s : XYReg) (d : Acc) (minus : Bool) (imm : Word) : Reads (.maci s d minus imm) :=
  read_row 134 rfl rfl rfl (by delta Instr.opWord; simp only [append_eq_glued]; rfl) (by simp) (by delta Instr.extWords; simp)

theorem Reads.macrNum (s : XYReg) (n : BitVec 5) (d : Acc) (minus : Bool) : Reads (.macrNum s n d minus) :=
  read_row 135 rfl rfl rfl (by delta Instr.opWord; simp only [append_eq_glued]; rfl) (by simp) (by delta Instr.extWords; simp)

theorem Reads.macri (s : XYReg) (d : Acc) (minus : Bool) (imm : Word) : Reads (.macri s d minus imm) :=
  read_row 136 rfl rfl rfl (by delta Instr.opWord; simp only [append_eq_glued]; rfl) (by simp) (by delta Instr.extWords; simp)

theorem Reads.merge (s : ShiftSrc) (d : Acc) : Reads (.merge s d) :=
  read_row 137 rfl rfl rfl (by delta Instr.opWord; simp only [append_eq_glued]; rfl) (by simp) (by delta Instr.extWords; simp)

theorem Reads.moveXShort (disp : BitVec 7) (rn : Fin 8) (w : Dir) (r : AluReg) : Reads (.moveXShort disp rn w r) :=
  read_row 138 rfl rfl rfl (by delta Instr.opWord; simp only [append_eq_glued]; rfl) (by simp)
    (by delta Instr.extWords; simp [extract_append_extract (a := 6) (b := 1)])

theorem Reads.moveYShort (disp : BitVec 7) (rn : Fin 8) (w : Dir) (r : AluReg) : Reads (.moveYShort disp rn w r) :=
  read_row 139 rfl rfl rfl (by delta Instr.opWord; simp only [append_eq_glued]; rfl) (by simp)
    (by delta Instr.extWords; simp [extract_append_extract (a := 6) (b := 1)])

theorem Reads.movecEa (w : Dir) (sp : Space) (ea : Ea) (r : CReg) : Reads (.movecEa w sp ea r) :=
  read_row 140 rfl rfl rfl (by delta Instr.opWord; simp only [append_eq_glued]; rfl) (by simp) (by delta Instr.extWords; simp)

theorem Reads.movecAa (w : Dir) (sp : Space) (aa : BitVec 6) (r : CReg) : Reads (.movecAa w sp aa r) :=
  read_row 141 rfl rfl rfl (by delta Instr.opWord; simp only [append_eq_glued]; rfl) (by simp) (by delta Instr.extWords; simp)

theorem Reads.movecReg (w : Dir) (r2 : Reg) (r : CReg) : Reads (.movecReg w r2 r) :=
  read_row 142 rfl rfl rfl (by delta Instr.opWord; simp only [append_eq_glued]; rfl) (by simp) (by delta Instr.extWords; simp)

theorem Reads.movecImm (i : BitVec 8) (r : CReg) : Reads (.movecImm i r) :=
  read_row 143 rfl rfl rfl (by delta Instr.opWord; simp only [append_eq_glued]; rfl) (by simp) (by delta Instr.extWords; simp)

theorem Reads.movemEa (w : Dir) (ea : Ea) (r : Reg) : Reads (.movemEa w ea r) :=
  read_row 144 rfl rfl rfl (by delta Instr.opWord; simp only [append_eq_glued]; rfl) (by simp) (by delta Instr.extWords; simp)

theorem Reads.movemAa (w : Dir) (aa : BitVec 6) (r : Reg) : Reads (.movemAa w aa r) :=
  read_row 145 rfl rfl rfl (by delta Instr.opWord; simp only [append_eq_glued]; rfl) (by simp) (by delta Instr.extWords; simp)

theorem Reads.movepPpEa (ps : Space) (w : Dir) (sp : Space) (ea : Ea) (pp : BitVec 6) : Reads (.movepPpEa ps w sp ea pp) :=
  read_row 146 rfl rfl rfl (by delta Instr.opWord; simp only [append_eq_glued]; rfl) (by simp) (by delta Instr.extWords; simp)

theorem Reads.movepXqqEa (w : Dir) (sp : Space) (ea : Ea) (qq : BitVec 6) : Reads (.movepXqqEa w sp ea qq) :=
  read_row 147 rfl rfl rfl (by delta Instr.opWord; simp only [append_eq_glued]; rfl) (by simp) (by delta Instr.extWords; simp)

theorem Reads.movepYqqEa (w : Dir) (sp : Space) (ea : Ea) (qq : BitVec 6) : Reads (.movepYqqEa w sp ea qq) :=
  read_row 148 rfl rfl rfl (by delta Instr.opWord; simp only [append_eq_glued]; rfl) (by simp) (by delta Instr.extWords; simp)

theorem Reads.movepPpP (ps : Space) (w : Dir) (ea : Ea) (pp : BitVec 6) : Reads (.movepPpP ps w ea pp) :=
  read_row 149 rfl rfl rfl (by delta Instr.opWord; simp only [append_eq_glued]; rfl) (by simp) (by delta Instr.extWords; simp)

theorem Reads.movepQqP (w : Dir) (ea : Ea) (ps : Space) (qq : BitVec 6) : Reads (.movepQqP w ea ps qq) :=
  read_row 150 rfl rfl rfl (by delta Instr.opWord; simp only [append_eq_glued]; rfl) (by simp) (by delta Instr.extWords; simp)

theorem Reads.movepPpReg (ps : Space) (w : Dir) (r : Reg) (pp : BitVec 6) : Reads (.movepPpReg ps w r pp) :=
  read_row 151 rfl rfl rfl (by delta Instr.opWord; simp only [append_eq_glued]; rfl) (by simp) (by delta Instr.extWords; simp)

theorem Reads.movepXqqReg (w : Dir) (r : Reg) (qq : BitVec 6) : Reads (.movepXqqReg w r qq) :=
  read_row 152 rfl rfl rfl (by delta Instr.opWord; simp only [append_eq_glued]; rfl) (by simp)
    (by delta Instr.extWords; simp [extract_append_extract (a := 1) (b := 5)])

theorem Reads.movepYqqReg (w : Dir) (r : Reg) (qq : BitVec 6) : Reads (.movepYqqReg w r qq) :=
  read_row 153 rfl rfl rfl (by delta Instr.opWord; simp only [append_eq_glued]; rfl) (by simp)
    (by delta Instr.extWords; simp [extract_append_extract (a := 1) (b := 5)])

theorem Reads.mpyNum (s : XYReg) (n : BitVec 5) (d : Acc) (minus : Bool) : Reads (.mpyNum s n d minus) :=
  read_row 154 rfl rfl rfl (by delta Instr.opWord; simp only [append_eq_glued]; rfl) (by simp) (by delta Instr.extWords; simp)

theorem Reads.mpySu (sg : Sign1) (q : MulOps) (d : Acc) (minus : Bool) : Reads (.mpySu sg q d minus) :=
  read_row 155 rfl rfl rfl (by delta Instr.opWord; simp only [append_eq_glued]; rfl) (by simp) (by delta Instr.extWords; simp)

theorem Reads.mpyi (s : XYReg) (d : Acc) (minus : Bool) (imm : Word) : Reads (.mpyi s d minus imm) :=
  read_row 156 rfl rfl rfl (by delta Instr.opWord; simp only [append_eq_glued]; rfl) (by simp) (by delta Instr.extWords; simp)

theorem Reads.mpyrNum (s : XYReg) (n : BitVec 5) (d : Acc) (minus : Bool) : Reads (.mpyrNum s n d minus) :=
  read_row 157 rfl rfl rfl (by delta Instr.opWord; simp only [append_eq_glued]; rfl) (by simp) (by delta Instr.extWords; simp)

theorem Reads.mpyri (s : XYReg) (d : Acc) (minus : Bool) (imm : Word) : Reads (.mpyri s d minus imm) :=
  read_row 158 rfl rfl rfl (by delta Instr.opWord; simp only [append_eq_glued]; rfl) (by simp) (by delta Instr.extWords; simp)

theorem Reads.nop : Reads .nop :=
  read_row 159 rfl rfl rfl rfl rfl (fun _ _ => rfl)

theorem Reads.norm (rn : Fin 8) (d : Acc) : Reads (.norm rn d) :=
  read_row 160 rfl rfl rfl (by delta Instr.opWord; simp only [append_eq_glued]; rfl) (by simp) (by delta Instr.extWords; simp)

theorem Reads.normf (s : ShiftSrc) (d : Acc) : Reads (.normf s d) :=
  read_row 161 rfl rfl rfl (by delta Instr.opWord; simp only [append_eq_glued]; rfl) (by simp) (by delta Instr.extWords; simp)

theorem Reads.orShort (i : BitVec 6) (d : Acc) : Reads (.orShort i d) :=
  read_row 162 rfl rfl rfl (by delta Instr.opWord; simp only [append_eq_glued]; rfl) (by simp) (by delta Instr.extWords; simp)

theorem Reads.orImm (d : Acc) (imm : Word) : Reads (.orImm d imm) :=
  read_row 163 rfl rfl rfl (by delta Instr.opWord; simp only [append_eq_glued]; rfl) (by simp) (by delta Instr.extWords; simp)

theorem Reads.ori (i : BitVec 8) (e : PcuByte) : Reads (.ori i e) :=
  read_row 164 rfl rfl rfl (by delta Instr.opWord; simp only [append_eq_glued]; rfl) (by simp) (by delta Instr.extWords; simp)

theorem Reads.pflush : Reads .pflush :=
  read_row 165 rfl rfl rfl rfl rfl (fun _ _ => rfl)

theorem Reads.pflushun : Reads .pflushun :=
  read_row 166 rfl rfl rfl rfl rfl (fun _ _ => rfl)

theorem Reads.pfree : Reads .pfree :=
  read_row 167 rfl rfl rfl rfl rfl (fun _ _ => rfl)

theorem Reads.plock (ea : Ea) : Reads (.plock ea) :=
  read_row 168 rfl rfl rfl (by delta Instr.opWord; simp only [append_eq_glued]; rfl) (by simp) (by delta Instr.extWords; simp)

theorem Reads.plockr (disp : Word) : Reads (.plockr disp) :=
  read_row (w := 0x00000F#24) 169 rfl rfl rfl rfl rfl (fun _ _ => rfl)

theorem Reads.punlock (ea : Ea) : Reads (.punlock ea) :=
  read_row 170 rfl rfl rfl (by delta Instr.opWord; simp only [append_eq_glued]; rfl) (by simp) (by delta Instr.extWords; simp)

theorem Reads.punlockr (disp : Word) : Reads (.punlockr disp) :=
  read_row (w := 0x00000E#24) 171 rfl rfl rfl rfl rfl (fun _ _ => rfl)

theorem Reads.reset : Reads .reset :=
  read_row 172 rfl rfl rfl rfl rfl (fun _ _ => rfl)

theorem Reads.rti : Reads .rti :=
  read_row 173 rfl rfl rfl rfl rfl (fun _ _ => rfl)

theorem Reads.rts : Reads .rts :=
  read_row 174 rfl rfl rfl rfl rfl (fun _ _ => rfl)

theorem Reads.stop : Reads .stop :=
  read_row 175 rfl rfl rfl rfl rfl (fun _ _ => rfl)

theorem Reads.subShort (i : BitVec 6) (d : Acc) : Reads (.subShort i d) :=
  read_row 176 rfl rfl rfl (by delta Instr.opWord; simp only [append_eq_glued]; rfl) (by simp) (by delta Instr.extWords; simp)

theorem Reads.subImm (d : Acc) (imm : Word) : Reads (.subImm d imm) :=
  read_row 177 rfl rfl rfl (by delta Instr.opWord; simp only [append_eq_glued]; rfl) (by simp) (by delta Instr.extWords; simp)

theorem Reads.tccD (c : Cond) (s1 : AccOrReg) (d : Acc) : Reads (.tccD c s1 d) :=
  read_row 178 rfl rfl rfl (by delta Instr.opWord; simp only [append_eq_glued]; rfl) (by simp) (by delta Instr.extWords; simp)

theorem Reads.tccDR (c : Cond) (s1 : AccOrReg) (d : Acc) (t : Fin 8) (u : Fin 8) : Reads (.tccDR c s1 d t u) :=
  read_row 179 rfl rfl rfl (by delta Instr.opWord; simp only [append_eq_glued]; rfl) (by simp) (by delta Instr.extWords; simp)

theorem Reads.tccR (c : Cond) (t : Fin 8) (u : Fin 8) : Reads (.tccR c t u) :=
  read_row 180 rfl rfl rfl (by delta Instr.opWord; simp only [append_eq_glued]; rfl) (by simp) (by delta Instr.extWords; simp)

theorem Reads.trap : Reads .trap :=
  read_row 181 rfl rfl rfl rfl rfl (fun _ _ => rfl)

theorem Reads.trapcc (c : Cond) : Reads (.trapcc c) :=
  read_row 182 rfl rfl rfl (by delta Instr.opWord; simp only [append_eq_glued]; rfl) (by simp) (by delta Instr.extWords; simp)

theorem Reads.vsl (s : Acc) (i : Bool) (ea : Ea) : Reads (.vsl s i ea) :=
  read_row 183 rfl rfl rfl (by delta Instr.opWord; simp only [append_eq_glued]; rfl) (by simp) (by delta Instr.extWords; simp)

theorem Reads.wait : Reads .wait :=
  read_row 184 rfl rfl rfl rfl rfl (fun _ _ => rfl)

theorem Reads.moveXLong (rn : Fin 8) (w : Dir) (r : Reg) (disp : Word) : Reads (.moveXLong rn w r disp) := fun x h => by
  delta Instr.opWord Instr.extWords
  simp only [append_eq_glued]
  refine decode_of_find (r := rows0[0]) ?_ ?_ h
  · exact List.find?_cons_of_pos (by simp [Row.hit])
  · simp [rows0]

theorem Reads.moveYLong (rn : Fin 8) (w : Dir) (r : Reg) (disp : Word) : Reads (.moveYLong rn w r disp) := fun x h => by
  delta Instr.opWord Instr.extWords
  simp only [append_eq_glued]
  refine decode_of_find (r := rows0[1]) ?_ ?_ h
  · exact (List.find?_cons_of_neg (by simp [Row.hit])).trans (List.find?_cons_of_pos (by simp [Row.hit]))
  · simp [rows0]

/-! ## The parallel format -/

/-- The codes 00000 to 00011 name no register (30_encoding R152). -/
theorem DReg.four_le_bits (d : DReg) : 4 ≤ d.bits.toNat := by
  cases d with
  | alu r => cases r <;> decide
  | r n => revert n; decide
  | n n => revert n; decide

theorem DReg.bits_fields (d : DReg) : d.bits ≠ 0#5 ∧ d.bits &&& 31#5 ≠ 0#5 ∧ d.bits &&& 31#5 ≠ 1#5 ∧ d.bits &&& 31#5 ≠ 2#5 ∧
    d.bits &&& 28#5 ≠ 0#5 ∧ ¬ (d.bits.extractLsb' 3 2 &&& 3#2 = 0#2 ∧ d.bits.extractLsb' 0 3 &&& 4#3 = 0#3) := by
  have h := d.four_le_bits
  generalize d.bits = b at *
  revert b
  decide

@[simp] theorem DReg.ofBits_parts (d : DReg) {h : 5 = 2 + 3} :
    DReg.ofBits (glued h (d.bits.extractLsb' 3 2) (d.bits.extractLsb' 0 3)) = some d :=
  (congrArg DReg.ofBits (extract_append_extract (a := 2) (b := 3) d.bits)).trans d.ofBits_bits

@[simp] theorem LongReg.ofBits_parts (l : LongReg) {h : 3 = 1 + 2} :
    LongReg.ofBits (glued h (l.bits.extractLsb' 2 1) (l.bits.extractLsb' 0 2)) = l :=
  (congrArg LongReg.ofBits (extract_append_extract (a := 1) (b := 2) l.bits)).trans l.ofBits_bits

@[simp] theorem PMove.ofBits_bits (m : PMove) (x : Word) : PMove.ofBits m.bits (m.extWords.head?.getD x) = some m := by
  cases m with
  | none => rfl
  | imm i d => simp only [PMove.ofBits, PMove.bits, append_eq_glued]; simp [d.bits_fields]
  | reg s d => simp only [PMove.ofBits, PMove.bits, append_eq_glued]; simp [s.bits_fields]
  | xEa d w ea => simp only [PMove.ofBits, PMove.bits, PMove.extWords, append_eq_glued]; simp [d.bits_fields]
  | xAa d w aa => simp only [PMove.ofBits, PMove.bits, append_eq_glued]; simp [d.bits_fields]
  | yEa d w ea => simp only [PMove.ofBits, PMove.bits, PMove.extWords, append_eq_glued]; simp [d.bits_fields]
  | yAa d w aa => simp only [PMove.ofBits, PMove.bits, append_eq_glued]; simp [d.bits_fields]
  | _ => simp only [PMove.ofBits, PMove.bits, PMove.extWords, append_eq_glued]; simp

theorem PMove.bits_not_conditional (m : PMove) : m.bits &&& 0xFFF0#16 ≠ 0x2020#16 ∧ m.bits &&& 0xFFF0#16 ≠ 0x2030#16 := by
  cases m with
  | none => decide
  | imm i d => simp only [PMove.bits, append_eq_glued]; simp [d.bits_fields]
  | reg s d => simp only [PMove.bits, append_eq_glued]; simp [s.bits_fields]
  | _ => simp only [PMove.bits, append_eq_glued]; simp

@[simp] theorem AluOp.ofByte_byte (op : AluOp) : AluOp.ofByte op.byte = some op := by
  cases op with
  | move => rfl
  | maxm => rfl
  | max => rfl
  | tfrReg s d | cmpReg s d | cmpmReg s d | addReg s d | subReg s d | or s d | eor s d | and s d => cases s <;> cases d <;> rfl
  | addXY s d | subXY s d | adc s d | sbc s d => cases s <;> cases d <;> rfl
  | mpy q d n | mpyr q d n | mac q d n | macr q d n => cases q <;> cases d <;> cases n <;> rfl
  | _ d => cases d <;> rfl

/-- The formats of the parallel words (30_encoding R152): bits 23:20, with bit 14 in class II. -/
def parallelFormats : List (Row 24 Instr) :=
  [(0x800000#24, 0x800000#24), (0xC00000#24, 0x400000#24), (0xE00000#24, 0x200000#24), (0xF00000#24, 0x100000#24),
    (0xFE4000#24, 0x080000#24)].map fun p => ⟨p.1, p.2, fun _ _ => none⟩

set_option maxRecDepth 20000 in
theorem formats_apart : ∀ q ∈ nonparallelRows, ∀ f ∈ parallelFormats, q.apart f = true := by decide +kernel

theorem parallel_format (m : PMove) (b : BitVec 8) : ∃ f ∈ parallelFormats, f.hit (m.bits ++ b : Word) = true := by
  simp only [parallelFormats, Row.hit, List.map_cons, List.map_nil, List.exists_mem_cons_iff, List.not_mem_nil, append_eq_glued]
  cases m <;> simp only [PMove.bits, append_eq_glued] <;> simp

/-- The two reserved patterns of the opcode byte name no operation. -/
theorem AluOp.byte_ne (op : AluOp) : op.byte &&& 0xF7#8 ≠ 0x04#8 ∧ op.byte ≠ 0x08#8 := by
  have reserved : ∀ b ∈ [0x04#8, 0x0C#8, 0x08#8], AluOp.ofByte b = none := by decide
  have masked : ∀ b : BitVec 8, b &&& 0xF7#8 = 0x04#8 → b = 0x04#8 ∨ b = 0x0C#8 := by decide
  have read : ∀ b ∈ [0x04#8, 0x0C#8, 0x08#8], op.byte ≠ b := fun b hb h => by
    simpa [h, reserved b hb] using op.ofByte_byte
  refine ⟨fun h => ?_, read _ (by simp)⟩
  rcases masked _ h with h | h <;> exact read _ (by simp) h

/-- A word of the parallel format hits no row of the non-parallel one. -/
theorem find_of_format {w : Word} {f : Row 24 Instr} (hf : f ∈ parallelFormats) (hit : f.hit w = true) :
    nonparallelRows.find? (Row.hit w) = none :=
  List.find?_eq_none.2 fun q hq => by simp [Row.not_hit_of_apart (formats_apart q hq f hf) hit]

theorem parallel_fields (m : PMove) (b : BitVec 8) : (m.bits ++ b : Word).extractLsb' 8 16 = m.bits ∧ (m.bits ++ b : Word).extractLsb' 0 8 = b :=
  ⟨(extract_high _ _ (Nat.le_refl 8)).trans (extract_all _), (extract_low _ _ (Nat.le_refl 8)).trans (extract_all _)⟩

theorem parallel_not_conditional (m : PMove) (b : BitVec 8) :
    (m.bits ++ b : Word) &&& 0xFFF000#24 ≠ 0x202000#24 ∧ (m.bits ++ b : Word) &&& 0xFFF000#24 ≠ 0x203000#24 := by
  rw [append_eq_glued]
  simpa using m.bits_not_conditional

theorem decode_parallel (m : PMove) (op : AluOp) (x : Word) (h : (Instr.ofParallel op m).wf = true) :
    decode (m.bits ++ op.byte) (m.extWords.headD x) = .ok (Instr.ofParallel op m) := by
  obtain ⟨hm, hb⟩ := parallel_fields m op.byte
  obtain ⟨f, hf, hit⟩ := parallel_format m op.byte
  simp [decode, find_of_format hf hit, decodeParallel, hm, hb, parallel_not_conditional m op.byte, op.byte_ne, h]

theorem ifcc_word_format (t : BitVec 16) (b : BitVec 8) (h : t &&& 0xE000#16 = 0x2000#16) :
    nonparallelRows.find? (Row.hit (t ++ b : Word)) = none := by
  refine find_of_format (f := ⟨0xE00000#24, 0x200000#24, fun _ _ => none⟩) (by simp [parallelFormats]) ?_
  simp only [Row.hit, append_eq_glued]
  simp [h]

theorem Reads.ifcc (c : Cond) (op : AluOp) : Reads (.ifcc c op) := fun x _ => by
  have hf := ifcc_word_format (0b001000000010#12 ++ c.bits) op.byte (by rw [append_eq_glued]; simp)
  delta Instr.opWord
  simp only [append_eq_glued] at hf ⊢
  simp [decode, hf, decodeParallel, Instr.wf]

theorem Reads.ifccU (c : Cond) (op : AluOp) : Reads (.ifccU c op) := fun x _ => by
  have hf := ifcc_word_format (0b001000000011#12 ++ c.bits) op.byte (by rw [append_eq_glued]; simp)
  delta Instr.opWord
  simp only [append_eq_glued] at hf ⊢
  simp [decode, hf, decodeParallel, Instr.wf]

theorem PMove.ofBits_bits_zero {m : PMove} (h : (m.extWords.all fun w => w == 0) = true) :
    PMove.ofBits m.bits 0 = some m := by
  have hm : m.extWords.head?.getD 0 = 0 := by
    cases hm : m.extWords with
    | nil => rfl
    | cons w l => simp_all
  have := m.ofBits_bits 0
  rwa [hm] at this

theorem decode_reserved {m : PMove} {b : BitVec 8} {x : Word} {i : Instr} (hz : (m.extWords.all fun w => w == 0) = true)
    (hi : i.wf = true) (hb : b &&& 0xF7#8 = 0x04#8 ∧ i = .reservedA (Acc.ofBits (b.extractLsb' 3 1)) m ∨
      b &&& 0xF7#8 ≠ 0x04#8 ∧ b = 0x08#8 ∧ i = .reservedB m) : decode (m.bits ++ b) x = .ok i := by
  obtain ⟨hm, hl⟩ := parallel_fields m b
  obtain ⟨f, hf, hit⟩ := parallel_format m b
  have hp : decodeParallel (m.bits ++ b) x = some i := by
    simp only [decodeParallel, hm, hl, parallel_not_conditional m b, if_false, PMove.ofBits_bits_zero hz]
    rcases hb with ⟨h, rfl⟩ | ⟨h, h', rfl⟩
    · simp [h]
    · simp [h']
  simp [decode, find_of_format hf hit, hp, hi]

theorem Reads.reservedA (d : Acc) (m : PMove) : Reads (.reservedA d m) := fun x h => by
  have hz : m.wf = true ∧ (m.extWords.all fun w => w == 0) = true := Bool.and_eq_true_iff.1 h
  have hw : Instr.opWord (.reservedA d m) = m.bits ++ (0b0000#4 ++ d.bits ++ 0b100#3 : BitVec 8) := by
    delta Instr.opWord
    simp only [append_eq_glued, glued_assoc]
  rw [hw]
  refine decode_reserved hz.2 h (.inl ?_)
  simp only [append_eq_glued]
  simp

theorem Reads.reservedB (m : PMove) : Reads (.reservedB m) := fun _ h =>
  decode_reserved (Bool.and_eq_true_iff.1 h).2 h (.inr ⟨by decide, rfl, rfl⟩)

/-- Decoding reads back every instruction: by its row, or by the move and the operation of its parallel word. -/
theorem reads : ∀ i, Reads i
  | .moveParallel _ => fun _ h => nomatch h
  | .tfrAcc d m => decode_parallel m (.tfrAcc d)
  | .tfrReg s d m => decode_parallel m (.tfrReg s d)
  | .addr d m => decode_parallel m (.addr d)
  | .tst d m => decode_parallel m (.tst d)
  | .cmpAcc d m => decode_parallel m (.cmpAcc d)
  | .cmpReg s d m => decode_parallel m (.cmpReg s d)
  | .subr d m => decode_parallel m (.subr d)
  | .cmpmAcc d m => decode_parallel m (.cmpmAcc d)
  | .cmpmReg s d m => decode_parallel m (.cmpmReg s d)
  | .addAcc d m => decode_parallel m (.addAcc d)
  | .addXY s d m => decode_parallel m (.addXY s d)
  | .addReg s d m => decode_parallel m (.addReg s d)
  | .rnd d m => decode_parallel m (.rnd d)
  | .addl d m => decode_parallel m (.addl d)
  | .clr d m => decode_parallel m (.clr d)
  | .subAcc d m => decode_parallel m (.subAcc d)
  | .subXY s d m => decode_parallel m (.subXY s d)
  | .subReg s d m => decode_parallel m (.subReg s d)
  | .maxm m => decode_parallel m .maxm
  | .max m => decode_parallel m .max
  | .subl d m => decode_parallel m (.subl d)
  | .not d m => decode_parallel m (.not d)
  | .adc s d m => decode_parallel m (.adc s d)
  | .asr d m => decode_parallel m (.asr d)
  | .lsr d m => decode_parallel m (.lsr d)
  | .sbc s d m => decode_parallel m (.sbc s d)
  | .abs d m => decode_parallel m (.abs d)
  | .ror d m => decode_parallel m (.ror d)
  | .asl d m => decode_parallel m (.asl d)
  | .lsl d m => decode_parallel m (.lsl d)
  | .neg d m => decode_parallel m (.neg d)
  | .rol d m => decode_parallel m (.rol d)
  | .or s d m => decode_parallel m (.or s d)
  | .eor s d m => decode_parallel m (.eor s d)
  | .and s d m => decode_parallel m (.and s d)
  | .mpy q d minus m => decode_parallel m (.mpy q d minus)
  | .mpyr q d minus m => decode_parallel m (.mpyr q d minus)
  | .mac q d minus m => decode_parallel m (.mac q d minus)
  | .macr q d minus m => decode_parallel m (.macr q d minus)
  | .reservedA .. => Reads.reservedA _ _
  | .reservedB .. => Reads.reservedB _
  | .moveImm i d => decode_parallel (.imm i d) .move
  | .moveReg s d => decode_parallel (.reg s d) .move
  | .moveUpd u rn => decode_parallel (.upd u rn) .move
  | .ifcc .. => Reads.ifcc _ _
  | .ifccU .. => Reads.ifccU _ _
  | .moveXEa d w ea => decode_parallel (.xEa d w ea) .move
  | .moveXAa d w aa => decode_parallel (.xAa d w aa) .move
  | .moveYEa d w ea => decode_parallel (.yEa d w ea) .move
  | .moveYAa d w aa => decode_parallel (.yAa d w aa) .move
  | .moveXR1 xs s2 d2 w ea => decode_parallel (.xr1 xs s2 d2 w ea) .move
  | .moveXR2 d ea => decode_parallel (.xr2 d ea) .move
  | .moveRY1 s1 d1 ys w ea => decode_parallel (.ry1 s1 d1 ys w ea) .move
  | .moveRY2 d ea => decode_parallel (.ry2 d ea) .move
  | .moveLEa l w ea => decode_parallel (.lEa l w ea) .move
  | .moveLAa l w aa => decode_parallel (.lAa l w aa) .move
  | .moveXY yw ym xs ys xw yn xm xn => decode_parallel (.xy yw ym xs ys xw yn xm xn) .move
  | .addShort .. => Reads.addShort _ _
  | .addImm .. => Reads.addImm _ _
  | .andShort .. => Reads.andShort _ _
  | .andImm .. => Reads.andImm _ _
  | .andi .. => Reads.andi _ _
  | .aslNum .. => Reads.aslNum _ _ _
  | .aslBy .. => Reads.aslBy _ _ _
  | .asrNum .. => Reads.asrNum _ _ _
  | .asrBy .. => Reads.asrBy _ _ _
  | .bccLong .. => Reads.bccLong _ _
  | .bccShort .. => Reads.bccShort _ _
  | .bccReg .. => Reads.bccReg _ _
  | .bchgEa .. => Reads.bchgEa _ _ _
  | .bchgAa .. => Reads.bchgAa _ _ _
  | .bchgPp .. => Reads.bchgPp _ _ _
  | .bchgQq .. => Reads.bchgQq _ _ _
  | .bchgReg .. => Reads.bchgReg _ _
  | .bclrEa .. => Reads.bclrEa _ _ _
  | .bclrAa .. => Reads.bclrAa _ _ _
  | .bclrPp .. => Reads.bclrPp _ _ _
  | .bclrQq .. => Reads.bclrQq _ _ _
  | .bclrReg .. => Reads.bclrReg _ _
  | .bsetEa .. => Reads.bsetEa _ _ _
  | .bsetAa .. => Reads.bsetAa _ _ _
  | .bsetPp .. => Reads.bsetPp _ _ _
  | .bsetQq .. => Reads.bsetQq _ _ _
  | .bsetReg .. => Reads.bsetReg _ _
  | .btstEa .. => Reads.btstEa _ _ _
  | .btstAa .. => Reads.btstAa _ _ _
  | .btstPp .. => Reads.btstPp _ _ _
  | .btstQq .. => Reads.btstQq _ _ _
  | .btstReg .. => Reads.btstReg _ _
  | .braLong .. => Reads.braLong _
  | .braShort .. => Reads.braShort _
  | .braReg .. => Reads.braReg _
  | .brclrEa .. => Reads.brclrEa _ _ _ _
  | .brclrAa .. => Reads.brclrAa _ _ _ _
  | .brclrPp .. => Reads.brclrPp _ _ _ _
  | .brclrQq .. => Reads.brclrQq _ _ _ _
  | .brclrReg .. => Reads.brclrReg _ _ _
  | .brsetEa .. => Reads.brsetEa _ _ _ _
  | .brsetAa .. => Reads.brsetAa _ _ _ _
  | .brsetPp .. => Reads.brsetPp _ _ _ _
  | .brsetQq .. => Reads.brsetQq _ _ _ _
  | .brsetReg .. => Reads.brsetReg _ _ _
  | .bsclrEa .. => Reads.bsclrEa _ _ _ _
  | .bsclrAa .. => Reads.bsclrAa _ _ _ _
  | .bsclrPp .. => Reads.bsclrPp _ _ _ _
  | .bsclrQq .. => Reads.bsclrQq _ _ _ _
  | .bsclrReg .. => Reads.bsclrReg _ _ _
  | .bssetEa .. => Reads.bssetEa _ _ _ _
  | .bssetAa .. => Reads.bssetAa _ _ _ _
  | .bssetPp .. => Reads.bssetPp _ _ _ _
  | .bssetQq .. => Reads.bssetQq _ _ _ _
  | .bssetReg .. => Reads.bssetReg _ _ _
  | .brkcc .. => Reads.brkcc _
  | .bsccLong .. => Reads.bsccLong _ _
  | .bsccShort .. => Reads.bsccShort _ _
  | .bsccReg .. => Reads.bsccReg _ _
  | .bsrLong .. => Reads.bsrLong _
  | .bsrShort .. => Reads.bsrShort _
  | .bsrReg .. => Reads.bsrReg _
  | .clb .. => Reads.clb _ _
  | .cmpShort .. => Reads.cmpShort _ _
  | .cmpImm .. => Reads.cmpImm _ _
  | .cmpu .. => Reads.cmpu _ _
  | .debugcc .. => Reads.debugcc _
  | .dec .. => Reads.dec _
  | .div .. => Reads.div _ _
  | .dmac .. => Reads.dmac _ _ _ _
  | .doEa .. => Reads.doEa _ _ _
  | .doAa .. => Reads.doAa _ _ _
  | .doNum .. => Reads.doNum _ _
  | .doReg .. => Reads.doReg _ _
  | .dorEa .. => Reads.dorEa _ _ _
  | .dorAa .. => Reads.dorAa _ _ _
  | .dorNum .. => Reads.dorNum _ _
  | .dorReg .. => Reads.dorReg _ _
  | .repEa .. => Reads.repEa _ _
  | .repAa .. => Reads.repAa _ _
  | .repNum .. => Reads.repNum _
  | .repReg .. => Reads.repReg _
  | .doForever .. => Reads.doForever _
  | .dorForever .. => Reads.dorForever _
  | .eorShort .. => Reads.eorShort _ _
  | .eorImm .. => Reads.eorImm _ _
  | .extractBy .. => Reads.extractBy _ _ _
  | .extractNum .. => Reads.extractNum _ _ _
  | .extractuBy .. => Reads.extractuBy _ _ _
  | .extractuNum .. => Reads.extractuNum _ _ _
  | .inc .. => Reads.inc _
  | .insertBy .. => Reads.insertBy _ _ _
  | .insertNum .. => Reads.insertNum _ _ _
  | .jccShort .. => Reads.jccShort _ _
  | .jccEa .. => Reads.jccEa _ _
  | .jclrEa .. => Reads.jclrEa _ _ _ _
  | .jclrAa .. => Reads.jclrAa _ _ _ _
  | .jclrPp .. => Reads.jclrPp _ _ _ _
  | .jclrQq .. => Reads.jclrQq _ _ _ _
  | .jclrReg .. => Reads.jclrReg _ _ _
  | .jsetEa .. => Reads.jsetEa _ _ _ _
  | .jsetAa .. => Reads.jsetAa _ _ _ _
  | .jsetPp .. => Reads.jsetPp _ _ _ _
  | .jsetQq .. => Reads.jsetQq _ _ _ _
  | .jsetReg .. => Reads.jsetReg _ _ _
  | .jsclrEa .. => Reads.jsclrEa _ _ _ _
  | .jsclrAa .. => Reads.jsclrAa _ _ _ _
  | .jsclrPp .. => Reads.jsclrPp _ _ _ _
  | .jsclrQq .. => Reads.jsclrQq _ _ _ _
  | .jsclrReg .. => Reads.jsclrReg _ _ _
  | .jssetEa .. => Reads.jssetEa _ _ _ _
  | .jssetAa .. => Reads.jssetAa _ _ _ _
  | .jssetPp .. => Reads.jssetPp _ _ _ _
  | .jssetQq .. => Reads.jssetQq _ _ _ _
  | .jssetReg .. => Reads.jssetReg _ _ _
  | .jmpShort .. => Reads.jmpShort _
  | .jmpEa .. => Reads.jmpEa _
  | .jsccShort .. => Reads.jsccShort _ _
  | .jsccEa .. => Reads.jsccEa _ _
  | .jsrShort .. => Reads.jsrShort _
  | .jsrEa .. => Reads.jsrEa _
  | .lraReg .. => Reads.lraReg _ _
  | .lraLong .. => Reads.lraLong _ _
  | .lslNum .. => Reads.lslNum _ _
  | .lslBy .. => Reads.lslBy _ _
  | .lsrNum .. => Reads.lsrNum _ _
  | .lsrBy .. => Reads.lsrBy _ _
  | .luaEa .. => Reads.luaEa _ _ _
  | .luaDisp .. => Reads.luaDisp _ _ _
  | .macNum .. => Reads.macNum _ _ _ _
  | .macSu .. => Reads.macSu _ _ _ _
  | .maci .. => Reads.maci _ _ _ _
  | .macrNum .. => Reads.macrNum _ _ _ _
  | .macri .. => Reads.macri _ _ _ _
  | .merge .. => Reads.merge _ _
  | .moveXLong .. => Reads.moveXLong _ _ _ _
  | .moveYLong .. => Reads.moveYLong _ _ _ _
  | .moveXShort .. => Reads.moveXShort _ _ _ _
  | .moveYShort .. => Reads.moveYShort _ _ _ _
  | .movecEa .. => Reads.movecEa _ _ _ _
  | .movecAa .. => Reads.movecAa _ _ _ _
  | .movecReg .. => Reads.movecReg _ _ _
  | .movecImm .. => Reads.movecImm _ _
  | .movemEa .. => Reads.movemEa _ _ _
  | .movemAa .. => Reads.movemAa _ _ _
  | .movepPpEa .. => Reads.movepPpEa _ _ _ _ _
  | .movepXqqEa .. => Reads.movepXqqEa _ _ _ _
  | .movepYqqEa .. => Reads.movepYqqEa _ _ _ _
  | .movepPpP .. => Reads.movepPpP _ _ _ _
  | .movepQqP .. => Reads.movepQqP _ _ _ _
  | .movepPpReg .. => Reads.movepPpReg _ _ _ _
  | .movepXqqReg .. => Reads.movepXqqReg _ _ _
  | .movepYqqReg .. => Reads.movepYqqReg _ _ _
  | .mpyNum .. => Reads.mpyNum _ _ _ _
  | .mpySu .. => Reads.mpySu _ _ _ _
  | .mpyi .. => Reads.mpyi _ _ _ _
  | .mpyrNum .. => Reads.mpyrNum _ _ _ _
  | .mpyri .. => Reads.mpyri _ _ _ _
  | .norm .. => Reads.norm _ _
  | .normf .. => Reads.normf _ _
  | .orShort .. => Reads.orShort _ _
  | .orImm .. => Reads.orImm _ _
  | .ori .. => Reads.ori _ _
  | .plock .. => Reads.plock _
  | .plockr .. => Reads.plockr _
  | .punlock .. => Reads.punlock _
  | .punlockr .. => Reads.punlockr _
  | .subShort .. => Reads.subShort _ _
  | .subImm .. => Reads.subImm _ _
  | .tccD .. => Reads.tccD _ _ _
  | .tccDR .. => Reads.tccDR _ _ _ _ _
  | .tccR .. => Reads.tccR _ _ _
  | .trapcc .. => Reads.trapcc _
  | .vsl .. => Reads.vsl _ _ _
  | .moveNone => decode_parallel (.none) .move
  | .debug => Reads.debug
  | .enddo => Reads.enddo
  | .illegal => Reads.illegal
  | .nop => Reads.nop
  | .pflush => Reads.pflush
  | .pflushun => Reads.pflushun
  | .pfree => Reads.pfree
  | .reset => Reads.reset
  | .rti => Reads.rti
  | .rts => Reads.rts
  | .stop => Reads.stop
  | .trap => Reads.trap
  | .wait => Reads.wait

end Sys2Proof

open Sys2Proof

/-- Settles O2, instruction by instruction: a row of the non-parallel format, or the move and the operation byte. -/
theorem decode_encode : Obligations.Decode_encode := reads

end

section
/-!
X and Y memory and program memory (20_memory R100 to R108; 48_cache R543, R556; 92_eei_decisions D8, D23): which addresses
name one word, and what a write changes.
-/
namespace Sys2Proof.Machine

/-! ## The address on eighteen lines -/

/-- The address that a device with 18 address lines puts on the bus (92_eei_decisions D23). -/
def onLines (a : Word) : Word := a &&& 0x03FFFF#24

theorem toNat_onLines (a : Word) : (onLines a).toNat = a.toNat % 2 ^ 18 := by
  rw [onLines, BitVec.toNat_and]
  exact Nat.and_two_pow_sub_one_eq_mod a.toNat 18

theorem fewLines_iff (a : Word) : fewLines a = true ↔ a.toNat < 2 ^ 18 ∨ Config.extAddrLines24 = true := by
  simp [fewLines]

variable (s : State) {a b : Word}

theorem State.mapAddr_of_sc (h : s.sc = true) (a : Word) : s.mapAddr a = a.toNat % 2 ^ 16 := by simp [State.mapAddr, h]

theorem State.mapAddr_of_not_sc (h : s.sc = false) (a : Word) : s.mapAddr a = a.toNat := by simp [State.mapAddr, h]

/-! ## Regions of data memory -/

/-- In Sixteen-bit Compatibility mode the region decode does not see the eight MSBs (20_memory R108; D8). -/
theorem State.inRam_congr (h : s.mapAddr a = s.mapAddr b) (sp : Space) : s.inRam sp a = s.inRam sp b := by
  cases sp <;> simp [State.inRam, h]

theorem State.inRam_lt (sp : Space) (h : s.inRam sp a = true) : s.mapAddr a < 2 ^ 16 := by
  cases sp with
  | x =>
    have := (Config.xRamSize s.memSwitch.1 s.memSwitch.2).isLt
    simp only [State.inRam, decide_eq_true_eq] at h
    omega
  | y =>
    have := (Config.yRamSize s.memSwitch.1 s.memSwitch.2).isLt
    simp only [State.inRam, decide_eq_true_eq] at h
    omega

theorem State.internalIo_congr (sc : s.sc = true) (h : a.toNat % 2 ^ 18 = b.toNat % 2 ^ 18) (sp : Space) :
    s.internalIo sp a = s.internalIo sp b := by
  have hm : s.mapAddr a = s.mapAddr b := by rw [s.mapAddr_of_sc sc, s.mapAddr_of_sc sc]; omega
  have hk : Fin.ofNat 8 (a.toNat / 16) = Fin.ofNat 8 (b.toNat / 16) := by
    ext
    simp only [Fin.ofNat]
    omega
  cases sp <;> simp only [State.internalIo, State.inIo, State.inTop, hm, hk]

/-- Outside Sixteen-bit Compatibility mode the windows at the top of the space are above the lowest 2^18 addresses. -/
theorem State.windows_of_low (sc : s.sc = false) (h : a.toNat < 2 ^ 18) :
    s.inIo a = false ∧ s.inTop a = false ∧ s.inModules a = false := by
  simp only [State.inIo, State.inTop, State.inModules, State.topOf, State.mapAddr, sc, Bool.false_eq_true, if_false,
    Bool.not_false, Bool.true_and, decide_eq_false_iff_not, Bool.and_eq_false_iff]
  omega

theorem State.inModules_of_sc (sc : s.sc = true) (a : Word) : s.inModules a = false := by simp [State.inModules, sc]

/-- The eighteen low lines of an external address name an external address, or internal RAM. -/
theorem State.dataExternal_of_onLines (sp : Space) (h : a.toNat = b.toNat % 2 ^ 18) (external : s.dataExternal sp b = true)
    (ram : s.inRam sp a = false) : s.dataExternal sp a = true := by
  cases sc : s.sc with
  | false =>
    obtain ⟨io, top, modules⟩ := s.windows_of_low sc (a := a) (by omega)
    cases sp <;> simp [State.dataExternal, State.internalIo, io, top, modules, ram]
  | true =>
    have io := s.internalIo_congr sc (a := a) (b := b) (by omega) sp
    have ext : s.internalIo sp b = false := by
      simp only [State.dataExternal, Bool.and_eq_true, Bool.not_eq_true'] at external
      exact external.1.1
    simp [State.dataExternal, io, ext, s.inModules_of_sc sc, ram]

/-- An external address below 2^18 that is in internal RAM is so in Sixteen-bit Compatibility mode. -/
theorem State.sc_of_external_ram (sp : Space) (h : a.toNat < 2 ^ 18) (external : s.dataExternal sp a = true)
    (ram : s.inRam sp a = true) : s.sc = true := by
  by_contra sc
  rw [Bool.not_eq_true] at sc
  obtain ⟨io, top, -⟩ := s.windows_of_low sc h
  simp [State.dataExternal, io, top, ram] at external

/-! ## Keys of data memory -/

/-- The three ways in which an address comes to its key. -/
theorem State.dataKey_cases (sp : Space) (a : Word) :
    (s.sc = true ∧ s.inRam sp a = true ∧ s.dataKey sp a = a.toNat % 2 ^ 16) ∨
    ¬ (s.sc = true ∧ s.inRam sp a = true) ∧
      (((a.toNat < 2 ^ 18 ∨ Config.extAddrLines24 = true ∨ s.dataExternal sp a = false) ∧ s.dataKey sp a = a.toNat) ∨
      (2 ^ 18 ≤ a.toNat ∧ Config.extAddrLines24 = false ∧ s.dataExternal sp a = true ∧
        (s.inRam sp (onLines a) = true ∧ s.dataKey sp a = 2 ^ 24 + a.toNat % 2 ^ 18 ∨
         s.inRam sp (onLines a) = false ∧ s.dataKey sp a = a.toNat % 2 ^ 18))) := by
  by_cases ram : s.sc = true ∧ s.inRam sp a = true
  · exact .inl ⟨ram.1, ram.2, by simp [State.dataKey, ram.1, ram.2, s.mapAddr_of_sc ram.1]⟩
  · refine .inr ⟨ram, ?_⟩
    have hr : (s.sc && s.inRam sp a) = false := by rwa [← Bool.not_eq_true, Bool.and_eq_true]
    by_cases few : fewLines a = true ∨ s.dataExternal sp a = false
    · left
      refine ⟨by simpa [fewLines_iff, or_assoc] using few, ?_⟩
      rcases few with few | few <;> simp [State.dataKey, hr, few]
    · right
      simp only [not_or, Bool.not_eq_true, Bool.not_eq_false] at few
      have few' := few.1
      simp only [fewLines, Bool.or_eq_false_iff, decide_eq_false_iff_not, not_lt] at few'
      refine ⟨few'.1, few'.2, few.2, ?_⟩
      cases hl : s.inRam sp (onLines a) with
      | true => exact .inl ⟨rfl, by simp [State.dataKey, hr, few, show s.inRam sp (a &&& 0x03FFFF#24) = true from hl]⟩
      | false => exact .inr ⟨rfl, by simp [State.dataKey, hr, few, show s.inRam sp (a &&& 0x03FFFF#24) = false from hl]⟩

/-- In Sixteen-bit Compatibility mode two addresses with the same sixteen low bits are both internal RAM or neither. -/
theorem State.inRam_of_low16 (sp : Space) (sc : s.sc = true) (h : a.toNat % 2 ^ 16 = b.toNat % 2 ^ 16) :
    s.inRam sp a = s.inRam sp b :=
  s.inRam_congr (by rw [s.mapAddr_of_sc sc, s.mapAddr_of_sc sc, h]) sp

/-- The low lines of an external address, where internal RAM does not hide them, are an external address. -/
theorem State.external_onLines (sp : Space) (lines : Config.extAddrLines24 = false)
    (external : s.dataExternal sp b = true) (ram : s.inRam sp (onLines b) = false) (h : a.toNat = b.toNat % 2 ^ 18) :
    Config.extAddrLines24 = false ∧ s.dataExternal sp a = true ∧ s.dataExternal sp b = true ∧
      a.toNat % 2 ^ 18 = b.toNat % 2 ^ 18 := by
  have hab : a = onLines b := BitVec.eq_of_toNat_eq (by rw [toNat_onLines, h])
  exact ⟨lines, s.dataExternal_of_onLines sp h external (hab ▸ ram), external, by omega⟩

theorem State.dataKey_inj (sp : Space) (h : s.dataKey sp a = s.dataKey sp b) :
    a = b ∨
    (Config.extAddrLines24 = false ∧ s.dataExternal sp a = true ∧ s.dataExternal sp b = true ∧
      a.toNat % 2 ^ 18 = b.toNat % 2 ^ 18) ∨
    (s.sc = true ∧ s.inRam sp a = true ∧ s.inRam sp b = true ∧ a.toNat % 2 ^ 16 = b.toNat % 2 ^ 16) := by
  have la := toNat_onLines a
  have lb := toNat_onLines b
  rcases s.dataKey_cases sp a with ⟨sc, ra, ka⟩ | ⟨na, ⟨fa, ka⟩ | ⟨ga, xa, ea, ⟨ra, ka⟩ | ⟨ra, ka⟩⟩⟩ <;>
  rcases s.dataKey_cases sp b with ⟨sc', rb, kb⟩ | ⟨nb, ⟨fb, kb⟩ | ⟨gb, xb, eb, ⟨rb, kb⟩ | ⟨rb, kb⟩⟩⟩
  · exact .inr (.inr ⟨sc, ra, rb, by omega⟩)
  · exact absurd ⟨sc, (s.inRam_of_low16 sp sc (by omega)).symm.trans ra⟩ nb
  · omega
  · rw [s.inRam_of_low16 (b := a) sp sc (by omega), ra] at rb
    exact absurd rb (by simp)
  · exact absurd ⟨sc', (s.inRam_of_low16 sp sc' (by omega)).trans rb⟩ na
  · exact .inl (BitVec.eq_of_toNat_eq (by omega))
  · omega
  · exact .inr (.inl (s.external_onLines sp xb eb rb (by omega)))
  · omega
  · omega
  · exact .inr (.inl ⟨xa, ea, eb, by omega⟩)
  · omega
  · rw [s.inRam_of_low16 (b := b) sp sc' (by omega), rb] at ra
    exact absurd ra (by simp)
  · obtain ⟨h1, h2, h3, h4⟩ := s.external_onLines (a := b) sp xa ea ra (by omega)
    exact .inr (.inl ⟨h1, h3, h2, h4.symm⟩)
  · omega
  · exact .inr (.inl ⟨xa, ea, eb, by omega⟩)

/-- On a device with 18 address lines the key of an external address is that of its low lines. -/
theorem State.dataKey_of_external (sp : Space) (lines : Config.extAddrLines24 = false) (external : s.dataExternal sp a = true) :
    s.dataKey sp a = if s.sc && s.inRam sp a then a.toNat % 2 ^ 16
      else if s.inRam sp (onLines a) then 2 ^ 24 + a.toNat % 2 ^ 18 else a.toNat % 2 ^ 18 := by
  rcases s.dataKey_cases sp a with ⟨sc, ra, ka⟩ | ⟨na, ⟨fa, ka⟩ | ⟨ga, xa, ea, ⟨ra, ka⟩ | ⟨ra, ka⟩⟩⟩
  · simp [sc, ra, ka]
  · have low : a.toNat < 2 ^ 18 := by simpa [lines, external] using fa
    have ha : onLines a = a := BitVec.eq_of_toNat_eq (by rw [toNat_onLines]; omega)
    have ram : s.inRam sp a = false := by
      by_contra ram
      rw [Bool.not_eq_false] at ram
      exact na ⟨s.sc_of_external_ram sp low external ram, ram⟩
    rw [ka, ha, ram]
    simp
    omega
  · rw [ka, ra, if_pos rfl, if_neg (by simpa using na)]
  · rw [ka, ra, if_neg (by simpa using na)]
    simp

theorem State.dataKey_of_lines (sp : Space) (lines : Config.extAddrLines24 = false) (ea : s.dataExternal sp a = true)
    (eb : s.dataExternal sp b = true) (h : a.toNat % 2 ^ 18 = b.toNat % 2 ^ 18) : s.dataKey sp a = s.dataKey sp b := by
  have hl : onLines a = onLines b := BitVec.eq_of_toNat_eq (by rw [toNat_onLines, toNat_onLines, h])
  rw [s.dataKey_of_external sp lines ea, s.dataKey_of_external sp lines eb, hl, h]
  cases sc : s.sc with
  | false => simp
  | true => rw [s.inRam_of_low16 (a := a) (b := b) sp sc (by omega), show a.toNat % 2 ^ 16 = b.toNat % 2 ^ 16 by omega]

theorem State.dataKey_of_ram (sp : Space) (sc : s.sc = true) (ra : s.inRam sp a = true) (rb : s.inRam sp b = true)
    (h : a.toNat % 2 ^ 16 = b.toNat % 2 ^ 16) : s.dataKey sp a = s.dataKey sp b := by
  simp only [State.dataKey, sc, ra, rb, s.mapAddr_of_sc sc, h, Bool.and_self, if_true]

/-! ## A write of data memory -/

theorem State.readCoreReg_withDataMem (sp : Space) (m : Mem) (k : Nat) :
    (s.withDataMem sp m).readCoreReg k = s.readCoreReg k := by
  cases sp <;> rfl

theorem State.map_withDataMem (sp sq : Space) (m : Mem) (b : Word) :
    (s.withDataMem sp m).internalIo sq b = s.internalIo sq b ∧ (s.withDataMem sp m).inIo b = s.inIo b ∧
      (s.withDataMem sp m).inRom sq b = s.inRom sq b ∧ (s.withDataMem sp m).inVoid sq b = s.inVoid sq b ∧
      (s.withDataMem sp m).ebd = s.ebd ∧ (s.withDataMem sp m).dataExternal sq b = s.dataExternal sq b ∧
      (s.withDataMem sp m).absent sq b = s.absent sq b ∧ (s.withDataMem sp m).dataKey sq b = s.dataKey sq b := by
  cases sp <;> exact ⟨rfl, rfl, rfl, rfl, rfl, rfl, rfl, rfl⟩

/-- A read depends on a data space only through the word at the key of its address. -/
theorem State.readData_withDataMem (sp sq : Space) (m : Mem) (b : Word)
    (h : sq = sp → m.read (s.dataKey sq b) = (s.dataMem sq).read (s.dataKey sq b)) :
    (s.withDataMem sp m).readData sq b = s.readData sq b := by
  obtain ⟨io, window, rom, void, ebd, external, absent, key⟩ := s.map_withDataMem sp sq m b
  have word : ((s.withDataMem sp m).dataMem sq).read (s.dataKey sq b) = (s.dataMem sq).read (s.dataKey sq b) := by
    rw [State.dataMem_withDataMem]
    split
    · next e => exact h e
    · rfl
  simp only [State.readData, io, window, rom, void, ebd, external, absent, key, word, s.readCoreReg_withDataMem]

/-- A write of data memory proper: dropped, or one word of the space replaced. -/
theorem State.writeData_of_memory (sp : Space) (a w : Word) (io : s.internalIo sp a = false) :
    s.writeData sp a w =
      if s.inRom sp a = true ∨ s.inVoid sp a = true ∨ (s.ebd = true ∧ s.dataExternal sp a = true) then s
      else s.withDataMem sp ((s.dataMem sp).write (s.dataKey sp a) w) := by
  simp [State.writeData, io, or_assoc]

theorem State.readData_written (sp : Space) (a w : Word) (io : s.internalIo sp a = false)
    (taken : ¬ (s.inRom sp a = true ∨ s.inVoid sp a = true ∨ (s.ebd = true ∧ s.dataExternal sp a = true))) :
    (s.withDataMem sp ((s.dataMem sp).write (s.dataKey sp a) w)).readData sp a = w := by
  obtain ⟨io', -, rom, void, ebd, external, -, key⟩ := s.map_withDataMem sp sp ((s.dataMem sp).write (s.dataKey sp a) w) a
  simp only [not_or, not_and, Bool.not_eq_true] at taken
  obtain ⟨notRom, notVoid, bus⟩ := taken
  have served : (s.ebd && s.dataExternal sp a) = false := by
    cases h : s.ebd with
    | false => rfl
    | true => exact bus h
  simp [State.readData, io', io, rom, void, ebd, external, key, notRom, notVoid, served]

/-! ## Places of program memory -/

theorem State.inCacheWords_congr (h : s.mapAddr a = s.mapAddr b) : s.inCacheWords a = s.inCacheWords b := by
  simp [State.inCacheWords, h]

theorem State.pRegions_congr (h : s.mapAddr a = s.mapAddr b) :
    s.pInCacheRange a = s.pInCacheRange b ∧ s.pInRam a = s.pInRam b := by
  simp [State.pInCacheRange, State.pInRam, s.inCacheWords_congr h, h]

/-- In Sixteen-bit Compatibility mode the sixteen low bits decide what of internal program memory answers. -/
theorem State.pRegions_of_low16 (sc : s.sc = true) (h : a.toNat % 2 ^ 16 = b.toNat % 2 ^ 16) :
    s.pInCacheRange a = s.pInCacheRange b ∧ s.pInRam a = s.pInRam b :=
  s.pRegions_congr (by rw [s.mapAddr_of_sc sc, s.mapAddr_of_sc sc, h])

theorem State.pInModules_of_low (h : a.toNat < 2 ^ 18) : s.pInModules a = false := by
  simp [State.pInModules]
  omega

theorem State.mapAddr_lt_of_cacheRange (h : s.pInCacheRange a = true) : s.mapAddr a < 2 ^ 16 := by
  have := Config.icacheStart.isLt
  simp only [State.pInCacheRange, State.inCacheWords, Bool.and_eq_true, decide_eq_true_eq] at h
  omega

/-- The words of the cache are external memory in Cache mode (48_cache R540). -/
theorem State.pExternal_of_cacheRange (h : s.pInCacheRange a = true) : s.pExternal a = true := by
  have lt := s.mapAddr_lt_of_cacheRange h
  have out : s.pInModules a = false := by
    cases sc : s.sc with
    | true => simp [State.pInModules, sc]
    | false =>
      rw [s.mapAddr_of_not_sc sc] at lt
      exact s.pInModules_of_low (by omega)
  simp [State.pExternal, out, State.pInRam, h]

/-- The low lines of an address in the cache's words are in them too. -/
theorem State.pInCacheRange_onLines (h : s.pInCacheRange a = true) : s.pInCacheRange (onLines a) = true := by
  cases sc : s.sc with
  | true => rw [← h]; exact (s.pRegions_of_low16 sc (by rw [toNat_onLines]; omega)).1
  | false =>
    have lt := s.mapAddr_lt_of_cacheRange h
    rw [s.mapAddr_of_not_sc sc] at lt
    rw [show onLines a = a from BitVec.eq_of_toNat_eq (by rw [toNat_onLines]; omega)]
    exact h

theorem State.pInRam_of_cacheRange (h : s.pInCacheRange a = true) : s.pInRam a = false := by simp [State.pInRam, h]

/-- The three ways in which an address comes to its place in program memory. -/
theorem State.pPlace_cases (a : Word) :
    (s.sc = true ∧ s.pInRam a = true ∧ s.pPlace a = (false, a.toNat % 2 ^ 16)) ∨
    ¬ (s.sc = true ∧ s.pInRam a = true) ∧
      ((a.toNat < 2 ^ 18 ∨ Config.extAddrLines24 = true ∨ s.pExternal a = false) ∧
        s.pPlace a = (s.pInCacheRange a, a.toNat) ∨
      Config.extAddrLines24 = false ∧ s.pExternal a = true ∧
        s.pPlace a = (s.pInRam (onLines a) || s.pInCacheRange (onLines a), a.toNat % 2 ^ 18)) := by
  have few : fewLines a = true ↔ a.toNat < 2 ^ 18 ∨ Config.extAddrLines24 = true := fewLines_iff a
  cases cache : s.pInCacheRange a with
  | true =>
    refine .inr ⟨by simp [s.pInRam_of_cacheRange cache], ?_⟩
    by_cases hf : fewLines a = true
    · exact .inl ⟨by simpa only [← or_assoc] using .inl (few.1 hf), by simp [State.pPlace, cache, hf]⟩
    · rw [few, not_or, Bool.not_eq_true] at hf
      refine .inr ⟨hf.2, s.pExternal_of_cacheRange cache, ?_⟩
      simp only [State.pPlace, cache, s.pInCacheRange_onLines cache, if_true, Bool.or_true, fewLines, hf, decide_false,
        Bool.or_self, Bool.false_eq_true, if_false]
  | false =>
    by_cases ram : s.sc = true ∧ s.pInRam a = true
    · exact .inl ⟨ram.1, ram.2, by simp [State.pPlace, cache, ram, s.mapAddr_of_sc ram.1]⟩
    · refine .inr ⟨ram, ?_⟩
      have hr : (s.sc && s.pInRam a) = false := by rwa [← Bool.not_eq_true, Bool.and_eq_true]
      by_cases hf : fewLines a = true ∨ s.pExternal a = false
      · refine .inl ⟨by rwa [few, or_assoc] at hf, ?_⟩
        rcases hf with hf | hf <;> simp [State.pPlace, cache, hr, hf]
      · rw [not_or, few, not_or, Bool.not_eq_true, Bool.not_eq_false] at hf
        refine .inr ⟨hf.1.2, hf.2, ?_⟩
        simp only [State.pPlace, cache, hr, fewLines, hf, decide_false, Bool.or_self, Bool.not_true, Bool.false_eq_true,
          if_false, onLines]

theorem State.pExternal_of_low (h : a.toNat < 2 ^ 18) (ram : s.pInRam a = false) : s.pExternal a = true := by
  simp [State.pExternal, s.pInModules_of_low h, ram]

/-- An address that keeps all its bits and has the place of one that loses some is that address on the lines of the bus. -/
theorem State.pExternal_of_place (ka : s.pPlace a = (s.pInCacheRange a, a.toNat))
    (kb : s.pPlace b = (s.pInRam (onLines b) || s.pInCacheRange (onLines b), b.toNat % 2 ^ 18))
    (h : s.pPlace a = s.pPlace b) : s.pExternal a = true ∧ a.toNat % 2 ^ 18 = b.toNat % 2 ^ 18 := by
  rw [ka, kb, Prod.mk.injEq] at h
  obtain ⟨flag, key⟩ := h
  rw [show onLines b = a from BitVec.eq_of_toNat_eq (by rw [toNat_onLines, key])] at flag
  refine ⟨?_, by omega⟩
  cases cache : s.pInCacheRange a with
  | true => exact s.pExternal_of_cacheRange cache
  | false => exact s.pExternal_of_low (by omega) (by simpa [cache] using flag)

/-- An address that is internal RAM in Sixteen-bit Compatibility mode shares its place with no address that is not. -/
theorem State.pPlace_ram (sc : s.sc = true) (ra : s.pInRam a = true) (ka : s.pPlace a = (false, a.toNat % 2 ^ 16))
    (h : s.pPlace a = s.pPlace b) : s.pInRam b = true ∧ a.toNat % 2 ^ 16 = b.toNat % 2 ^ 16 := by
  rcases s.pPlace_cases b with ⟨-, rb, kb⟩ | ⟨-, ⟨-, kb⟩ | ⟨-, -, kb⟩⟩ <;>
    (rw [ka, kb, Prod.mk.injEq] at h; obtain ⟨flag, key⟩ := h)
  · exact ⟨rb, key⟩
  · exact ⟨(s.pRegions_of_low16 (b := a) sc (by omega)).2.trans ra, by omega⟩
  · have ram : s.pInRam (onLines b) = true :=
      (s.pRegions_of_low16 (b := a) sc (by rw [toNat_onLines]; omega)).2.trans ra
    rw [ram] at flag
    simp at flag

theorem State.pPlace_inj (h : s.pPlace a = s.pPlace b) :
    a = b ∨
    (Config.extAddrLines24 = false ∧ s.pExternal a = true ∧ s.pExternal b = true ∧ a.toNat % 2 ^ 18 = b.toNat % 2 ^ 18) ∨
    (s.sc = true ∧ s.pInRam a = true ∧ s.pInRam b = true ∧ a.toNat % 2 ^ 16 = b.toNat % 2 ^ 16) := by
  rcases s.pPlace_cases a with ⟨sc, ra, ka⟩ | ⟨na, ⟨-, ka⟩ | ⟨lines, ea, ka⟩⟩
  · obtain ⟨rb, low⟩ := s.pPlace_ram sc ra ka h
    exact .inr (.inr ⟨sc, ra, rb, low⟩)
  · rcases s.pPlace_cases b with ⟨sc, rb, kb⟩ | ⟨-, ⟨-, kb⟩ | ⟨lines, eb, kb⟩⟩
    · exact absurd ⟨sc, (s.pPlace_ram sc rb kb h.symm).1⟩ na
    · rw [ka, kb, Prod.mk.injEq] at h
      exact .inl (BitVec.eq_of_toNat_eq h.2)
    · obtain ⟨ea, low⟩ := s.pExternal_of_place ka kb h
      exact .inr (.inl ⟨lines, ea, eb, low⟩)
  · rcases s.pPlace_cases b with ⟨sc, rb, kb⟩ | ⟨-, ⟨-, kb⟩ | ⟨-, eb, kb⟩⟩
    · exact absurd ⟨sc, (s.pPlace_ram sc rb kb h.symm).1⟩ na
    · obtain ⟨eb, low⟩ := s.pExternal_of_place kb ka h.symm
      exact .inr (.inl ⟨lines, ea, eb, low.symm⟩)
    · rw [ka, kb, Prod.mk.injEq] at h
      exact .inr (.inl ⟨lines, ea, eb, h.2⟩)

/-- On a device with 18 address lines the place of an external address is that of its low lines. -/
theorem State.pPlace_of_external (lines : Config.extAddrLines24 = false) (external : s.pExternal a = true) :
    s.pPlace a = (s.pInRam (onLines a) || s.pInCacheRange (onLines a), a.toNat % 2 ^ 18) := by
  have ram : s.pInRam a = false := by
    simp only [State.pExternal, Bool.and_eq_true, Bool.not_eq_true'] at external
    exact external.2
  rcases s.pPlace_cases a with ⟨-, ra, -⟩ | ⟨-, ⟨few, ka⟩ | ⟨-, -, ka⟩⟩
  · simp [ram] at ra
  · have low : a.toNat < 2 ^ 18 := by simpa [lines, external] using few
    rw [ka, show onLines a = a from BitVec.eq_of_toNat_eq (by rw [toNat_onLines]; omega), ram, Bool.false_or,
      Nat.mod_eq_of_lt low]
  · exact ka

theorem State.pPlace_of_lines (lines : Config.extAddrLines24 = false) (ea : s.pExternal a = true) (eb : s.pExternal b = true)
    (h : a.toNat % 2 ^ 18 = b.toNat % 2 ^ 18) : s.pPlace a = s.pPlace b := by
  have hl : onLines a = onLines b := BitVec.eq_of_toNat_eq (by rw [toNat_onLines, toNat_onLines, h])
  rw [s.pPlace_of_external lines ea, s.pPlace_of_external lines eb, hl, h]

theorem State.pPlace_of_ram (sc : s.sc = true) (ra : s.pInRam a = true) (rb : s.pInRam b = true)
    (h : a.toNat % 2 ^ 16 = b.toNat % 2 ^ 16) : s.pPlace a = s.pPlace b := by
  have uncached {c : Word} (hc : s.pInRam c = true) : s.pInCacheRange c = false := by
    by_contra cache
    rw [s.pInRam_of_cacheRange ((Bool.not_eq_false _).mp cache)] at hc
    exact Bool.false_ne_true hc
  simp only [State.pPlace, uncached ra, uncached rb, sc, ra, rb, s.mapAddr_of_sc sc, h, Bool.and_self, if_true,
    Bool.false_eq_true, if_false]

/-! ## A write of program memory by a move -/

/-- The cache after a write of program memory: a cached sector takes the word too (48_cache R556). -/
def State.cacheWritten (s : State) (a w : Word) : ICache :=
  if s.ce && s.pExternal a then (match s.cache.find a with | some sec => s.cache.put sec a w | none => s.cache) else s.cache

theorem State.writeP_eq (bus : (s.ebd && s.pExternal a) = false) (w : Word) :
    s.writeP a w = (s.pRawWrite a w).withCache (s.cacheWritten a w) := by
  have same : (s.pRawWrite a w).withCache s.cache = s.pRawWrite a w :=
    congrArg (s.pRawWrite a w).withCache (s.pRawWrite_keeps a w).2.2.2.2.2.2.2.1.symm
  simp only [State.writeP, State.cacheWritten, bus, Bool.false_eq_true, if_false]
  split
  · cases s.cache.find a with
    | some sec => rfl
    | none => exact same.symm
  · exact same.symm

/-- What the cache holds for an address. -/
def ICache.word (c : ICache) (a : Word) : Option Word :=
  match c.find a with
  | some sec => if c.isValid sec (cacheVbit a) then some (c.get sec a) else none
  | none => none

/-- What external memory gives a move: the word, or none of its own with the bus disabled. -/
def State.pBus (s : State) (a : Word) : Word := if s.ebd && s.pExternal a then s.absentAt .absentP a else s.pRaw a

theorem State.readP_eq : s.readP a = if s.ce && s.pExternal a then (s.cache.word a).getD (s.pBus a) else s.pBus a := by
  simp only [State.readP, State.pBus, ICache.word]
  split
  · cases s.cache.find a with
    | none => rfl
    | some sec => dsimp only; split <;> split <;> rfl
  · rfl

/-- A fetch gives the word that the cache holds, or else the one in memory. -/
theorem State.fetch_word {v : Word} {t : State} (h : s.fetch a = some (v, t)) :
    v = if s.ce && s.pExternal a then (s.cache.word a).getD (s.pRaw a) else s.pRaw a := by
  by_cases cached : s.ce = true ∧ s.pExternal a = true
  · rw [s.fetch_of_cached cached.1 cached.2] at h
    rw [cached.1, cached.2]
    simp only [State.fetchCached, ICache.word, State.fill_get] at h ⊢
    split at h
    · next sec found => split at h <;> simp_all
    · split at h
      · simp at h
      · split at h <;> (obtain ⟨rfl, -⟩ := Prod.mk.inj (Option.some.inj h); simp_all)
  · have off : (s.ce && s.pExternal a) = false := by rwa [← Bool.not_eq_true, Bool.and_eq_true]
    simp only [State.fetch, off, Bool.false_eq_true, if_false] at h ⊢
    split at h
    · simp at h
    · exact (Prod.mk.inj (Option.some.inj h)).1.symm

theorem ICache.find_tag {c : ICache} {sec : Fin 8} (h : c.find a = some sec) : c.tag[sec] = cacheTag a := by
  simpa using List.find?_some h

theorem cache_addr_ext (tag : cacheTag a = cacheTag b) (vbit : cacheVbit a = cacheVbit b) : a = b := by
  have h := congrArg BitVec.toNat tag
  simp only [cacheTag, cacheVbit, BitVec.extractLsb'_toNat, Nat.shiftRight_eq_div_pow] at h vbit
  exact BitVec.eq_of_toNat_eq (by omega)

/-- A word put into the sector of its address is the one that the cache holds there, and it changes no other. -/
theorem ICache.word_put {c : ICache} {sec : Fin 8} (h : c.find a = some sec) (w : Word) (b : Word) :
    (c.put sec a w).word b = if b = a then some w else c.word b := by
  have find : (c.put sec a w).find b = c.find b := rfl
  have vbit (x : Word) : cacheVbit x < 128 := Nat.mod_lt _ (by decide)
  simp only [ICache.word, find]
  split_ifs with same
  · subst same
    have valid : (c.put sec b w).isValid sec (cacheVbit b) = true := by
      rw [ICache.isValid, ICache.put_valid, if_pos rfl, getLsbD_setBit]
      simp [vbit]
    have get : (c.put sec b w).get sec b = w := by simp [ICache.get, ICache.put]
    simp [h, valid, get]
  · cases hb : c.find b with
    | none => rfl
    | some j =>
      have apart : ¬ (j = sec ∧ cacheVbit b = cacheVbit a) := by
        rintro ⟨rfl, low⟩
        exact same (cache_addr_ext ((ICache.find_tag hb).symm.trans (ICache.find_tag h)) low)
      have valid : (c.put sec a w).isValid j (cacheVbit b) = c.isValid j (cacheVbit b) := by
        rw [ICache.isValid, ICache.put_valid]
        split_ifs with hj
        · subst hj
          rw [getLsbD_setBit, if_neg (fun low => apart ⟨rfl, low.1⟩), ICache.isValid]
        · rfl
      have get : (c.put sec a w).get j b = c.get j b := by
        have key : ¬ 128 * j.val + cacheVbit b = 128 * sec.val + cacheVbit a := by
          have := vbit a; have := vbit b
          rw [Fin.ext_iff] at apart
          omega
        simp only [ICache.get, ICache.put, Mem.read_write, if_neg key]
      dsimp only
      rw [valid, get]

theorem State.cacheWritten_word (cached : (s.ce && s.pExternal a) = true) (w b : Word) :
    (s.cacheWritten a w).word b = if b = a ∧ (s.cache.find a).isSome then some w else s.cache.word b := by
  simp only [State.cacheWritten, cached, if_true]
  cases found : s.cache.find a with
  | none => simp
  | some sec => simp [ICache.word_put found]

/-! ## What a move reads after a write -/

theorem State.regions_congr {t : State} (h : t.pcu = s.pcu) (a : Word) :
    t.ce = s.ce ∧ t.ebd = s.ebd ∧ t.pExternal a = s.pExternal a := by
  simp [State.ce, State.ebd, State.pExternal, State.pInRam, State.pInCacheRange, State.inCacheWords, State.mapAddr,
    State.memSwitch, State.pInModules, State.sc, State.srBit, State.omrBit, h]

theorem State.writeP_dropped (h : s.pInModules a = true ∨ (s.ebd = true ∧ s.pExternal a = true)) (w : Word) :
    s.writeP a w = s := by
  rcases h with modules | ⟨ebd, external⟩
  · have internal : s.pExternal a = false := by simp [State.pExternal, modules]
    simp [State.writeP, internal, State.pRawWrite, modules]
  · simp [State.writeP, ebd, external]

section Written
variable (taken : ¬ (s.pInModules a = true ∨ (s.ebd = true ∧ s.pExternal a = true))) (w : Word)
include taken

theorem State.writeP_taken : s.writeP a w = (s.pRawWrite a w).withCache (s.cacheWritten a w) :=
  s.writeP_eq (by rw [not_or] at taken; rw [← Bool.not_eq_true, Bool.and_eq_true]; exact taken.2) w

/-- The word that moves and fetches find after a write. -/
theorem State.pRaw_writeP (b : Word) :
    (s.writeP a w).pRaw b = if s.pInModules b = false ∧ s.pPlace b = s.pPlace a then w else s.pRaw b := by
  have modules : s.pInModules a = false := by rw [← Bool.not_eq_true]; exact fun h => taken (.inl h)
  rw [s.writeP_taken taken w, show ((s.pRawWrite a w).withCache (s.cacheWritten a w)).pRaw b = (s.pRawWrite a w).pRaw b from rfl,
    State.pRaw_pRawWrite]
  simp [modules]

theorem State.cache_writeP : (s.writeP a w).cache = s.cacheWritten a w := by rw [s.writeP_taken taken w]; rfl

theorem State.written_word :
    (if (s.writeP a w).ce && (s.writeP a w).pExternal a then ((s.writeP a w).cache.word a).getD ((s.writeP a w).pRaw a)
      else (s.writeP a w).pRaw a) = w := by
  have modules : s.pInModules a = false := by rw [← Bool.not_eq_true]; exact fun h => taken (.inl h)
  obtain ⟨ce, -, external⟩ := s.regions_congr (t := s.writeP a w) (by simp) a
  have raw : (s.writeP a w).pRaw a = w := by rw [s.pRaw_writeP taken w, if_pos ⟨modules, rfl⟩]
  rw [raw, ce, external, s.cache_writeP taken w]
  split
  · next cached =>
    rw [s.cacheWritten_word cached]
    cases found : s.cache.find a with
    | none => simp [ICache.word, found]
    | some sec => simp
  · rfl

theorem State.readP_writeP_same : (s.writeP a w).readP a = w := by
  obtain ⟨-, ebd, external⟩ := s.regions_congr (t := s.writeP a w) (by simp) a
  have bus : (s.writeP a w).pBus a = (s.writeP a w).pRaw a := by
    rw [not_or] at taken
    rw [State.pBus, ebd, external, if_neg (by rw [Bool.and_eq_true]; exact taken.2)]
  rw [State.readP_eq, bus]
  exact s.written_word taken w

theorem State.cacheWord_writeP (b : Word) (other : s.pPlace b ≠ s.pPlace a) :
    (s.writeP a w).cache.word b = s.cache.word b := by
  have apart : b ≠ a := fun h => other (congrArg s.pPlace h)
  rw [s.cache_writeP taken w]
  by_cases cached : (s.ce && s.pExternal a) = true
  · rw [s.cacheWritten_word cached, if_neg (fun h => apart h.1)]
  · rw [State.cacheWritten, if_neg cached]

theorem State.readP_writeP_other {b : Word} (other : s.pPlace b ≠ s.pPlace a) : (s.writeP a w).readP b = s.readP b := by
  obtain ⟨ce, ebd, external⟩ := s.regions_congr (t := s.writeP a w) (by simp) b
  have raw : (s.writeP a w).pRaw b = s.pRaw b := by rw [s.pRaw_writeP taken w, if_neg (fun h => other h.2)]
  have bus : (s.writeP a w).pBus b = s.pBus b := by simp [State.pBus, ebd, external, raw, State.absentAt]
  rw [State.readP_eq, State.readP_eq, ce, external, bus, s.cacheWord_writeP taken w b other]

end Written

end Sys2Proof.Machine

open Sys2Proof Sys2Proof.Machine

/-- Settles O6: a write replaces the word at one key, and `dataKey_inj` says which addresses share it. -/
theorem data_memory : Obligations.Data_memory := by
  refine ⟨fun s sp a w io => ?_, fun s sp a b => ⟨s.dataKey_inj sp, ?_⟩⟩
  · rw [s.writeData_of_memory sp a w io]
    split
    · rfl
    · next taken =>
      refine ⟨s.readData_written sp a w io taken, fun sq b other => s.readData_withDataMem sp sq _ b ?_⟩
      rintro rfl
      rw [Mem.read_write, if_neg (by simpa using other)]
  · rintro (rfl | ⟨lines, ea, eb, h⟩ | ⟨sc, ra, rb, h⟩)
    · rfl
    · exact s.dataKey_of_lines sp lines ea eb h
    · exact s.dataKey_of_ram sp sc ra rb h

/-- Settles O7: a write is one of memory at `pPlace` and of the cached word, and `pPlace_inj` says which addresses share a place. -/
theorem program_memory : Obligations.Program_memory := by
  refine ⟨fun s a w => ?_, fun s a b => ⟨s.pPlace_inj, ?_⟩⟩
  · split
    · next dropped => exact s.writeP_dropped dropped w
    · next taken =>
      exact ⟨s.readP_writeP_same taken w, fun v t h => ((s.writeP a w).fetch_word h).trans (s.written_word taken w),
        fun b other => s.readP_writeP_other taken w other⟩
  · rintro (rfl | ⟨lines, ea, eb, h⟩ | ⟨sc, ra, rb, h⟩)
    · rfl
    · exact s.pPlace_of_lines lines ea eb h
    · exact s.pPlace_of_ram sc ra rb h

end

section
/-!
Words of the worked examples, the reset state, jumps and calls (30_encoding, 10_state, 47_program_control R470; 60_exceptions
R572).
-/
namespace Sys2Proof.Machine

variable (s : State)

/-! ## PC-relative targets (20_memory R118) -/

/-- A displacement counts modulo 2^24 as the signed number that it is. -/
theorem toNat_add_signExtend (a : Word) {n : Nat} (e : BitVec n) (h : n ≤ 24) :
    ((a + e.signExtend 24).toNat : Int) = (a.toNat + e.toInt) % 2 ^ 24 := by
  have ext : (e.signExtend 24).toInt = e.toInt := BitVec.toInt_signExtend_of_le h
  rw [BitVec.toNat_add, ← ext, BitVec.toInt_eq_toNat_cond]
  push_cast
  split <;> omega

/-! ## The long entry of an interrupt (60_exceptions R572) -/

theorem toNat_raisedMask (i l : BitVec 2) : (raisedMask i l).toNat = max i.toNat (min (l.toNat + 1) 3) := by
  revert i l; decide

theorem entrySr_bit (v : Word) (l : BitVec 2) {k : Nat} (h : k < 24) (h8 : k ≠ 8) (h9 : k ≠ 9) :
    (entrySr v l).getLsbD k = (k != 17 && k != 15 && k != 11 && k != 10 && v.getLsbD k) := by
  have mask : ∀ k < 24, k ≠ 8 → k ≠ 9 →
      (0xFD70FF#24).getLsbD k = (k != 17 && k != 15 && k != 11 && k != 10) := by decide
  have out : ¬ k < 8 → ((raisedMask (v.extractLsb' 8 2) l).setWidth 24).getLsbD (k - 8) = false := fun low => by
    rw [BitVec.getLsbD_setWidth, BitVec.getLsbD_of_ge (raisedMask _ _) _ (by omega), Bool.and_false]
  simp only [entrySr, BitVec.getLsbD_or, BitVec.getLsbD_and, BitVec.getLsbD_shiftLeft, mask k h h8 h9]
  by_cases low : k < 8
  · simp [low, Bool.and_comm]
  · simp [out low, Bool.and_comm]

theorem entrySr_mask (v : Word) (l : BitVec 2) : (entrySr v l).extractLsb' 8 2 = raisedMask (v.extractLsb' 8 2) l := by
  generalize hm : raisedMask (v.extractLsb' 8 2) l = m
  have field : ∀ m : BitVec 2, ((m.setWidth 24 : Word) <<< 8).extractLsb' 8 2 = m := by decide
  rw [entrySr, hm, BitVec.extractLsb'_or, field m, BitVec.extractLsb'_and]
  simp

theorem State.jump_of_program (h : s.ctl.ctx = none) (a : Word) : s.jump a = s.withPc a := by
  have same : s.withCtx none = s := by rw [← h]; rfl
  rw [State.jump, same]

theorem State.call_of_program (h : s.ctl.ctx = none) (n : Nat) (a : Word) :
    s.call n a = (s.push (s.nextPc n) s.pcu.sr).withPc a := by
  have outside : (s.push (s.nextPc n) s.pcu.sr).ctl.ctx = none := by simp [h]
  simp only [State.call, h, State.jump_of_program _ outside]

/-- A call taken in a vector word pushes the frozen PC and SR, and raises the mask above the interrupt's level. -/
theorem State.call_of_vector {c : IntCtx} (h : s.ctl.ctx = some c) (n : Nat) (a : Word) :
    s.call n a = (((s.push s.pcu.pc s.pcu.sr).withSr (entrySr s.pcu.sr c.level)).withCtx none).withPc a := by
  have sr : (s.push s.pcu.pc s.pcu.sr).pcu.sr = s.pcu.sr := by simp
  simp only [State.call, h, State.longEntry, sr, State.jump]

end Sys2Proof.Machine

open Sys2Proof Sys2Proof.Machine

/-- Settles O1: each word is read off by the decoder's tables. -/
theorem decode_words : Obligations.Decode_words := by
  unfold Obligations.Decode_words
  refine ⟨rfl, rfl, rfl, rfl, rfl, rfl, rfl, rfl, rfl, rfl, rfl, rfl, rfl, rfl, rfl, rfl, rfl, rfl, rfl, rfl, rfl, rfl⟩

/-- Settles O4: the reset state's memories are empty or canonical, and its registers have no reserved bit set. -/
theorem inv_reset : Obligations.Inv_reset where
  mem := Memory.wf_reset
  sr := by decide
  omr := OmrOk.sub (by decide)
  vba := by decide
  lru := List.Perm.refl _
  irq := ⟨BitVec.zero_and, Nat.zero_le 6⟩
  ctx := fun _ h => by cases h
  trace := by decide

/-- Settles O40, by the meaning of each jump and the arithmetic of a displacement. -/
theorem jumps : Obligations.Jumps := by
  refine ⟨fun s i F h => exec_of_jumpOf h, fun s d e n => ⟨⟨_, rfl, ?_⟩, ⟨_, rfl, ?_⟩, ⟨_, rfl, ?_, rfl⟩⟩⟩
  · exact BitVec.toNat_add ..
  · exact toNat_add_signExtend _ e (by omega)
  · exact BitVec.toNat_add ..

/-- Settles O41, by the three ways in which a call ends. -/
theorem calls : Obligations.Calls := by
  intro s i F h
  have run := exec_of_callOf h
  have pcu : (s.applyUpd F.upd).pcu = s.pcu := by simp
  have ctl : (s.applyUpd F.upd).ctl = s.ctl := by simp
  refine ⟨fun untaken => ?_, fun taken outside => ?_, fun taken c within => ?_⟩
  · rw [run, untaken]; rfl
  · have next : (s.applyUpd F.upd).nextPc i.len = s.nextPc i.len :=
      State.nextPc_congr (by rw [pcu]) (by rw [ctl]) (by rw [ctl]) i.len
    rw [run, if_pos taken, State.call_of_program _ (ctl ▸ outside), pcu, next]
  · rw [if_pos taken, State.call_of_vector _ (ctl ▸ within), pcu] at run
    refine ⟨_, _, run, rfl, fun k hk h8 h9 => entrySr_bit _ _ hk h8 h9, ?_⟩
    exact (congrArg BitVec.toNat (entrySr_mask _ _)).trans (toNat_raisedMask _ _)

end

section
/-!
The system stack with and without its extension (10_state R60 to R64), and what data memory makes of a store when SR and OMR
differ in bits that the memory map does not use.
-/
namespace Sys2Proof.Machine

variable (s : State)

/-! ## States with one memory map -/

/-- Two states in which the same memory and devices answer at every data address. -/
structure SameBus (s t : State) : Prop where
  sc : t.sc = s.sc
  ebd : t.ebd = s.ebd
  switch : t.memSwitch = s.memSwitch

variable {s} in
theorem SameBus.trans {t u : State} (h : SameBus s t) (k : SameBus t u) : SameBus s u :=
  ⟨k.sc.trans h.sc, k.ebd.trans h.ebd, k.switch.trans h.switch⟩

variable {s} in
theorem SameBus.of_pcu {t : State} (sr : t.pcu.sr = s.pcu.sr) (omr : t.pcu.omr = s.pcu.omr) : SameBus s t := by
  constructor <;> simp [State.sc, State.srBit, State.ebd, State.memSwitch, State.omrBit, sr, omr]

variable {s} in
/-- OMR's stack extension bits (19 to 16) are none of the memory map's. -/
theorem SameBus.withOmr_or {m : Word} (h : m &&& 0x600090#24 = 0) : SameBus s (s.withOmr (s.pcu.omr ||| m)) := by
  have bit (k : Nat) (hk : (0x600090#24).getLsbD k = true) : m.getLsbD k = false := by
    have := congrArg (·.getLsbD k) h
    simpa [hk] using this
  have keep (k : Nat) (hk : (0x600090#24).getLsbD k = true) :
      (s.withOmr (s.pcu.omr ||| m)).omrBit k = s.omrBit k := by
    rw [State.omrBit, State.withOmr_omr, BitVec.getLsbD_or, bit k hk, Bool.or_false, State.omrBit]
  have field : (s.pcu.omr ||| m).extractLsb' 21 2 = s.pcu.omr.extractLsb' 21 2 := by
    refine BitVec.eq_of_getLsbD_eq fun k hk => ?_
    have : m.getLsbD (21 + k) = false := by interval_cases k <;> exact bit _ (by decide)
    rw [BitVec.getLsbD_extractLsb', BitVec.getLsbD_extractLsb', BitVec.getLsbD_or, this, Bool.or_false]
  refine ⟨rfl, keep 4 (by decide), ?_⟩
  rw [State.memSwitch, keep 7 (by decide), State.withOmr_omr, field, State.memSwitch]

section SameBus
variable {s} {t : State} (h : SameBus s t) (sp : Space) (a : Word)
include h

theorem SameBus.inRam : t.inRam sp a = s.inRam sp a := by
  cases sp <;> simp [State.inRam, State.mapAddr, h.sc, h.switch]

theorem SameBus.inModules : t.inModules a = s.inModules a := by simp [State.inModules, h.sc]

theorem SameBus.internalIo : t.internalIo sp a = s.internalIo sp a := by
  cases sp <;> simp [State.internalIo, State.inIo, State.inTop, State.topOf, State.mapAddr, h.sc]

theorem SameBus.dataExternal : t.dataExternal sp a = s.dataExternal sp a := by
  simp [State.dataExternal, h.internalIo, h.inModules, h.inRam, State.inIo, State.inTop, State.topOf, State.mapAddr, h.sc]

theorem SameBus.dataKey : t.dataKey sp a = s.dataKey sp a := by
  simp [State.dataKey, h.dataExternal, h.inRam, State.mapAddr, h.sc]

theorem SameBus.writeData_mem (mem : t.mem = s.mem) (w : Word) : (t.writeData sp a w).mem = (s.writeData sp a w).mem := by
  have data : t.dataMem sp = s.dataMem sp := by cases sp <;> simp [State.dataMem, mem]
  have rom : t.inRom sp a = s.inRom sp a := by simp only [State.inRom, h.inModules]
  have void : t.inVoid sp a = s.inVoid sp a := by simp only [State.inVoid, h.inModules]
  simp only [State.writeData, rom, void, h.internalIo, h.dataExternal, h.dataKey, h.ebd, data]
  split
  · split <;> split <;> simp [mem]
  · split
    · exact mem
    · cases sp <;> simp [State.withDataMem, mem]

theorem SameBus.readData (mem : t.mem = s.mem) (core : ∀ k, t.readCoreReg k = s.readCoreReg k)
    (free : t.ctl.freeCtr = s.ctl.freeCtr) : t.readData sp a = s.readData sp a := by
  have rom : t.inRom sp a = s.inRom sp a := by simp only [State.inRom, h.inModules]
  have void : t.inVoid sp a = s.inVoid sp a := by simp only [State.inVoid, h.inModules]
  have data : t.dataMem sp = s.dataMem sp := by cases sp <;> simp [State.dataMem, mem]
  have absent : t.absent sp a = s.absent sp a := by cases sp <;> simp only [State.absent, State.absentAt, free]
  have window : t.inIo a = s.inIo a := by simp [State.inIo, State.topOf, State.mapAddr, h.sc]
  simp only [State.readData, rom, void, h.internalIo, h.dataExternal, h.dataKey, h.ebd, data, absent, window, core]

end SameBus

theorem SameBus.writeData (sp : Space) (a w : Word) : SameBus s (s.writeData sp a w) := .of_pcu (by simp) (by simp)

variable {s} in
theorem SameBus.applyMems_mem {t : State} (h : SameBus s t) (mem : t.mem = s.mem) (u : List (Space × Word × Word)) :
    (t.applyMems u).mem = (s.applyMems u).mem := by
  unfold State.applyMems
  induction u generalizing s t with
  | nil => exact mem
  | cons p u ih =>
    rw [List.foldl_cons, List.foldl_cons]
    refine ih ⟨?_, ?_, ?_⟩ (h.writeData_mem p.1 p.2.1 mem p.2.2)
    · exact ((SameBus.writeData t _ _ _).sc.trans h.sc).trans (SameBus.writeData s _ _ _).sc.symm
    · exact ((SameBus.writeData t _ _ _).ebd.trans h.ebd).trans (SameBus.writeData s _ _ _).ebd.symm
    · exact ((SameBus.writeData t _ _ _).switch.trans h.switch).trans (SameBus.writeData s _ _ _).switch.symm

/-! ## The requests that a data write may clear or make -/

/-- A write of a memory-mapped register makes and drops requests of pins and of the DMA alone (60_exceptions R563; 62_devices
R708). -/
theorem State.writeCoreReg_pend (k : Nat) (v : Word) {j : Nat} (h : j < 8) :
    (s.writeCoreReg k v).irq.pend.getLsbD j = s.irq.pend.getLsbD j := by
  have keep : (irqKeep v).getLsbD j = true := by
    simp only [irqKeep, bitAt]
    interval_cases j <;> (repeat' split) <;> decide
  have dma (n : Fin 6) (dcr : Word) (t : State) : (t.dmaInterrupt n dcr).irq.pend.getLsbD j = t.irq.pend.getLsbD j := by
    have other : ¬ (j = 12 + n.val ∧ 12 + n.val < 128) := by omega
    unfold State.dmaInterrupt
    split
    · simp only [State.setPend_pend, getLsbD_setBit, if_neg other]
    · rfl
  have dcr (n : Fin 6) : (s.writeDcr n v).irq.pend.getLsbD j = s.irq.pend.getLsbD j := by
    unfold State.writeDcr
    dsimp only
    split
    · simp
    · split
      · simp
      · split
        · split
          · simp
          · rw [dma]; simp
        · simp
  have reg (n : Fin 6) (f : Nat) : (s.writeDmaReg n f v).irq.pend.getLsbD j = s.irq.pend.getLsbD j := by
    unfold State.writeDmaReg
    split
    · simp [dcr]
    · unfold State.writeDmaAddr
      dsimp only
      split <;> simp
  generalize ht : s.writeCoreReg k v = t
  simp only [State.writeCoreReg] at ht
  (repeat' split at ht) <;> subst ht <;> simp [reg, keep]

theorem State.writeData_pend (sp : Space) (a w : Word) {j : Nat} (h : j < 8) :
    (s.writeData sp a w).irq.pend.getLsbD j = s.irq.pend.getLsbD j := by
  unfold State.writeData
  (repeat' split) <;> simp [s.writeCoreReg_pend _ _ h]

/-! ## SP as a counter -/

theorem toNat_append_six (h : BitVec 18) (l : BitVec 6) : (h ++ l).toNat = h.toNat * 64 + l.toNat := by
  rw [BitVec.toNat_append, ← Nat.shiftLeft_add_eq_or_of_lt l.isLt, Nat.shiftLeft_eq]

/-- The number that the six counting bits of SP hold after a step by `d`: with SE set the low four alone count. -/
def spNext (sp : Word) (d : Nat) : Nat :=
  if sp.getLsbD 4 then sp.toNat % 64 / 16 * 16 + (sp.toNat % 64 + d) % 16 else (sp.toNat % 64 + d) % 64

theorem spCount_toNat (sp : Word) (d : BitVec 6) : (spCount sp d).toNat = sp.toNat - sp.toNat % 64 + spNext sp d.toNat := by
  have high : (sp.extractLsb' 6 18).toNat = sp.toNat / 64 := by
    rw [BitVec.extractLsb'_toNat, Nat.shiftRight_eq_div_pow]; omega
  have low : (sp.extractLsb' 0 6).toNat = sp.toNat % 64 := by simp
  simp only [spCount, spNext]
  rw [toNat_append_six, high]
  split
  · rw [BitVec.toNat_append, ← Nat.shiftLeft_add_eq_or_of_lt (BitVec.isLt _), Nat.shiftLeft_eq, BitVec.extractLsb'_toNat,
      BitVec.extractLsb'_toNat (n := 6), BitVec.toNat_add, low, Nat.shiftRight_eq_div_pow, Nat.shiftRight_eq_div_pow]
    omega
  · rw [BitVec.toNat_add, low]
    omega

theorem spNext_lt (sp : Word) (d : Nat) : spNext sp d < 64 := by unfold spNext; split <;> omega

/-- SE becomes set where the low four bits of SP step over their end. -/
theorem spCount_error {sp : Word} (clear : sp.getLsbD 4 = false) (d : BitVec 6) :
    (spCount sp d).getLsbD 4 = decide ((sp.toNat % 64 + d.toNat) % 64 / 16 % 2 = 1) := by
  have next := spCount_toNat sp d
  simp only [spNext, clear, Bool.false_eq_true, if_false] at next
  rw [BitVec.getLsbD, next, Nat.testBit_eq_decide_div_mod_eq]
  congr 1
  simp only [eq_iff_iff]
  omega

/-- SP stepped by `d` without the stack extension: a Stack Error is requested when SE becomes set (10_state R60, R61). -/
def State.spStep (s : State) (d : BitVec 6) : State :=
  (if !s.pcu.sp.getLsbD 4 && (spCount s.pcu.sp d).getLsbD 4 then s.stackError else s).withSp (spCount s.pcu.sp d)

theorem State.spUp_of_plain (plain : s.sen = false) : s.spUp = s.spStep 1 := by simp only [State.spUp, plain]; rfl

theorem State.spDown_of_plain (plain : s.sen = false) : s.spDown = s.spStep 0x3F#6 := by simp only [State.spDown, plain]; rfl

@[simp] theorem State.spStep_pcu (d : BitVec 6) : (s.spStep d).pcu = { s.pcu with sp := spCount s.pcu.sp d } := by
  unfold State.spStep; split <;> rfl

@[simp] theorem State.spStep_keeps (d : BitVec 6) : (s.spStep d).mem = s.mem ∧ (s.spStep d).agu = s.agu := by
  unfold State.spStep; split <;> exact ⟨rfl, rfl⟩

/-- The request of the Stack Error (60_exceptions R568). -/
theorem State.stackError_pend {k : Nat} : s.stackError.irq.pend.getLsbD k = (s.irq.pend.getLsbD k || k == 1) := by
  rw [State.stackError, State.setPend_pend, getLsbD_setBit]
  split
  · next h => simp [h.1]
  · next h => simp [show ¬ k = 1 by simpa using h]

theorem State.spStep_pend (d : BitVec 6) (k : Nat) : (s.spStep d).irq.pend.getLsbD k =
    (s.irq.pend.getLsbD k || (k == 1 && (!s.pcu.sp.getLsbD 4 && (spCount s.pcu.sp d).getLsbD 4))) := by
  unfold State.spStep
  split
  · next h => rw [h, Bool.and_true, ← s.stackError_pend]; rfl
  · next h => rw [Bool.not_eq_true] at h; rw [h, Bool.and_false, Bool.or_false]; rfl

/-! ## A push and a pull -/

/-- What a push leaves before the stack extension acts. -/
def State.pushed (s : State) (h l : Word) : State :=
  ((s.spUp.setSsh s.spUp.slot h).setSsl s.spUp.slot l).withSc (s.pcu.sc + 1)

theorem State.push_eq (h l : Word) : s.push h l = (s.pushed h l).afterPush := rfl

theorem State.push_of_plain (plain : s.sen = false) (h l : Word) : s.push h l =
    (((s.spStep 1).setSsh (s.spStep 1).slot h).setSsl (s.spStep 1).slot l).withSc (s.pcu.sc + 1) := by
  have omr : (s.pushed h l).pcu.omr = s.pcu.omr := by rw [State.pushed, s.spUp_of_plain plain]; simp
  have still : (s.pushed h l).sen = false := by rw [State.sen, State.omrBit, omr]; exact plain
  rw [State.push_eq, State.afterPush_of_plain _ still, State.pushed, s.spUp_of_plain plain]

theorem State.pop_of_plain (plain : s.sen = false) : s.pop = (s.spStep 0x3F#6).withSc (s.pcu.sc - 1) := by
  have still : ((s.spStep 0x3F#6).withSc (s.pcu.sc - 1)).sen = false := by
    rw [State.sen, State.omrBit, State.withSc_omr, State.spStep_pcu]; exact plain
  rw [State.pop, s.spDown_of_plain plain, State.afterPull_of_plain _ still]

/-- A stack location read after a write. -/
theorem getElem_set_slot (v : Vector Word 16) (i j : Fin 16) (x : Word) : (v.set i x)[j] = if j = i then x else v[j] := by
  simp only [Fin.getElem_fin, Vector.getElem_set, Fin.ext_iff, eq_comm]

theorem getElem_set_same (v : Vector Word 16) (i : Fin 16) (x : Word) : (v.set i x)[i] = x := by simp

theorem toNat_slot : s.slot.val = s.pcu.sp.toNat % 16 := by simp [State.slot]

/-- The two halves of a stack location, written above each other. -/
theorem State.setHalves_get (i j : Fin 16) (h l : Word) :
    ((s.setSsh i h).setSsl i l).pcu.ssh[j] = (if j = i then h else s.pcu.ssh[j]) ∧
    ((s.setSsh i h).setSsl i l).pcu.ssl[j] = (if j = i then l else s.pcu.ssl[j]) :=
  ⟨getElem_set_slot s.pcu.ssh i j h, getElem_set_slot s.pcu.ssl i j l⟩

/-! ## The stack extension -/

/-- The entry that a full stack moves to memory: its place in the stack. -/
def State.oldest (s : State) : Fin 16 := Fin.ofNat 16 (s.pcu.sp.toNat + 33 - s.pcu.sc.toNat)

theorem State.spill_pcu : s.spill.pcu =
    { s.pcu with omr := s.pcu.omr ||| 0x080000#24, sc := s.pcu.sc - 1 } := by
  simp [State.spill]

theorem State.spill_agu : s.spill.agu = { s.agu with ep := s.agu.ep + 2 } := by simp [State.spill]

theorem State.spill_mem {j : Fin 16} (h : s.oldest = j) : s.spill.mem =
    (s.applyMems [(s.xys, s.agu.ep, s.pcu.ssh[j]), (s.xys, s.agu.ep + 1, s.pcu.ssl[j])]).mem := by
  subst h
  exact (SameBus.withOmr_or (s := s) (m := 0x080000#24) (by decide)).applyMems_mem rfl
    [(s.xys, s.agu.ep, s.pcu.ssh[s.oldest]), (s.xys, s.agu.ep + 1, s.pcu.ssl[s.oldest])]

theorem State.spill_pend {j : Nat} (h : j < 8) : s.spill.irq.pend.getLsbD j = s.irq.pend.getLsbD j := by
  simp only [State.spill]
  rw [State.writeData_pend _ _ _ _ h, State.writeData_pend _ _ _ _ h]
  rfl

/-- SP stepped up with the stack extension: at the limit SZ the overflow bit is set, and a Stack Error requested if it was
clear (10_state R64). -/
theorem State.spUp_of_extended (extended : s.sen = true) :
    s.spUp.pcu = { s.pcu with
      sp := s.pcu.sp + 1, omr := if s.pcu.sp = s.pcu.sz then s.pcu.omr ||| 0x040000#24 else s.pcu.omr } ∧
    s.spUp.irq.pend = (if s.pcu.sp = s.pcu.sz ∧ s.omrBit 18 = false then s.stackError.irq.pend else s.irq.pend) ∧
    s.spUp.mem = s.mem ∧ s.spUp.agu = s.agu := by
  simp only [State.spUp, extended, if_true]
  by_cases limit : s.pcu.sp = s.pcu.sz
  · cases flag : s.omrBit 18 <;> simp [limit] <;> rfl
  · simp only [limit, false_and, if_false]; exact ⟨rfl, rfl, rfl, rfl⟩

theorem State.spDown_of_extended (extended : s.sen = true) :
    s.spDown.pcu = { s.pcu with
      sp := s.pcu.sp - 1, omr := if s.pcu.sp = 0 then s.pcu.omr ||| 0x020000#24 else s.pcu.omr } ∧
    s.spDown.irq.pend = (if s.pcu.sp = 0 ∧ s.omrBit 17 = false then s.stackError.irq.pend else s.irq.pend) ∧
    s.spDown.mem = s.mem ∧ s.spDown.agu = s.agu := by
  simp only [State.spDown, extended, if_true]
  by_cases limit : s.pcu.sp = 0
  · cases flag : s.omrBit 17 <;> simp [limit] <;> rfl
  · simp only [limit, false_and, if_false]; exact ⟨rfl, rfl, rfl, rfl⟩

/-! ## Without the extension: the program control unit after a push and after a pull -/

/-- The location that a push writes. -/
def nextSlot (sp : Word) : Fin 16 := Fin.ofNat 16 (spNext sp 1)

theorem State.slot_spStep : (s.spStep 1).slot = nextSlot s.pcu.sp := by
  have up := spCount_toNat s.pcu.sp 1
  rw [show (1 : BitVec 6).toNat = 1 from rfl] at up
  rw [Fin.ext_iff, toNat_slot, State.spStep_pcu]
  simp only [nextSlot, Fin.val_ofNat, up]
  omega

theorem State.push_pcu_of_plain (plain : s.sen = false) (h l : Word) : (s.push h l).pcu = { s.pcu with
    sp := spCount s.pcu.sp 1, sc := s.pcu.sc + 1
    ssh := s.pcu.ssh.set (nextSlot s.pcu.sp) h, ssl := s.pcu.ssl.set (nextSlot s.pcu.sp) l } := by
  rw [s.push_of_plain plain, s.slot_spStep]
  show ({ (s.spStep 1).pcu with sc := _, ssh := (s.spStep 1).pcu.ssh.set _ h, ssl := (s.spStep 1).pcu.ssl.set _ l } : PcuRegs) = _
  rw [s.spStep_pcu]

theorem State.pop_pcu_of_plain (plain : s.sen = false) :
    s.pop.pcu = { s.pcu with sp := spCount s.pcu.sp 0x3F#6, sc := s.pcu.sc - 1 } := by
  rw [s.pop_of_plain plain]
  show ({ (s.spStep 0x3F#6).pcu with sc := _ } : PcuRegs) = _
  rw [s.spStep_pcu]

/-- The Stack Error is requested where the low four bits of SP step over their end. -/
theorem spStep_error (sp : Word) (d : BitVec 6) {e : Nat}
    (he : ∀ n < 64, n / 16 % 2 = 0 → ((n + d.toNat) % 64 / 16 % 2 = 1 ↔ n % 16 = e)) :
    (!sp.getLsbD 4 && (spCount sp d).getLsbD 4) = (!sp.getLsbD 4 && sp.toNat % 64 % 16 == e) := by
  cases clear : sp.getLsbD 4 with
  | true => rfl
  | false =>
    have even : sp.toNat % 64 / 16 % 2 = 0 := by
      rw [BitVec.getLsbD, Nat.testBit_eq_decide_div_mod_eq] at clear
      simp only [decide_eq_false_iff_not] at clear
      omega
    rw [spCount_error clear, Bool.eq_iff_iff]
    simpa using he _ (Nat.mod_lt _ (by decide)) even

/-- What a pull leaves before the stack extension acts. -/
def State.pulled (s : State) : State := s.spDown.withSc (s.pcu.sc - 1)

theorem State.pop_eq : s.pop = s.pulled.afterPull := rfl

section Extended
variable (extended : s.sen = true) (h l : Word)
include extended

theorem State.pushed_pcu : (s.pushed h l).pcu = { s.pcu with
    sp := s.pcu.sp + 1, sc := s.pcu.sc + 1
    omr := if s.pcu.sp = s.pcu.sz then s.pcu.omr ||| 0x040000#24 else s.pcu.omr
    ssh := s.pcu.ssh.set (slotAt s 1) h, ssl := s.pcu.ssl.set (slotAt s 1) l } := by
  obtain ⟨pcu, -⟩ := s.spUp_of_extended extended
  have top : s.spUp.slot = slotAt s 1 := by
    rw [Fin.ext_iff, toNat_slot, pcu]
    simp only [slotAt, Fin.val_ofNat]
    bv_omega
  rw [State.pushed, top]
  show ({ s.spUp.pcu with sc := _, ssh := s.spUp.pcu.ssh.set _ h, ssl := s.spUp.pcu.ssl.set _ l } : PcuRegs) = _
  rw [pcu]

theorem State.pushed_sen : (s.pushed h l).sen = true := by
  rw [State.sen, State.omrBit, s.pushed_pcu extended]
  dsimp only
  split
  · rw [BitVec.getLsbD_or, show s.pcu.omr.getLsbD 20 = true from extended, Bool.true_or]
  · exact extended

theorem State.pushed_rest : (s.pushed h l).mem = s.mem ∧ (s.pushed h l).agu = s.agu ∧
    (s.pushed h l).irq.pend = s.spUp.irq.pend ∧ SameBus s (s.pushed h l) ∧ (s.pushed h l).xys = s.xys := by
  obtain ⟨-, -, mem, agu⟩ := s.spUp_of_extended extended
  have omr : (s.pushed h l).pcu.omr = if s.pcu.sp = s.pcu.sz then s.pcu.omr ||| 0x040000#24 else s.pcu.omr := by
    rw [s.pushed_pcu extended]
  have sr : (s.pushed h l).pcu.sr = s.pcu.sr := by rw [s.pushed_pcu extended]
  have bus : SameBus s (s.pushed h l) := by
    split at omr
    · exact (SameBus.withOmr_or (m := 0x040000#24) (by decide)).trans (.of_pcu sr omr)
    · exact .of_pcu sr omr
  have xys : (s.pushed h l).omrBit 16 = s.omrBit 16 := by
    rw [State.omrBit, omr]
    split
    · rw [BitVec.getLsbD_or, show (0x040000#24).getLsbD 16 = false from rfl, Bool.or_false, State.omrBit]
    · rfl
  exact ⟨mem, agu, rfl, bus, by rw [State.xys, xys, State.xys]⟩

theorem State.pulled_pcu : s.pulled.pcu = { s.pcu with
    sp := s.pcu.sp - 1, sc := s.pcu.sc - 1
    omr := if s.pcu.sp = 0 then s.pcu.omr ||| 0x020000#24 else s.pcu.omr } := by
  obtain ⟨pcu, -⟩ := s.spDown_of_extended extended
  show ({ s.spDown.pcu with sc := _ } : PcuRegs) = _
  rw [pcu]

theorem State.pulled_sen : s.pulled.sen = true := by
  rw [State.sen, State.omrBit, s.pulled_pcu extended]
  dsimp only
  split
  · rw [BitVec.getLsbD_or, show s.pcu.omr.getLsbD 20 = true from extended, Bool.true_or]
  · exact extended

end Extended

theorem State.spill_ssh : s.spill.pcu.ssh = s.pcu.ssh ∧ s.spill.pcu.ssl = s.pcu.ssl ∧ s.spill.pcu.sp = s.pcu.sp := by
  rw [s.spill_pcu]; exact ⟨rfl, rfl, rfl⟩

/-- The word that a stack location takes back from memory: nothing but the stack changes between a pull and a refill. -/
theorem State.refill_pcu {j : Fin 16} (h : Fin.ofNat 16 (s.pcu.sp.toNat + 32 - s.pcu.sc.toNat) = j) :
    s.refill.pcu = { s.pcu with
      sc := s.pcu.sc + 1
      ssh := s.pcu.ssh.set j (s.readData s.xys (s.agu.ep - 2))
      ssl := s.pcu.ssl.set j (s.readData s.xys (s.agu.ep - 1)) } := by
  subst h; rfl

/-- A flag that becomes set in OMR. -/
theorem getLsbD_or_if {c : Prop} [Decidable c] (v m : Word) (k : Nat) :
    (if c then v ||| m else v).getLsbD k = (v.getLsbD k || (decide c && m.getLsbD k)) := by
  split
  · next h => rw [BitVec.getLsbD_or, decide_eq_true h, Bool.true_and]
  · next h => rw [decide_eq_false h, Bool.false_and, Bool.or_false]

/-- The Stack Error of a flag that was clear. -/
theorem State.errorIf_pend {c : Prop} [Decidable c] (flag : Bool) :
    (if c ∧ flag = false then s.stackError.irq.pend else s.irq.pend).getLsbD 1 =
      (s.irq.pend.getLsbD 1 || (decide c && !flag)) := by
  split
  · next h => rw [s.stackError_pend, decide_eq_true h.1, h.2]; rfl
  · next h => cases flag <;> simp_all

section Extended
variable (extended : s.sen = true) (low : s.pcu.sc.toNat ≤ 14) (h l : Word)
include extended

/-- A pull with the extension: a refill where one entry or none is left of those that memory holds too. -/
theorem State.pop_cases : s.pop =
    if s.pulled.pcu.sc.toNat < 2 ∧ s.pulled.pcu.sc.toNat < s.pulled.pcu.sp.toNat then s.pulled.refill else s.pulled := by
  rw [State.pop_eq, State.afterPull, s.pulled_sen extended]
  simp only [Bool.true_and, Bool.and_eq_true, decide_eq_true_eq]

include low

theorem State.pushed_sc : (s.pushed h l).pcu.sc.toNat = s.pcu.sc.toNat + 1 := by
  rw [s.pushed_pcu extended]
  dsimp only
  bv_omega

/-- A push with the extension: the state before the spill, spilled if the stack was full. -/
theorem State.push_cases : s.push h l = if s.pcu.sc.toNat = 14 then (s.pushed h l).spill else s.pushed h l := by
  rw [State.push_eq, State.afterPush, s.pushed_sen extended, s.pushed_sc extended low]
  simp only [Bool.true_and, decide_eq_true_eq]
  congr 1
  simp only [eq_iff_iff]
  omega

theorem State.oldest_pushed (full : s.pcu.sc.toNat = 14) : (s.pushed h l).oldest = slotAt s (-13) := by
  rw [Fin.ext_iff, State.oldest, s.pushed_sc extended low, s.pushed_pcu extended]
  simp only [slotAt, Fin.val_ofNat]
  bv_omega

theorem State.push_extended :
    (s.push h l).ssh = h ∧ (s.push h l).ssl = l ∧ (s.push h l).pcu.sp = s.pcu.sp + 1 ∧
    (s.push h l).omrBit 18 = (s.omrBit 18 || s.pcu.sp == s.pcu.sz) ∧
    (s.push h l).irq.pend.getLsbD 1 = (s.irq.pend.getLsbD 1 || (s.pcu.sp == s.pcu.sz && !s.omrBit 18)) ∧
    (s.pcu.sc.toNat < 14 → (s.push h l).agu = s.agu ∧ (s.push h l).mem = s.mem ∧ (s.push h l).pcu.sc = s.pcu.sc + 1 ∧
      (s.push h l).omrBit 19 = s.omrBit 19) ∧
    (s.pcu.sc.toNat = 14 → (s.push h l).agu.ep = s.agu.ep + 2 ∧ (s.push h l).pcu.sc = s.pcu.sc ∧
      (s.push h l).omrBit 19 = true ∧ (s.push h l).mem = (s.applyMems [(s.xys, s.agu.ep, s.pcu.ssh[slotAt s (-13)]),
        (s.xys, s.agu.ep + 1, s.pcu.ssl[slotAt s (-13)])]).mem) := by
  have pcu := s.pushed_pcu extended h l
  obtain ⟨mem, agu, pend, bus, xys⟩ := s.pushed_rest extended h l
  have before : (s.pushed h l).irq.pend.getLsbD 1 = (s.irq.pend.getLsbD 1 || (s.pcu.sp == s.pcu.sz && !s.omrBit 18)) := by
    obtain ⟨-, requests, -⟩ := s.spUp_of_extended extended
    rw [pend, requests, s.errorIf_pend]
    rfl
  have omr18 : (s.pushed h l).omrBit 18 = (s.omrBit 18 || s.pcu.sp == s.pcu.sz) := by
    rw [State.omrBit, pcu, getLsbD_or_if, show (0x040000#24).getLsbD 18 = true from rfl, Bool.and_true]
    rfl
  have omr19 : (s.pushed h l).omrBit 19 = s.omrBit 19 := by
    rw [State.omrBit, pcu, getLsbD_or_if, show (0x040000#24).getLsbD 19 = false from rfl, Bool.and_false, Bool.or_false,
      State.omrBit]
  have sp : (s.pushed h l).pcu.sp = s.pcu.sp + 1 := by rw [pcu]
  have high : (s.pushed h l).pcu.ssh = s.pcu.ssh.set (slotAt s 1) h := by rw [pcu]
  have deep : (s.pushed h l).pcu.ssl = s.pcu.ssl.set (slotAt s 1) l := by rw [pcu]
  have top {t : State} (e : t.pcu.sp = s.pcu.sp + 1) : t.slot = slotAt s 1 := by
    rw [Fin.ext_iff, toNat_slot, e]
    simp only [slotAt, Fin.val_ofNat]
    bv_omega
  have read {t : State} (e : t.pcu.sp = s.pcu.sp + 1) (hh : t.pcu.ssh = (s.pushed h l).pcu.ssh)
      (hl : t.pcu.ssl = (s.pushed h l).pcu.ssl) : t.ssh = h ∧ t.ssl = l := by
    refine ⟨(congrArg (fun j : Fin 16 => t.pcu.ssh[j]) (top e)).trans ?_, (congrArg (fun j : Fin 16 => t.pcu.ssl[j]) (top e)).trans ?_⟩
    · rw [hh, high]; exact (getElem_set_slot ..).trans (if_pos rfl)
    · rw [hl, deep]; exact (getElem_set_slot ..).trans (if_pos rfl)
  rw [s.push_cases extended low]
  split
  · next full =>
    obtain ⟨sameHigh, sameLow, sameSp⟩ := (s.pushed h l).spill_ssh
    obtain ⟨ssh, ssl⟩ := read (sameSp.trans sp) sameHigh sameLow
    have spilled := (s.pushed h l).spill_pcu
    have oldest := s.oldest_pushed extended low h l full
    have apart : slotAt s (-13) ≠ slotAt s 1 := by
      intro e
      rw [Fin.ext_iff] at e
      simp only [slotAt, Fin.val_ofNat] at e
      omega
    have moved (x : Vector Word 16) (y : Word) : (x.set (slotAt s 1) y)[slotAt s (-13)] = x[slotAt s (-13)] :=
      (getElem_set_slot ..).trans (if_neg apart)
    refine ⟨ssh, ssl, sameSp.trans sp, ?_, ((s.pushed h l).spill_pend (by decide)).trans before, fun few => by omega,
      fun _ => ⟨?_, ?_, ?_, ?_⟩⟩
    · rw [State.omrBit, spilled, BitVec.getLsbD_or, show (0x080000#24).getLsbD 18 = false from rfl, Bool.or_false]
      exact omr18
    · rw [State.spill_agu, agu]
    · rw [spilled, pcu]; exact add_sub_cancel_right _ _
    · rw [State.omrBit, spilled, BitVec.getLsbD_or, show (0x080000#24).getLsbD 19 = true from rfl, Bool.or_true]
    · rw [(s.pushed h l).spill_mem oldest, xys, agu, high, deep, moved, moved]
      exact bus.applyMems_mem mem _
  · next few =>
    obtain ⟨ssh, ssl⟩ := read sp rfl rfl
    exact ⟨ssh, ssl, sp, omr18, before, fun _ => ⟨agu, mem, by rw [pcu], omr19⟩, fun full => absurd full few⟩

theorem State.pop_extended :
    s.pop.pcu.sp = s.pcu.sp - 1 ∧ s.pop.omrBit 17 = (s.omrBit 17 || s.pcu.sp == 0) ∧ s.pop.mem = s.mem ∧
    s.pop.irq.pend.getLsbD 1 = (s.irq.pend.getLsbD 1 || (s.pcu.sp == 0 && !s.omrBit 17)) ∧
    (3 ≤ s.pcu.sc.toNat → s.pop.agu = s.agu ∧ s.pop.pcu.sc = s.pcu.sc - 1 ∧ s.pop.pcu.ssh = s.pcu.ssh ∧
      s.pop.pcu.ssl = s.pcu.ssl) ∧
    (1 ≤ s.pcu.sc.toNat → s.pcu.sc.toNat ≤ 2 → s.pcu.sc.toNat < s.pcu.sp.toNat →
      s.pop.agu.ep = s.agu.ep - 2 ∧ s.pop.pcu.sc = s.pcu.sc ∧
      s.pop.pcu.ssh[slotAt s (-s.pcu.sc.toNat)] = s.readData s.xys (s.agu.ep - 2) ∧
      s.pop.pcu.ssl[slotAt s (-s.pcu.sc.toNat)] = s.readData s.xys (s.agu.ep - 1)) := by
  obtain ⟨-, requests, mem, agu⟩ := s.spDown_of_extended extended
  have pcu := s.pulled_pcu extended
  have pend : s.pulled.irq.pend.getLsbD 1 = (s.irq.pend.getLsbD 1 || (s.pcu.sp == 0 && !s.omrBit 17)) := by
    rw [show s.pulled.irq.pend = s.spDown.irq.pend from rfl, requests, s.errorIf_pend]
    rfl
  have omr17 : s.pulled.omrBit 17 = (s.omrBit 17 || s.pcu.sp == 0) := by
    rw [State.omrBit, pcu, getLsbD_or_if, show (0x020000#24).getLsbD 17 = true from rfl, Bool.and_true]
    rfl
  have sp : s.pulled.pcu.sp = s.pcu.sp - 1 := by rw [pcu]
  have sc : s.pulled.pcu.sc = s.pcu.sc - 1 := by rw [pcu]
  have ssh : s.pulled.pcu.ssh = s.pcu.ssh := by rw [pcu]
  have ssl : s.pulled.pcu.ssl = s.pcu.ssl := by rw [pcu]
  rw [s.pop_cases extended]
  split
  · next empty =>
    refine ⟨sp, omr17, mem, pend, fun many => ?_, fun one two more => ?_⟩
    · rw [sc] at empty
      bv_omega
    · have plain : s.pulled = { s with pcu := { s.pcu with sp := s.pcu.sp - 1, sc := s.pcu.sc - 1 } } := by
        have entries : ¬ s.pcu.sp = 0 := by rintro e; rw [e] at more; simp at more
        simp only [State.pulled, State.spDown, extended, if_true, if_neg entries]
        rfl
      have slot : Fin.ofNat 16 (s.pulled.pcu.sp.toNat + 32 - s.pulled.pcu.sc.toNat) = slotAt s (-s.pcu.sc.toNat) := by
        rw [Fin.ext_iff, sp, sc]
        simp only [slotAt, Fin.val_ofNat]
        bv_omega
      have refilled := s.pulled.refill_pcu slot
      have bus : SameBus s s.pulled := plain ▸ ⟨rfl, rfl, rfl⟩
      have read (a : Word) : s.pulled.readData s.pulled.xys a = s.readData s.xys a := by
        rw [show s.pulled.xys = s.xys by rw [plain]; rfl]
        exact bus.readData _ _ mem (fun k => by rw [plain]; rfl) (by rw [plain])
      have ep : s.pulled.agu.ep = s.agu.ep := congrArg AguRegs.ep agu
      rw [read, read, ep] at refilled
      have high : s.pulled.refill.pcu.ssh =
          s.pulled.pcu.ssh.set (slotAt s (-s.pcu.sc.toNat)) (s.readData s.xys (s.agu.ep - 2)) := by rw [refilled]
      have deep : s.pulled.refill.pcu.ssl =
          s.pulled.pcu.ssl.set (slotAt s (-s.pcu.sc.toNat)) (s.readData s.xys (s.agu.ep - 1)) := by rw [refilled]
      refine ⟨congrArg (· - 2) ep, ?_, ?_, ?_⟩
      · rw [refilled]
        dsimp only
        rw [sc, BitVec.sub_add_cancel]
      · exact (congrArg (fun v : Vector Word 16 => v[slotAt s (-s.pcu.sc.toNat)]) high).trans (getElem_set_same ..)
      · exact (congrArg (fun v : Vector Word 16 => v[slotAt s (-s.pcu.sc.toNat)]) deep).trans (getElem_set_same ..)
  · next still =>
    refine ⟨sp, omr17, mem, pend, fun many => ⟨agu, sc, ssh, ssl⟩, fun one two more => absurd ?_ still⟩
    rw [sc, sp]
    constructor <;> bv_omega

end Extended

end Sys2Proof.Machine

open Sys2Proof Sys2Proof.Machine

/-- Settles O43: without the extension a push and a pull are one step of SP as a counter. -/
theorem push_and_pull : Obligations.Push_and_pull := by
  intro s h l plain
  have push := s.push_pcu_of_plain plain h l
  have pop := s.pop_pcu_of_plain plain
  have top : (s.push h l).slot = nextSlot s.pcu.sp := by
    rw [← s.slot_spStep, Fin.ext_iff, toNat_slot, toNat_slot, push, s.spStep_pcu]
  have high : (s.push h l).pcu.ssh = s.pcu.ssh.set (nextSlot s.pcu.sp) h := by rw [push]
  have low : (s.push h l).pcu.ssl = s.pcu.ssl.set (nextSlot s.pcu.sp) l := by rw [push]
  have same (x : Vector Word 16) (y : Word) : (x.set (nextSlot s.pcu.sp) y)[nextSlot s.pcu.sp] = y := by
    rw [getElem_set_slot, if_pos rfl]
  have other {j : Fin 16} (hj : j.val ≠ spNext s.pcu.sp 1 % 16) (x : Vector Word 16) (y : Word) :
      (x.set (nextSlot s.pcu.sp) y)[j] = x[j] := by
    rw [getElem_set_slot, if_neg fun e => hj (congrArg Fin.val e)]
  obtain ⟨upMem, upAgu⟩ := s.spStep_keeps 1
  obtain ⟨downMem, downAgu⟩ := s.spStep_keeps 0x3F#6
  have pushRest := s.push_of_plain plain h l
  have popRest := s.pop_of_plain plain
  refine ⟨?_, ?_, ?_, ?_, fun j hj => ?_, fun k _ => ?_, ?_, ?_, ?_, ?_, fun k _ => ?_, ?_, ?_, ?_, ?_, ?_, ?_⟩
  · rw [push]; exact spCount_toNat s.pcu.sp 1
  · exact (congrArg (fun j : Fin 16 => (s.push h l).pcu.ssh[j]) top).trans (by rw [high]; exact same _ _)
  · exact (congrArg (fun j : Fin 16 => (s.push h l).pcu.ssl[j]) top).trans (by rw [low]; exact same _ _)
  · rw [push]
  · rw [high, low]; exact ⟨other hj _ _, other hj _ _⟩
  · rw [pushRest, ← spStep_error s.pcu.sp 1 (by decide)]; exact s.spStep_pend 1 k
  · have down := spCount_toNat s.pcu.sp 0x3F#6
    rw [show (0x3F#6).toNat = 63 from rfl, spNext] at down
    rw [pop]
    dsimp only
    rw [down]
    split <;> omega
  · rw [pop]
  · rw [pop]
  · rw [pop]
  · rw [popRest, ← spStep_error s.pcu.sp 0x3F#6 (by decide)]; exact s.spStep_pend 0x3F#6 k
  · rw [pushRest]; exact upMem
  · rw [popRest]; exact downMem
  · rw [pushRest]; exact upAgu
  · rw [popRest]; exact downAgu
  · rw [push]
  · rw [pop]

/-- Settles O44: SP counts, and the extension moves one entry where the stack is full or empty. -/
theorem stack_extension : Obligations.Stack_extension := by
  intro s h l extended low
  exact ⟨s.push_extended extended low h l, s.pop_extended extended low⟩

end

section
/-!
Returns (47_program_control R494, R495; 60_exceptions R573), and a call followed by a return.
-/
namespace Sys2Proof.Machine

variable (s : State)

theorem exec_rts : exec .rts s = .next ((s.pop.withCtx none).withPc s.ssh) := rfl

theorem exec_rti : exec .rti s = .next (((s.pop.writeSr s.ssl).withCtx none).withPc s.ssh) := rfl

theorem State.writeSr_same (h : s.ce = false) (v : Word) : s.writeSr v = s.withSr (v &&& 0xFBEFFF#24) := by
  simp only [State.writeSr, h, Bool.false_and, Bool.false_eq_true, if_false]

variable {s} in
theorem SrOk.same {v : Word} (h : SrOk v) : v &&& 0xFBEFFF#24 = v := by
  have split : v = (v &&& 0x041000#24) ||| (v &&& 0xFBEFFF#24) := by
    rw [← BitVec.and_or_distrib_left, show 0x041000#24 ||| 0xFBEFFF#24 = BitVec.allOnes 24 by decide, BitVec.and_allOnes]
  rw [show v &&& 0x041000#24 = 0#24 from h, BitVec.zero_or] at split
  exact split.symm

/-- The stack after a call, where there is room: one entry with the return address and SR. -/
theorem State.called_of_room {i : Instr} {F : Flow} (h : callOf s i = some F) (taken : F.taken = true)
    (moving : s.frozen = false) (room : RoomUp s 1) :
    ∃ t, exec i s = .next t ∧ t.ssh = s.pcu.pc + BitVec.ofNat 24 i.len ∧ t.ssl = s.pcu.sr ∧ t.irq = s.irq ∧
      t.sen = false ∧ t.pcu = { s.pcu with
        pc := F.target, sp := s.pcu.sp + 1, sc := s.pcu.sc + 1
        ssh := s.pcu.ssh.set (slotAt s 1) (s.pcu.pc + BitVec.ofNat 24 i.len)
        ssl := s.pcu.ssl.set (slotAt s 1) s.pcu.sr } := by
  have pcu : (s.applyUpd F.upd).pcu = s.pcu := by simp
  have ctl : (s.applyUpd F.upd).ctl = s.ctl := by simp
  have outside : s.ctl.ctx = none := by
    rw [State.frozen, Bool.or_eq_false_iff] at moving
    exact Option.not_isSome_iff_eq_none.1 (by rw [moving.1]; exact Bool.false_ne_true)
  have next : (s.applyUpd F.upd).nextPc i.len = s.pcu.pc + BitVec.ofNat 24 i.len := by
    have frozen : (s.applyUpd F.upd).frozen = false := by rw [State.frozen, ctl]; exact moving
    rw [State.nextPc, frozen, pcu]
    rfl
  have roomy : RoomUp (s.applyUpd F.upd) 1 := by
    obtain ⟨plain, low⟩ := room
    exact ⟨by rw [State.sen, State.omrBit, pcu]; exact plain, by rw [pcu]; exact low⟩
  have run := exec_of_callOf h
  rw [if_pos taken, State.call_of_program _ (ctl ▸ outside), pcu, next] at run
  obtain ⟨ssh, ssl⟩ := State.push_top _ roomy (s.pcu.pc + BitVec.ofNat 24 i.len) s.pcu.sr
  have pushed := State.push_of_room _ roomy (s.pcu.pc + BitVec.ofNat 24 i.len) s.pcu.sr
  refine ⟨_, run, ssh, ssl, ?_, ?_, ?_⟩
  · rw [pushed]; simp
  · rw [pushed]; exact roomy.plain
  · rw [pushed]
    cases F.upd <;> rfl

end Sys2Proof.Machine

open Sys2Proof Sys2Proof.Machine

/-- Settles O42: a return pulls the entry that the call pushed. -/
theorem call_and_return : Obligations.Call_and_return := by
  refine ⟨fun s => ⟨exec_rts s, _, exec_rti s, rfl, ?_⟩, fun s i F h taken moving room ok => ?_⟩
  · refine ⟨State.writeSr_sr _ _, rfl, ?_, ?_, ?_, ?_, ?_, ?_, fun off => ?_⟩
    · simp
    · simp
    · simp
    · simp
    · simp
    · simp
    · have still : s.pop.ce = false := by simpa [State.ce, State.srBit] using off
      rw [State.writeSr_same _ still]
      simp
  · obtain ⟨t, run, ssh, ssl, irq, plain, pcu⟩ := s.called_of_room h taken moving room
    obtain ⟨-, low⟩ := room
    have down : RoomDown t 1 := ⟨plain, by rw [pcu]; dsimp only; bv_omega, by rw [pcu]; dsimp only; bv_omega⟩
    have pop := t.pop_of_room down
    have popped : t.pop.pcu = { t.pcu with sp := s.pcu.sp, sc := s.pcu.sc } := by
      rw [pop, pcu]
      simp
    have sr : t.pop.pcu.sr = s.pcu.sr := by rw [popped, pcu]
    have sp : t.pop.pcu.sp = s.pcu.sp := by rw [popped]
    have high : t.pcu.ssh = s.pcu.ssh.set (slotAt s 1) (s.pcu.pc + BitVec.ofNat 24 i.len) := by rw [pcu]
    have deep : t.pcu.ssl = s.pcu.ssl.set (slotAt s 1) s.pcu.sr := by rw [pcu]
    have others {j : Fin 16} (hj : j ≠ slotAt s 1) (v : Vector Word 16) (x : Word) : (v.set (slotAt s 1) x)[j] = v[j] :=
      (getElem_set_slot ..).trans (if_neg hj)
    refine ⟨t, _, _, run, by rw [pcu], exec_rts t, exec_rti t, ssh, rfl, sp, ?_, sr, ?_, by rw [State.withPc_sc]; simp [popped],
      ?_, fun j hj => ⟨?_, ?_⟩⟩
    · simpa using sp
    · exact (State.writeSr_sr _ _).trans (by rw [ssl, ok.same])
    · rw [pop]; exact irq
    · have same : t.pop.pcu.ssh = t.pcu.ssh := by rw [popped]
      exact (congrArg (fun v : Vector Word 16 => v[j]) (same.trans high)).trans (others hj _ _)
    · have same : t.pop.pcu.ssl = t.pcu.ssl := by rw [popped]
      exact (congrArg (fun v : Vector Word 16 => v[j]) (same.trans deep)).trans (others hj _ _)

end

section
/-!
Bit instructions (44_bit_manipulation R390 to R395; 47_program_control R470(c), (d)): each is one of four meanings on its operand.
-/
namespace Sys2Proof.Machine

variable (s : State)

/-! ## What each bit instruction does -/

/-- The meaning of a bit instruction on its operand. -/
def BitUse.run (u : BitUse) (len : Nat) (s : State) : Res :=
  match u.eff with
  | .change f => bitModify f u.n u.opd len s
  | .test => bitTest u.n u.opd len s
  | .jump want target => bitJump want u.n u.opd target s
  | .call want target => bitCall want u.n u.opd target s

variable {s} in
theorem exec_of_bitUse {i : Instr} {u : BitUse} (h : bitUse s i = some u) : exec i s = u.run i.len s := by
  cases i <;> simp only [bitUse, Option.some.injEq, reduceCtorEq] at h <;> subst h <;> rfl

variable {s} in
theorem badBit_of_numbered {u : BitUse} (h : u.numbered s) : s.badBit u.n = none := by
  obtain ⟨few, sixteen⟩ := h
  rw [State.badBit, if_neg (by omega)]
  refine if_neg fun both => ?_
  rw [Bool.and_eq_true, decide_eq_true_eq] at both
  have := sixteen both.1
  omega

/-! ## The operand -/

theorem bitRead_eq (o : BitOpd) : (s.bitRead o).w = (bitSource s o).1 ∧ (s.bitRead o).st = (bitSource s o).2 := by
  cases o <;> exact ⟨rfl, rfl⟩

theorem bitWrite_eq (o : BitOpd) (t : State) (v : Word) : t.bitWrite o (s.bitRead o).addr v = bitDest s t v o := by
  cases o <;> rfl

theorem isSr_eq (o : BitOpd) : isSr o = decide (o = .reg (.c .sr)) := by
  cases o with
  | reg r =>
    cases r with
    | d d => simp [isSr]
    | c c => cases c <;> simp [isSr]
  | mem sp e => simp [isSr]
  | io sp a => simp [isSr]

/-- C replaced in CCR is C replaced in SR. -/
theorem setC_eq_withCarry (b : Bool) : s.setC b = withCarry s b := by
  have bits (v : Word) (b : Bool) : (v &&& 0xFFFF00#24) ||| ((v.extractLsb' 0 8 &&& 0xFE#8) ||| bitAt 8 0 b).setWidth 24 =
      if b then v ||| 1 else v &&& 0xFFFFFE#24 := by
    cases b <;>
      (refine BitVec.eq_of_getLsbD_eq fun k hk => ?_
       interval_cases k <;> simp [bitAt])
  simp only [State.setC, withCarry, State.withCcr, State.ccr, bits]

/-- S and L merged leave the bits of SR above CCR as they were. -/
theorem State.mergeSL_high (r : Rd) {k : Nat} (h8 : 8 ≤ k) (h : k < 24) : (s.mergeSL r).srBit k = s.srBit k := by
  have high (v : Word) (c : Byte) : ((v &&& 0xFFFF00#24) ||| c.setWidth 24).getLsbD k = v.getLsbD k := by
    have mask : ∀ k < 24, 8 ≤ k → (0xFFFF00#24).getLsbD k = true := by decide
    rw [BitVec.getLsbD_or, BitVec.getLsbD_and, mask k h h8, BitVec.getLsbD_setWidth, BitVec.getLsbD_of_ge c k h8, Bool.and_true,
      Bool.and_false, Bool.or_false]
  exact high _ _

/-- Reading a bit operand leaves the PC, the interrupt context and the mask alone. -/
theorem bitSource_keeps (o : BitOpd) :
    (bitSource s o).2.pcu.pc = s.pcu.pc ∧ (bitSource s o).2.ctl = s.ctl ∧ (bitSource s o).2.ipl = s.ipl := by
  cases o with
  | mem sp e => exact ⟨by simp [bitSource], by simp [bitSource], by simp [bitSource, State.ipl]⟩
  | io sp a => exact ⟨rfl, rfl, rfl⟩
  | reg r =>
    refine ⟨by simp [bitSource], by simp [bitSource], ?_⟩
    cases r with
    | d d =>
      refine BitVec.eq_of_getLsbD_eq fun k hk => ?_
      have := s.mergeSL_high (s.rdD d) (k := 8 + k) (by omega) (by omega)
      rw [State.ipl, State.ipl, BitVec.getLsbD_extractLsb', BitVec.getLsbD_extractLsb']
      exact congrArg (decide (k < 2) && ·) this
    | c c =>
      simp only [bitSource, State.rdReg]
      split <;> simp [State.ipl]

end Sys2Proof.Machine

open Sys2Proof Sys2Proof.Machine

/-- Settles O38: the operand as read, one bit of it replaced, is written back. -/
theorem bit_changes : Obligations.Bit_changes := by
  intro s i u f h change numbered
  obtain ⟨word, state⟩ := bitRead_eq s u.opd
  refine ⟨setBit (bitSource s u.opd).1 u.n.toNat (f ((bitSource s u.opd).1.getLsbD u.n.toNat)), fun k hk => ?_, ?_⟩
  · have inside : u.n.toNat < 24 := numbered.1
    rw [getLsbD_setBit]
    by_cases same : k = u.n.toNat
    · simp [same, inside]
    · simp [same]
  · rw [exec_of_bitUse h, BitUse.run, change]
    simp only [bitModify, badBit_of_numbered numbered, word, state, bitWrite_eq, setC_eq_withCarry, isSr_eq, decide_eq_true_eq]

/-- Settles O39: the bit decides over the jump, and a call taken in a vector word is the long entry. -/
theorem bit_tests : Obligations.Bit_tests := by
  intro s i u h numbered b t
  obtain ⟨word, state⟩ := bitRead_eq s u.opd
  obtain ⟨pc, ctl, mask⟩ := bitSource_keeps s u.opd
  have good := badBit_of_numbered numbered
  have next : t.nextPc 2 = s.nextPc 2 := State.nextPc_congr pc (by rw [ctl]) (by rw [ctl]) 2
  have run := exec_of_bitUse h
  unfold BitUse.run at run
  generalize u.eff = eff at run
  cases eff with
  | change f => trivial
  | test => simpa only [bitTest, good, word, state, setC_eq_withCarry] using run
  | jump want target => simpa only [bitJump, good, word, state, beq_iff_eq, State.jump] using run
  | call want target =>
    simp only [bitCall, good, word, state, beq_iff_eq] at run
    refine ⟨fun differ => ?_, fun equal outside => ?_, fun equal c within => ?_⟩
    · rw [run, if_neg differ]
    · rw [run, if_pos equal, State.call_of_program _ (by rw [ctl]; exact outside), next]
    · rw [if_pos equal, State.call_of_vector _ (by rw [ctl]; exact within), pc] at run
      refine ⟨_, _, run, rfl, fun k hk h8 h9 => entrySr_bit _ _ hk h8 h9, ?_⟩
      refine (congrArg BitVec.toNat (entrySr_mask _ _)).trans ((toNat_raisedMask _ _).trans ?_)
      rw [show t.pcu.sr.extractLsb' 8 2 = s.ipl from mask]

end

section
/-!
Moves between a register and memory, and between memories (46_move R425 to R439): what each leaves.
-/
namespace Sys2Proof.Machine

variable (s : State)

/-! ## One-word moves as parallel moves -/

theorem State.applyUpds_toList (u : Option (Fin 8 × Word)) : s.applyUpds u.toList = s.applyUpd u := by cases u <;> rfl

theorem State.applyUpd_withCcr (u : Option (Fin 8 × Word)) (c : Byte) :
    (s.applyUpd u).withCcr c = (s.withCcr c).applyUpd u := by cases u <;> rfl

/-- A word from memory to a register. -/
theorem runMove_load {m : PMove} {sp : Space} {d : DReg} {a v : Word} {u : Option (Fin 8 × Word)}
    (h : s.plan m = s.planMem sp d .write a v u.toList) :
    runMove m s = .next (((s.applyUpd u).wrD d v).advance (moveLen m)) := by
  rw [runMove_eq, h]
  show Host.Outcome.next ((((s.applyUpds u.toList).wrD d v).withCcr (orSL false false s.ccr)).advance (moveLen m)) = _
  rw [s.applyUpds_toList, orSL_false, State.withCcr_of_sr (by simp)]

/-- A word from a register to memory. -/
theorem runMove_store {m : PMove} {sp : Space} {d : DReg} {a v : Word} {u : Option (Fin 8 × Word)}
    (h : s.plan m = s.planMem sp d .read a v u.toList) :
    runMove m s = .next ((((s.mergeSL (s.rdD d)).applyUpd u).writeData sp a (s.rdD d).w).advance (moveLen m)) := by
  rw [runMove_eq, h]
  show Host.Outcome.next ((((s.applyUpds u.toList).withCcr (orSL (s.rdD d).sTerm (s.rdD d).lTerm s.ccr)).writeData sp a
    (s.rdD d).w).advance (moveLen m)) = _
  rw [s.applyUpds_toList, s.applyUpd_withCcr, State.mergeSL]

theorem loadEa_eq (sp : Space) (e : Ea) : s.loadEa sp e = (eaLoc s sp true e).value s := by cases e <;> rfl

theorem eaLoc_store (sp : Space) (e : Ea) : eaLoc s sp false e = .data sp (s.ea e).addr := by cases e <;> rfl

/-- What a transfer leaves. -/
def Transfer.done (s : State) (T : Transfer) : State :=
  if T.load then (s.applyUpd T.upd).wrReg T.reg (T.loc.value s)
  else T.loc.put ((s.rdReg T.reg).2.applyUpd T.upd) (s.rdReg T.reg).1

/-- A parallel move between a register of the five-bit code and an effective address. -/
theorem runMove_ea {m : PMove} (sp : Space) (d : DReg) (w : Dir) (e : Ea)
    (h : s.plan m = s.planMem sp d w (s.ea e).addr (s.loadEa sp e) (s.eaUpds e)) :
    runMove m s = .next ((Transfer.done s ⟨.d d, w == .write, eaLoc s sp (w == .write) e, (s.ea e).upd⟩).advance (moveLen m)) := by
  cases w with
  | write => rw [runMove_load s h, loadEa_eq]; rfl
  | read =>
    rw [runMove_store s h]
    show _ = Host.Outcome.next (((eaLoc s sp false e).put _ _).advance _)
    rw [eaLoc_store]
    rfl

/-- One between such a register and an absolute short address. -/
theorem runMove_aa {m : PMove} (sp : Space) (d : DReg) (w : Dir) (a : Word)
    (h : s.plan m = s.planMem sp d w a (s.readData sp a) []) :
    runMove m s = .next ((Transfer.done s ⟨.d d, w == .write, .data sp a, none⟩).advance (moveLen m)) := by
  cases w with
  | write => exact runMove_load s (u := none) h
  | read => exact runMove_store s (u := none) h

theorem moveData_eq (sp : Space) (w : Dir) (e : Ea) (r : Reg) : moveData sp w e r s =
    .next ((Transfer.done s ⟨r, w == .write, eaLoc s sp (w == .write) e, (s.ea e).upd⟩).advance (1 + e.extWords.length)) := by
  cases w with
  | write => rw [moveData, loadReg, loadEa_eq]; rfl
  | read =>
    rw [moveData, storeReg]
    show _ = Host.Outcome.next (((eaLoc s sp false e).put _ _).advance _)
    rw [eaLoc_store]
    rfl

theorem moveAt_eq (sp : Space) (w : Dir) (a : Word) (r : Reg) (len : Nat) :
    moveAt sp w a r len s = .next ((Transfer.done s ⟨r, w == .write, .data sp a, none⟩).advance len) := by
  cases w <;> rfl

theorem moveProgram_eq (w : Dir) (a : Word) (u : Option (Fin 8 × Word)) (r : Reg) (len : Nat) :
    moveProgram w a u r len s = .next ((Transfer.done s ⟨r, w == .write, .prog a, u⟩).advance len) := by
  cases w <;> rfl

theorem movePeripheralReg_eq (ps : Space) (io : Word) (w : Dir) (r : Reg) : movePeripheralReg ps io w r s =
    .next ((Transfer.done s ⟨r, w == .read, .data ps io, none⟩).advance 1) := by
  cases w <;> rfl

variable {s} in
/-- Every move between a register and memory makes its transfer. -/
theorem exec_of_transfer {i : Instr} {T : Transfer} (h : transfer s i = some T) :
    exec i s = .next ((T.done s).advance i.len) := by
  cases i <;> simp only [transfer, Option.some.injEq, reduceCtorEq] at h <;> subst h
  case moveXEa d w e => exact runMove_ea s .x d w e rfl
  case moveXAa d w a => exact runMove_aa s .x d w _ rfl
  case moveYEa d w e => exact runMove_ea s .y d w e rfl
  case moveYAa d w a => exact runMove_aa s .y d w _ rfl
  case moveXLong n w r d => exact moveAt_eq s .x w _ r 2
  case moveYLong n w r d => exact moveAt_eq s .y w _ r 2
  case moveXShort d n w r => exact moveAt_eq s .x w _ _ 1
  case moveYShort d n w r => exact moveAt_eq s .y w _ _ 1
  case movecEa w sp e r => exact moveData_eq s sp w e _
  case movecAa w sp a r => exact moveAt_eq s sp w _ _ 1
  case movemEa w e r => exact moveProgram_eq s w _ _ r _
  case movemAa w a r => exact moveProgram_eq s w _ none r 1
  case movepPpReg ps w r p => exact movePeripheralReg_eq s ps _ w r
  case movepXqqReg w r q => exact movePeripheralReg_eq s .x _ w r
  case movepYqqReg w r q => exact movePeripheralReg_eq s .y _ w r

/-! ## Moves from memory to memory -/

theorem movePeripheral_write (ps : Space) (io : Word) (sp : Space) (e : Ea) : movePeripheral ps io .write sp e s =
    .next ((Loc.put (s.applyUpd (s.ea e).upd) ((eaLoc s sp true e).value s) (.data ps io)).advance (1 + e.extWords.length)) := by
  rw [movePeripheral, loadEa_eq]; rfl

theorem movePeripheral_read (ps : Space) (io : Word) (sp : Space) (e : Ea) : movePeripheral ps io .read sp e s =
    .next (((eaLoc s sp false e).put (s.applyUpd (s.ea e).upd) (s.readData ps io)).advance (1 + e.extWords.length)) := by
  rw [eaLoc_store]; rfl

/-! ## States with the same memories and devices -/

/-- Two states whose memories and memory-mapped registers are the same, and in which the same of them answer. -/
structure SameDevices (s t : State) : Prop where
  mem : t.mem = s.mem
  port : t.port = s.port
  dma : t.dma = s.dma
  irq : t.irq = s.irq
  once : t.once = s.once
  free : t.ctl.freeCtr = s.ctl.freeCtr
  bus : SameBus s t

theorem SameDevices.refl : SameDevices s s := ⟨rfl, rfl, rfl, rfl, rfl, rfl, rfl, rfl, rfl⟩

/-- What a later read of a register may still answer is no device's content. -/
theorem SameDevices.echo (k : Nat) (m w : Word) (n : Nat) : SameDevices s (s.withEcho k m w n) := by
  unfold State.withEcho
  split
  · exact .refl s
  · exact ⟨rfl, rfl, rfl, rfl, rfl, rfl, rfl, rfl, rfl⟩

section SameDevices
variable {s} {t : State} (h : SameDevices s t)
include h

theorem SameDevices.symm : SameDevices t s :=
  ⟨h.mem.symm, h.port.symm, h.dma.symm, h.irq.symm, h.once.symm, h.free.symm, h.bus.sc.symm, h.bus.ebd.symm, h.bus.switch.symm⟩

theorem SameDevices.trans {u : State} (k : SameDevices t u) : SameDevices s u :=
  ⟨k.mem.trans h.mem, k.port.trans h.port, k.dma.trans h.dma, k.irq.trans h.irq, k.once.trans h.once, k.free.trans h.free,
    h.bus.trans k.bus⟩

theorem SameDevices.withChannel (n : Fin 6) (c : DmaChannel) : SameDevices (s.withChannel n c) (t.withChannel n c) :=
  ⟨h.mem, h.port, by simp only [State.withChannel, h.dma], h.irq, h.once, h.free, ⟨h.bus.sc, h.bus.ebd, h.bus.switch⟩⟩

theorem SameDevices.setDtd (n : Fin 6) (b : Bool) : SameDevices (s.setDtd n b) (t.setDtd n b) :=
  ⟨h.mem, h.port, by simp only [State.setDtd, h.dma], h.irq, h.once, h.free, ⟨h.bus.sc, h.bus.ebd, h.bus.switch⟩⟩

theorem SameDevices.dmaInterrupt (n : Fin 6) (d : Word) : SameDevices (s.dmaInterrupt n d) (t.dmaInterrupt n d) := by
  unfold State.dmaInterrupt
  split
  · exact ⟨h.mem, h.port, h.dma, by simp only [State.setPend, h.irq], h.once, h.free, ⟨h.bus.sc, h.bus.ebd, h.bus.switch⟩⟩
  · exact h

theorem SameDevices.writeDcr (n : Fin 6) (v : Word) : SameDevices (s.writeDcr n v) (t.writeDcr n v) := by
  have holds : t.dmaHolds n = s.dmaHolds n := by simp only [State.dmaHolds, h.dma]
  have turn : t.freeBit .dmaTurn 1 = s.freeBit .dmaTurn 1 := by simp only [State.freeBit, State.free, h.free]
  unfold State.writeDcr
  simp only [h.dma, holds, turn]
  split
  · exact (h.withChannel _ _).setDtd _ _
  · split
    · exact h.withChannel _ _
    · split
      · split
        · exact (h.withChannel _ _).setDtd _ _
        · exact ((h.withChannel _ _).setDtd _ _).dmaInterrupt _ _
      · exact h.withChannel _ _

theorem SameDevices.writeDmaReg (n : Fin 6) (f : Nat) (v : Word) : SameDevices (s.writeDmaReg n f v) (t.writeDmaReg n f v) := by
  have echoes {u w : State} (g : SameDevices u w) (i j k l : Nat) (a b c d a' b' c' d' : Word) (i' j' k' l' : Nat) :
      SameDevices ((u.withEcho i a b j).withEcho k c d l) ((w.withEcho i' a' b' j').withEcho k' c' d' l') :=
    ((((SameDevices.echo _ k c d l).symm.trans (SameDevices.echo _ i a b j).symm).trans g).trans
      (SameDevices.echo _ i' a' b' j')).trans (SameDevices.echo _ k' c' d' l')
  unfold State.writeDmaReg
  split
  · exact echoes (h.writeDcr n v) ..
  · unfold State.writeDmaAddr
    simp only [h.dma]
    split <;> exact h.withChannel _ _

theorem SameDevices.writeDramCtrl (v : Word) : SameDevices (s.writeDramCtrl v) (t.writeDramCtrl v) := by
  unfold State.writeDramCtrl
  simp only [h.bus.ebd, h.port]
  have ctrl : SameDevices { s with port := { s.port with dcr := v &&& dcrDramMask s.ebd } }
      { t with port := { s.port with dcr := v &&& dcrDramMask s.ebd } } :=
    ⟨h.mem, rfl, h.dma, h.irq, h.once, h.free, h.bus.sc, h.bus.ebd, h.bus.switch⟩
  split
  · exact ((SameDevices.echo _ ..).symm.trans ctrl).trans (SameDevices.echo _ ..)
  · exact ctrl

theorem SameDevices.withPort (f : PortRegs → PortRegs) : SameDevices { s with port := f s.port } { t with port := f t.port } :=
  ⟨h.mem, congrArg f h.port, h.dma, h.irq, h.once, h.free, h.bus.sc, h.bus.ebd, h.bus.switch⟩

theorem SameDevices.withIrq (f : Irq → Irq) : SameDevices { s with irq := f s.irq } { t with irq := f t.irq } :=
  ⟨h.mem, h.port, h.dma, congrArg f h.irq, h.once, h.free, h.bus.sc, h.bus.ebd, h.bus.switch⟩

theorem SameDevices.withOnce (f : Once → Once) : SameDevices { s with once := f s.once } { t with once := f t.once } :=
  ⟨h.mem, h.port, h.dma, h.irq, congrArg f h.once, h.free, h.bus.sc, h.bus.ebd, h.bus.switch⟩

theorem SameDevices.withDma (f : Dma → Dma) : SameDevices { s with dma := f s.dma } { t with dma := f t.dma } :=
  ⟨h.mem, h.port, congrArg f h.dma, h.irq, h.once, h.free, h.bus.sc, h.bus.ebd, h.bus.switch⟩

theorem SameDevices.writeCoreReg (k : Nat) (v : Word) : SameDevices (s.writeCoreReg k v) (t.writeCoreReg k v) := by
  have echo : SameDevices (s.withEcho k 0xFFFFFF#24 v 3) (t.withEcho k 0xFFFFFF#24 v 3) :=
    ((SameDevices.echo _ ..).symm.trans h).trans (SameDevices.echo _ ..)
  unfold State.writeCoreReg
  split; · exact h.withIrq fun q => { q with iprc := v, pend := q.pend &&& irqKeep v }
  split; · exact h.withIrq fun q => { q with iprp := v }
  split; · exact h.withPort fun p => { p with pctl := v }
  split; · exact h.withOnce fun o => { o with ogdbr := v }
  split; · exact h.withPort fun p => { p with bcr := v &&& (if Config.hasBlh then 0xDFFFFF#24 else 0x9FFFFF#24) }
  split
  · split
    · exact h.writeDramCtrl v
    · exact h
  split; · exact h.withPort fun p => { p with aar := p.aar.set (Fin.ofNat 4 (0x79 - k)) v }
  split; · exact echo
  split; · exact echo
  split; · exact h.withDma fun d => { d with dor := d.dor.set (Fin.ofNat 4 (0x73 - k)) v }
  exact h.writeDmaReg _ _ v

theorem SameDevices.writeData (sp : Space) (a w : Word) : SameDevices (s.writeData sp a w) (t.writeData sp a w) := by
  have rom : t.inRom sp a = s.inRom sp a := by simp only [State.inRom, h.bus.inModules]
  have void : t.inVoid sp a = s.inVoid sp a := by simp only [State.inVoid, h.bus.inModules]
  have window : t.inIo a = s.inIo a := by simp [State.inIo, State.topOf, State.mapAddr, h.bus.sc]
  have data : t.dataMem sp = s.dataMem sp := by cases sp <;> simp [State.dataMem, h.mem]
  simp only [State.writeData, rom, void, window, h.bus.internalIo, h.bus.dataExternal, h.bus.dataKey, h.bus.ebd, data]
  split
  · split
    · exact h.writeCoreReg _ _
    · exact h
  · split
    · exact h
    · cases sp <;>
        exact ⟨by simp only [State.withDataMem, h.mem], h.port, h.dma, h.irq, h.once, h.free, h.bus.sc, h.bus.ebd, h.bus.switch⟩

end SameDevices

variable {s} in
/-- The stores of an instruction, made in a state in which memories and devices are as before, leave them as if made there. -/
theorem SameDevices.applyMems {t : State} (h : SameDevices s t) (l : List (Space × Word × Word)) :
    SameDevices (s.applyMems l) (t.applyMems l) := by
  unfold State.applyMems
  induction l generalizing s t with
  | nil => exact h
  | cons p l ih => exact ih (h.writeData p.1 p.2.1 p.2.2)

variable {s} in
theorem SameDevices.stored {t : State} (h : SameDevices s t) (l : List (Space × Word × Word)) : Stored s (t.applyMems l) l :=
  ⟨(h.applyMems l).mem, (h.applyMems l).port, (h.applyMems l).dma, (h.applyMems l).irq, (h.applyMems l).once⟩

theorem SameDevices.applyUpd (u : Option (Fin 8 × Word)) : SameDevices s (s.applyUpd u) := by
  cases u <;> exact ⟨rfl, rfl, rfl, rfl, rfl, rfl, rfl, rfl, rfl⟩

/-- The low word of VSL: bits 22 to 0 of A0 or B0 moved up by one, with the bit `b` below them. -/
theorem doubled_with_bit (v : Word) (b : Bool) :
    (v.extractLsb' 0 23 ++ (if b then 1#1 else 0#1) : Word) = (v <<< 1) + (if b then 1 else 0) := by
  have bit : (if b then 1#1 else 0#1) = BitVec.ofBool b := by cases b <;> rfl
  apply BitVec.eq_of_toNat_eq
  rw [bit, BitVec.toNat_append, ← Nat.shiftLeft_add_eq_or_of_lt (BitVec.isLt _), BitVec.toNat_add, BitVec.toNat_shiftLeft,
    BitVec.extractLsb'_toNat, Nat.shiftLeft_eq, Nat.shiftLeft_eq, Nat.shiftRight_zero]
  have := v.isLt
  cases b <;> simp <;> omega

end Sys2Proof.Machine

open Sys2Proof Sys2Proof.Machine

/-- Settles O33, by the plan of each parallel move and the meaning of each other move. -/
theorem loads_and_stores : Obligations.Loads_and_stores := by
  intro s i T h
  rw [exec_of_transfer h, Transfer.done]
  split <;> rfl

/-- Settles O37: MOVEP reads its word before it updates the address register, VSL stores two. -/
theorem memory_moves : Obligations.Memory_moves := by
  refine ⟨fun s i src dst u h => ?_, fun s d b e => ⟨_, rfl, ?_⟩⟩
  · cases i with
    | movepPpEa ps w sp e p =>
      cases w <;> cases h
      · exact movePeripheral_read s ps _ sp e
      · exact movePeripheral_write s ps _ sp e
    | movepXqqEa w sp e q =>
      cases w <;> cases h
      · exact movePeripheral_read s .x _ sp e
      · exact movePeripheral_write s .x _ sp e
    | movepYqqEa w sp e q =>
      cases w <;> cases h
      · exact movePeripheral_read s .y _ sp e
      · exact movePeripheral_write s .y _ sp e
    | movepPpP ps w e p => cases w <;> (cases h; rfl)
    | movepQqP w e ps q => cases w <;> (cases h; rfl)
    | _ => simp only [blockMove, reduceCtorEq] at h
  · have low : ((s.acc d).extractLsb' 0 23 ++ (if b then 1#1 else 0#1) : Word) =
        ((s.acc d).extractLsb' 0 24 <<< 1) + (if b then 1 else 0) := by
      rw [← doubled_with_bit]
      congr 1
      refine BitVec.eq_of_getLsbD_eq fun k hk => ?_
      simp only [BitVec.getLsbD_extractLsb', hk, Nat.zero_add, decide_true, Bool.true_and]
      rw [decide_eq_true (by omega), Bool.true_and]
    refine ⟨?_, ?_, ?_, ?_, ?_⟩
    · exact State.nextPc_congr (by simp) (by simp) (by simp) _
    · simp
    · simp
    · simp
    · rw [low]
      exact (SameDevices.applyUpd s (s.ea e).upd).stored [(.x, (s.ea e).addr, _), (.y, (s.ea e).addr, _)]

end

section
/-!
The Data ALU instructions as a family: what they leave alone (O16), and that an operation does not disturb its parallel move
(O17).
-/
namespace Sys2Proof.Machine

variable (s : State)

/-- The end of an instruction goes on in sequence. -/
theorem State.advance_pc (t : State) (n : Nat) (hp : t.pcu.pc = s.pcu.pc) (hc : t.ctl.ctx = s.ctl.ctx)
    (hf : t.ctl.phase = s.ctl.phase) :
    (t.advance n).pcu.pc = s.nextPc n := by
  simp [State.advance, State.nextPc, State.frozen, hp, hc, hf]

theorem frame_norm (n : Fin 8) (d : Acc) :
    Frame s (((s.commitAlu (opNorm d s)).setR n (s.agu.r[n] + normStep s)).advance 1)
      [accAsReg d, .d (.r n)] 0x0000FF#24 [] := by
  have hd : (opNorm d s).mask = 0 ∨ (opNorm d s).dst = d := by
    unfold opNorm; (repeat' split) <;> first | exact .inr rfl | exact .inl rfl
  have same : ∀ o : AluOut, s.commitAlu o = (s.commitAcc o).withCcr (o.ccr.apply s.ccr) := fun _ => rfl
  rw [same]
  apply frame_of_registers <;> simp
  · intro r hacc hr
    rw [State.content_advance, State.content_setR _ _ _ _ hr, State.content_withCcr]
    exact s.content_commitAcc _ r (hd.imp id fun h => by rw [h]; exact hacc)
  · exact withCcr_high ..

/-- Every instruction with destinations completes within its frame. -/
theorem frame_of_dests (i : Instr) (l : List Reg) (h : dests i = some l) :
    ∃ t, exec i s = .next t ∧ t.pcu.pc = s.nextPc i.len ∧
      Frame s t (l ++ movedRegs (s.plan (parallelPart i))) 0x0000FF#24 (moveStores (s.plan (parallelPart i))) := by
  cases ho : outOf s i with
  | some o => exact frame_outOf s i o l ho (dst_outOf s i l o h ho)
  | none =>
    have alone : ∀ t : State, ∀ (l : List Reg), Frame s t l 0x0000FF#24 [] → Frame s t (l ++ movedRegs (s.plan .none)) 0x0000FF#24 (moveStores (s.plan .none)) := by
      intro t l hf
      exact (List.append_nil l).symm ▸ hf
    cases i <;> simp only [outOf, dests, Option.some.injEq, reduceCtorEq] at h ho <;> subst h
    case tccD c g d => 
      obtain ⟨t, he, hp, hf⟩ := frame_tcc s c (tccSrc g d) none [accAsReg d] (by cases g <;> exact .inr (List.mem_singleton_self _)) (by simp)
      exact ⟨t, he, hp, alone t _ hf⟩
    case tccDR c g d a b =>
      obtain ⟨t, he, hp, hf⟩ := frame_tcc s c (tccSrc g d) (some (a, b)) [accAsReg d, .d (.r b)] (by cases g <;> exact .inr (List.mem_cons_self)) (by simp)
      exact ⟨t, he, hp, alone t _ hf⟩
    case tccR c a b =>
      obtain ⟨t, he, hp, hf⟩ := frame_tcc s c (fun _ => .nothing) (some (a, b)) [.d (.r b)] (.inl rfl) (by simp)
      exact ⟨t, he, hp, alone t _ hf⟩
    case norm n d => exact ⟨_, rfl, s.advance_pc _ 1 (by simp) (by simp) (by simp), alone _ _ (frame_norm s n d)⟩
    case luaEa u n d => exact ⟨_, rfl, s.advance_pc _ 1 (by simp) (by simp) (by simp), alone _ _ (frame_wrD s d _ 1)⟩
    case luaDisp u n d => exact ⟨_, rfl, s.advance_pc _ 1 (by simp) (by simp) (by simp), alone _ _ (frame_wrD s (aguDReg d) _ 1)⟩
    case lraReg n d => exact ⟨_, rfl, s.advance_pc _ 1 (by simp) (by simp) (by simp), alone _ _ (frame_wrD s d _ 1)⟩
    case lraLong d w => exact ⟨_, rfl, s.advance_pc _ 2 (by simp) (by simp) (by simp), alone _ _ (frame_wrD s d _ 2)⟩


theorem withAcc_acc (d : Acc) : s.withAcc d (s.acc d) = s := by cases d <;> rfl

/-- A register write after a write of an accumulator: as without it, but for that accumulator. -/
theorem wrD_withAcc (d : Acc) (v : AccWord) (e : DReg) (w : Word) :
    ∃ v', (s.withAcc d v).wrD e w = (s.wrD e w).withAcc d v' := by
  have xy : ∀ q, ∃ v', (s.withAcc d v).wrXY q w = (s.wrXY q w).withAcc d v' := by
    intro q
    have mode : (s.withAcc d v).sa = s.sa := by cases d <;> rfl
    refine ⟨v, ?_⟩
    unfold State.wrXY
    simp only [mode]
    cases s.sa <;> cases d <;> cases q <;> rfl
  match e with
  | .r n => exact ⟨v, by cases d <;> rfl⟩
  | .n n => exact ⟨v, by cases d <;> rfl⟩
  | .alu .x0 => exact xy .x0
  | .alu .x1 => exact xy .x1
  | .alu .y0 => exact xy .y0
  | .alu .y1 => exact xy .y1
  | .alu .a => cases d <;> exact ⟨_, rfl⟩
  | .alu .b => cases d <;> exact ⟨_, rfl⟩
  | .alu .a0 => cases d <;> exact ⟨_, rfl⟩
  | .alu .b0 => cases d <;> exact ⟨_, rfl⟩
  | .alu .a1 => cases d <;> exact ⟨_, rfl⟩
  | .alu .b1 => cases d <;> exact ⟨_, rfl⟩
  | .alu .a2 => cases d <;> exact ⟨_, rfl⟩
  | .alu .b2 => cases d <;> exact ⟨_, rfl⟩

theorem applyRegs_withAcc (d : Acc) (v : AccWord) (l : List (DReg × Word)) :
    ∃ v', (s.withAcc d v).applyRegs l = (s.applyRegs l).withAcc d v' := by
  unfold State.applyRegs
  induction l generalizing s v with
  | nil => exact ⟨v, rfl⟩
  | cons p l ih =>
    obtain ⟨v₁, h⟩ := wrD_withAcc s d v p.1 p.2
    rw [List.foldl_cons, List.foldl_cons, h]
    exact ih (s.wrD p.1 p.2) v₁

/-- Where both halves of a move load one accumulator, the move writes no other register of the five-bit code. -/
theorem State.plan_twice_all (m : PMove) (d : Acc) (h : (s.plan m).twice = some d) :
    ∀ p ∈ (s.plan m).regs, p.1 = .alu (accReg d) := by
  cases m with
  | xy yw ym xs ys xw yn xm xn =>
    cases yw <;> cases xw <;> cases xs <;> cases ys <;>
      simp [State.plan, State.planXY, State.planMem, bothLoad] at h ⊢ <;> subst h <;> simp [xSideReg, ySideReg, accReg]
  | xEa d w e => cases w <;> simp [State.plan, State.planMem] at h
  | xAa d w e => cases w <;> simp [State.plan, State.planMem] at h
  | yEa d w e => cases w <;> simp [State.plan, State.planMem] at h
  | yAa d w e => cases w <;> simp [State.plan, State.planMem] at h
  | xr1 _ _ _ w e => cases w <;> simp [State.plan, State.planMem, State.planClass1] at h
  | ry1 _ _ _ w e => cases w <;> simp [State.plan, State.planMem, State.planClass1] at h
  | lEa l w e => cases w <;> simp [State.plan, State.planLong] at h
  | lAa l w e => cases w <;> simp [State.plan, State.planLong] at h
  | _ => simp [State.plan, Plan.nothing, State.planClass2] at h

theorem freeTwice_withAcc (d : Acc) (v : AccWord) (e : Option Acc) :
    ∃ v', (s.withAcc d v).freeTwice e = (s.freeTwice e).withAcc d v' := by
  match e, d with
  | none, _ => exact ⟨v, rfl⟩
  | some .a, .a => exact ⟨_, rfl⟩
  | some .a, .b => exact ⟨_, rfl⟩
  | some .b, .a => exact ⟨_, rfl⟩
  | some .b, .b => exact ⟨_, rfl⟩

/-- The accumulator written twice with an operation is the operation's own, or the one written twice without it. -/
theorem twiceWritten_cases (o : AluOut) (m : PMove) :
    twiceWritten o (s.plan m) = (s.plan m).twice ∨
      twiceWritten o (s.plan m) = some o.dst ∧ o.mask ≠ 0 ∧ ((s.plan m).twice = none ∨ (s.plan m).twice = some o.dst) := by
  unfold twiceWritten
  split
  · next h =>
    obtain ⟨p, hp, hq⟩ := List.any_eq_true.1 h
    simp only [Bool.and_eq_true] at hq
    refine .inr ⟨rfl, fun e => by simp [e] at hq, ?_⟩
    cases ht : (s.plan m).twice with
    | none => exact .inl rfl
    | some d =>
      have hr := s.plan_twice_all m d ht p hp
      rw [hr] at hq
      obtain ⟨hd, -⟩ := hq
      exact .inr (by cases d <;> cases h : o.dst <;> simp_all [partOf, accReg])
  · exact .inl rfl

/-- The state in which an operation and its move have written the registers. -/
def State.registersWritten (s : State) (o : AluOut) (p : Plan) : State :=
  (((s.applyUpds p.upds).commitAcc o).applyRegs p.regs).freeTwice (twiceWritten o p)

theorem State.commitAcc_of_no_mask {o : AluOut} (h : o.mask = 0) : s.commitAcc o = s := by
  unfold State.commitAcc
  rw [h, show ~~~(0 : AccWord) = BitVec.allOnes 56 by decide, BitVec.and_allOnes]
  simpa using withAcc_acc s o.dst

theorem twiceWritten_of_no_mask {o : AluOut} (h : o.mask = 0) (p : Plan) : twiceWritten o p = p.twice := by
  simp [twiceWritten, h]

/-- An operation adds to its move a write of one accumulator. -/
theorem registersWritten_alone (o : AluOut) (m : PMove) :
    ∃ v, s.registersWritten o (s.plan m) = (s.registersWritten .nothing (s.plan m)).withAcc o.dst v := by
  have nothing : s.registersWritten .nothing (s.plan m) =
      ((s.applyUpds (s.plan m).upds).applyRegs (s.plan m).regs).freeTwice (s.plan m).twice := by
    unfold State.registersWritten
    rw [State.commitAcc_of_no_mask _ rfl, twiceWritten_of_no_mask rfl]
  obtain ⟨v, hv⟩ := applyRegs_withAcc (s.applyUpds (s.plan m).upds) o.dst _ (s.plan m).regs
  rw [nothing]
  unfold State.registersWritten State.commitAcc
  rw [hv]
  rcases twiceWritten_cases s o m with h | ⟨h, -, ht | ht⟩
  · rw [h]; exact freeTwice_withAcc _ _ _ _
  · rw [h, ht]
    cases o.dst <;> exact ⟨_, rfl⟩
  · rw [h, ht]; exact freeTwice_withAcc _ _ _ _

theorem SameDevices.of_withAcc (d : Acc) (v : AccWord) : SameDevices s (s.withAcc d v) := by
  cases d <;> exact ⟨rfl, rfl, rfl, rfl, rfl, rfl, rfl, rfl, rfl⟩

theorem SameDevices.of_withCcr (c : Byte) : SameDevices s (s.withCcr c) :=
  ⟨rfl, rfl, rfl, rfl, rfl, rfl, by simp [State.sc], rfl, rfl⟩

theorem SameDevices.of_advance (n : Nat) : SameDevices s (s.advance n) :=
  ⟨rfl, rfl, rfl, rfl, rfl, rfl, rfl, rfl, rfl⟩

/-- An operation leaves alone what its move does to the memory and the devices, and to every other register. -/
theorem commit_alone (o : AluOut) (m : PMove) (n k : Nat) :
    let t := (s.commit o (s.plan m)).advance n
    let u := (s.commit .nothing (s.plan m)).advance k
    (∀ r, (o.mask = 0 ∨ clash (accAsReg o.dst) r = false) → t.content r = u.content r) ∧ SameDevices u t := by
  intro t u
  obtain ⟨v, hv⟩ := registersWritten_alone s o m
  have ht : s.commit o (s.plan m) = ((s.registersWritten o (s.plan m)).withCcr
      (orSL (s.plan m).sTerm (s.plan m).lTerm (o.ccr.apply s.ccr))).applyMems (s.plan m).mems := rfl
  have hu : s.commit .nothing (s.plan m) = ((s.registersWritten .nothing (s.plan m)).withCcr
      (orSL (s.plan m).sTerm (s.plan m).lTerm (AluOut.nothing.ccr.apply s.ccr))).applyMems (s.plan m).mems := rfl
  constructor
  · intro r hr
    show ((s.commit o (s.plan m)).advance n).content r = ((s.commit .nothing (s.plan m)).advance k).content r
    rw [State.content_advance, State.content_advance, ht, hu]
    simp only [State.content_applyMems, State.content_withCcr]
    rcases hr with hr | hr
    · unfold State.registersWritten
      rw [State.commitAcc_of_no_mask _ hr, State.commitAcc_of_no_mask _ rfl, twiceWritten_of_no_mask hr,
        twiceWritten_of_no_mask rfl]
    · rw [hv, State.content_withAcc _ _ _ _ hr]
  · refine ((SameDevices.of_advance _ k).symm.trans ?_).trans (SameDevices.of_advance _ n)
    rw [ht, hu, hv]
    exact (((SameDevices.of_withCcr _ _).symm.trans (SameDevices.of_withAcc _ o.dst v)).trans
      (SameDevices.of_withCcr _ _)).applyMems _

/-- The bits of the CCR that the operations write. -/
def writtenFlags : List Byte := [0x3F#8, 0x3E#8, 0x0F#8, 0x0E#8, 0x03#8, 0x41#8, 0x01#8, 0x00#8]

theorem outMax_flags (b : Bool) : (s.outMax b).ccr.mask ∈ writtenFlags := by
  unfold State.outMax
  dsimp only
  (repeat' split) <;> simp only <;> decide

/-- Each operation writes one of a few sets of flags, S in none of them. -/
theorem outOf_flags {i : Instr} {o : AluOut} (h : outOf s i = some o) : o.ccr.mask ∈ writtenFlags := by
  cases i <;> simp only [outOf, Option.some.injEq, reduceCtorEq] at h <;> subst h
  case max => exact outMax_flags s _
  case maxm => exact outMax_flags s _
  all_goals (try simp only [opAslN, opAsrN, opNormf, opLsl, opLsr, opLslN, opLsrN, opExtract, opExtractu, opInsert, opMerge, opMpy])
  all_goals (repeat' split)
  all_goals exact List.mem_of_elem_eq_true rfl

/-- No operation writes S. -/
theorem outOf_mask_S {i : Instr} {o : AluOut} (h : outOf s i = some o) : o.ccr.mask.getLsbD 7 = false :=
  (by decide : ∀ m ∈ writtenFlags, m.getLsbD 7 = false) _ (outOf_flags s h)

theorem SameDevices.of_setR (n : Fin 8) (v : Word) : SameDevices s (s.setR n v) := ⟨rfl, rfl, rfl, rfl, rfl, rfl, rfl, rfl, rfl⟩

theorem SameDevices.of_wrD (d : DReg) (w : Word) : SameDevices s (s.wrD d w) := by
  refine ⟨?_, ?_, ?_, ?_, ?_, ?_, SameBus.of_pcu ?_ ?_⟩ <;> simp

theorem SameDevices.of_no_move : SameDevices s (s.commit .nothing (s.plan .none)) := by
  rw [← s.commitAlu_eq_commit]
  exact (SameDevices.of_withAcc s _ _).trans (SameDevices.of_withCcr _ _)

theorem opNorm_flags (d : Acc) : (opNorm d s).ccr.mask = 0x3E#8 := by
  unfold opNorm; (repeat' split) <;> rfl

/-- The instructions that are no `outOf` have no move, and touch registers alone. -/
theorem registers_alone (i : Instr) (l : List Reg) (h : dests i = some l) (ho : outOf s i = none) :
    parallelPart i = .none ∧ ∃ t, exec i s = .next t ∧ SameDevices s t ∧ t.srBit 7 = s.srBit 7 := by
  have tcc : ∀ c o r, ∃ t, runTcc c o r s = .next t ∧ SameDevices s t ∧ t.srBit 7 = s.srBit 7 := by
    intro c o r
    refine ⟨_, rfl, ?_, ?_⟩
    · refine SameDevices.trans ?_ (SameDevices.of_advance _ 1)
      split
      · cases r with
        | none => exact SameDevices.of_withAcc s _ _
        | some p => exact (SameDevices.of_withAcc s _ _).trans (SameDevices.of_setR _ _ _)
      · exact .refl s
    · rw [State.srBit_advance]
      split <;> [(cases r <;> simp [State.srBit]); rfl]
  have one : ∀ d w n, SameDevices s ((s.wrD d w).advance n) ∧ ((s.wrD d w).advance n).srBit 7 = s.srBit 7 := fun d w n =>
    ⟨(SameDevices.of_wrD s d w).trans (SameDevices.of_advance _ n), by simp [State.srBit]⟩
  cases i <;> simp only [outOf, dests, Option.some.injEq, reduceCtorEq] at h ho
  case tccD c g d => exact ⟨rfl, tcc c (tccSrc g d) none⟩
  case tccDR c g d a b => exact ⟨rfl, tcc c (tccSrc g d) (some (a, b))⟩
  case tccR c a b => exact ⟨rfl, tcc c (fun _ => .nothing) (some (a, b))⟩
  case norm n d =>
    refine ⟨rfl, _, rfl, ?_, ?_⟩
    · exact (((SameDevices.of_withAcc s _ _).trans (SameDevices.of_withCcr _ _)).trans (SameDevices.of_setR _ n _)).trans
        (SameDevices.of_advance _ 1)
    · have := s.srBit_commit_S (opNorm d s) (s.plan .none) 1 (by rw [opNorm_flags]; decide)
      rw [← s.commitAlu_eq_commit] at this
      show (s.commitAlu (opNorm d s)).srBit 7 = s.srBit 7
      simpa [State.plan, Plan.nothing] using this
  case luaEa => exact ⟨rfl, _, rfl, one ..⟩
  case luaDisp => exact ⟨rfl, _, rfl, one ..⟩
  case lraReg => exact ⟨rfl, _, rfl, one ..⟩
  case lraLong => exact ⟨rfl, _, rfl, one ..⟩

theorem move_alone (i : Instr) (l : List Reg) (h : dests i = some l) :
    ∃ t u, exec i s = .next t ∧ exec (.moveParallel (parallelPart i)) s = .next u ∧
      (∀ r, (∀ q ∈ l, clash q r = false) → t.content r = u.content r) ∧ SameDevices u t ∧ t.srBit 7 = u.srBit 7 := by
  have move := exec_outOf s (.moveParallel (parallelPart i)) .nothing rfl
  have moveS := s.srBit_commit_S .nothing (s.plan (parallelPart i)) (Instr.moveParallel (parallelPart i)).len (by decide)
  cases ho : outOf s i with
  | some o =>
    obtain ⟨regs, same⟩ := commit_alone s o (parallelPart i) i.len (Instr.moveParallel (parallelPart i)).len
    refine ⟨_, _, exec_outOf s i o ho, move, fun r hr => ?_, same, ?_⟩
    · exact regs r ((dst_outOf s i l o h ho).imp id (hr _))
    · rw [s.srBit_commit_S o _ _ (outOf_mask_S s ho)]; exact moveS.symm
  | none =>
    obtain ⟨none, t, ht, same, sticky⟩ := registers_alone s i l h ho
    obtain ⟨t', ht', -, frame⟩ := frame_of_dests s i l h
    cases ht.symm.trans ht'
    rw [none] at frame move moveS ⊢
    obtain ⟨u, hu, -, still⟩ := frame_of_dests s (.moveParallel .none) [] rfl
    cases move.symm.trans hu
    refine ⟨_, _, ht, move, fun r hr => ?_, ?_, ?_⟩
    · exact (frame.regs r (by simpa [movedRegs, State.plan, Plan.nothing] using hr)).trans
        (still.regs r (by simp [movedRegs, State.plan, Plan.nothing, parallelPart])).symm
    · exact ((SameDevices.of_no_move s).trans (SameDevices.of_advance _ _)).symm.trans same
    · rw [sticky]; exact (moveS.trans (by simp [State.plan, Plan.nothing])).symm

end Sys2Proof.Machine
open Sys2Proof Sys2Proof.Machine

/-- Settles O16. -/
theorem alu_frame : Obligations.Alu_frame := fun s i l h => frame_of_dests s i l h

/-- Settles O17: an operation adds to its move a write of one accumulator and of flags other than S. -/
theorem alu_move : Obligations.Alu_move := by
  intro s i l h
  obtain ⟨t, u, ht, hu, regs, same, sticky⟩ := move_alone s i l h
  exact ⟨t, u, ht, hu, regs, same.mem, same.port, same.dma, same.irq, same.once, sticky⟩
end

section
/-!
The arithmetic of the Data ALU: sums, comparisons, the operations on one accumulator, and transfers (41_arithmetic_a; O18 to O22).
-/
namespace Sys2Proof.Machine

variable (s : State)

/-! ## Outcomes in the terms of the claims -/

theorem outOf_sum {i : Instr} {T : Terms} (h : sumTerms s i = some T) : outOf s i = some (T.op s) := by
  cases i <;> simp only [sumTerms, Option.some.injEq, reduceCtorEq] at h <;> subst h <;> rfl

theorem outOf_doubled {i : Instr} {T : Terms} (h : doubledTerms s i = some T) :
    outOf s i = some (s.outStd T.d ((stored s true T.exact).1, (stored s true T.exact).2 || signMoves (s.acc T.d))
      (T.carry s.sa)) := by
  cases i <;> simp only [doubledTerms, Option.some.injEq, reduceCtorEq] at h <;> subst h
  case addl d m => rw [carry_add, stored_eq_finish]; simp [outOf, opAddl, State.shl1, Terms.exact, wrapped_eq, signMoves]
  case subl d m => rw [carry_sub, stored_eq_finish]; simp [outOf, opSubl, State.shl1, Terms.exact, wrapped_eq, signMoves]

/-- The borrow of two magnitudes. -/
theorem borrowOf_magnitudes (sa : Bool) (a b : Int) (ha : a.natAbs < 2 ^ accWidth sa) (hb : b.natAbs < 2 ^ accWidth sa) :
    borrowOf sa a.natAbs b.natAbs 0 = decide (a.natAbs < b.natAbs) := by
  have pat : ∀ x : Int, x.natAbs < 2 ^ accWidth sa → patOf sa x.natAbs = x.natAbs := by
    intro x hx
    unfold patOf
    rw [Int.emod_eq_of_lt (Int.natCast_nonneg _) (by exact_mod_cast hx)]
    rfl
  unfold borrowOf
  rw [pat a ha, pat b hb, Nat.add_zero]

theorem State.natAbs_accSrc (d : Acc) : (s.accSrc d).natAbs < 2 ^ accWidth s.sa := by
  have h40 := (v40 (s.acc d)).toInt_lt
  have l40 := (v40 (s.acc d)).le_toInt
  have h56 := (s.acc d).toInt_lt
  have l56 := (s.acc d).le_toInt
  unfold State.accSrc
  cases s.sa <;> simp only [accInt, accWidth] <;> simp at * <;> omega

theorem State.natAbs_wordSrc (r : XYReg) : (s.wordSrc r).natAbs < 2 ^ accWidth s.sa := by
  have h16 := ((s.xy r).extractLsb' 8 16).toInt_lt
  have l16 := ((s.xy r).extractLsb' 8 16).le_toInt
  have h24 := (s.xy r).toInt_lt
  have l24 := (s.xy r).le_toInt
  unfold State.wordSrc
  cases s.sa <;> simp only [wordInt, accWidth] <;> simp at * <;> omega

theorem outOf_compare {i : Instr} {T : Terms} (h : compareTerms s i = some T) :
    outOf s i = some ⟨.a, 0, 0, s.ccrStd (wrapped s.sa T.exact) (stored s true T.exact).2 (T.carry s.sa)⟩ := by
  cases i <;> simp only [compareTerms, Option.some.injEq, reduceCtorEq] at h <;> subst h <;> rw [carry_sub, stored_eq_finish]
  case cmpmAcc d m =>
    rw [if_neg (by decide), borrowOf_magnitudes _ _ _ (s.natAbs_accSrc d) (s.natAbs_accSrc (otherAcc d))]
    simp [outOf, opCmpmAcc, State.outCmpm, State.outCmp, Terms.exact, wrapped_eq]
  case cmpmReg r d m =>
    rw [if_neg (by decide), borrowOf_magnitudes _ _ _ (s.natAbs_accSrc d) (s.natAbs_wordSrc r)]
    simp [outOf, opCmpmReg, State.outCmpm, State.outCmp, Terms.exact, wrapped_eq]
  all_goals simp [outOf, opCmpAcc, opCmpReg, opCmpImm, State.outCmp, Terms.exact, wrapped_eq]

/-! ## Operations without a parallel move -/

/-- SR after an operation without a move, bit by bit. -/
theorem State.srBit_alone (o : AluOut) (n k : Nat) : ((s.commit o (s.plan .none)).advance n).srBit k =
    if k < 8 then (if o.ccr.mask.getLsbD k then o.ccr.val.getLsbD k else s.srBit k) ||
      (decide (k = 6) && (o.ccr.mask.getLsbD 1 && o.ccr.val.getLsbD 1))
    else s.srBit k := by
  rw [State.srBit_advance, State.srBit_commit]
  simp [State.plan, Plan.nothing]

/-- A bit of the CCR that the operation writes. -/
theorem State.srBit_alone_written (o : AluOut) (n : Nat) {k : Nat} (m : Byte) (hm : o.ccr.mask = m) (hk : k < 6)
    (hb : m.getLsbD k = true) : ((s.commit o (s.plan .none)).advance n).srBit k = o.ccr.val.getLsbD k := by
  rw [State.srBit_alone, if_pos (by omega), hm, hb, decide_eq_false (by omega : ¬k = 6)]
  simp

/-- A bit of SR that the operation does not write. -/
theorem State.srBit_alone_kept (o : AluOut) (n : Nat) {k : Nat} (m : Byte) (hm : o.ccr.mask = m) (h6 : k ≠ 6)
    (hb : m.getLsbD k = false) : ((s.commit o (s.plan .none)).advance n).srBit k = s.srBit k := by
  rw [State.srBit_alone, hm, hb, decide_eq_false h6]
  simp

theorem State.srBit_alone_L (o : AluOut) (n : Nat) (m : Byte) (hm : o.ccr.mask = m) (hb : m.getLsbD 6 = false) :
    ((s.commit o (s.plan .none)).advance n).srBit 6 = (s.srBit 6 || (m.getLsbD 1 && o.ccr.val.getLsbD 1)) := by
  rw [State.srBit_alone, hm, hb]
  simp

theorem State.acc_alone (o : AluOut) (n : Nat) (d : Acc) : ((s.commit o (s.plan .none)).advance n).acc d =
    if d = o.dst then (s.acc d &&& ~~~o.mask) ||| (o.val &&& o.mask) else s.acc d := by
  rw [State.acc_advance, s.acc_commit o .none d (by simp [State.plan, Plan.nothing])]

/-- An operation that stores nothing. -/
theorem State.acc_alone_flags (c : CcrUpd) (n : Nat) (d : Acc) :
    ((s.commit ⟨.a, 0, 0, c⟩ (s.plan .none)).advance n).acc d = s.acc d := by
  rw [State.acc_alone, show ~~~(0 : AccWord) = BitVec.allOnes 56 by decide, BitVec.and_allOnes]
  simp

/-- An operation that stores all of an accumulator. -/
theorem State.acc_alone_all (d : Acc) (v : AccWord) (c : CcrUpd) (n : Nat) :
    ((s.commit ⟨d, accAll, v, c⟩ (s.plan .none)).advance n).acc d = v := by
  rw [State.acc_alone, if_pos rfl, and_accAll]
  simp [accAll]

/-- A byte below 2^n has no bit from `n` up. -/
theorem getLsbD_of_small {m : Byte} {n k : Nat} (h : m.toNat < 2 ^ n) (hk : n ≤ k) : m.getLsbD k = false :=
  Nat.testBit_lt_two_pow (h.trans_le (Nat.pow_le_pow_right (by decide) hk))

/-! ## Unsigned comparison -/

theorem unsignedLow_eq (sa : Bool) (a : AccWord) : unsignedLow sa a = accNat sa a % 2 ^ (accWidth sa - 8) := by
  cases sa
  · simp [unsignedLow, accNat, accWidth]
  · have low : (v40 a).setWidth 32 = a.extractLsb' 32 16 ++ a.extractLsb' 8 16 := by
      apply BitVec.eq_of_getLsbD_eq
      intro i hi
      simp only [v40, BitVec.getLsbD_setWidth, BitVec.getLsbD_append]
      by_cases h : i < 16 <;> (simp [h, hi]; try omega)
    have := congrArg BitVec.toNat low
    simpa [unsignedLow, accNat, accWidth] using this.symm

theorem unsignedWord_eq (sa : Bool) (w : Word) :
    (if sa then (w.extractLsb' 8 16).toNat * 2 ^ 16 else w.toNat * 2 ^ 24) = patOf sa (wordInt sa w) % 2 ^ (accWidth sa - 8) := by
  unfold patOf wordInt
  generalize w.extractLsb' 8 16 = v
  have hv := v.isLt
  have hw := w.isLt
  cases sa <;> simp only [accWidth, BitVec.toInt_eq_toNat_cond] <;> simp <;> split <;> omega

/-! ## One accumulator -/

/-- An instruction that stores nothing leaves an accumulator that its move spares. -/
theorem acc_commit_flags (i : Instr) (c : CcrUpd) (n : Nat) (d : Acc) (h : Spares s i d) :
    ((s.commit ⟨.a, 0, 0, c⟩ (s.plan (parallelPart i))).advance n).acc d = s.acc d := by
  rw [State.acc_advance, s.acc_commit _ _ _ h, show ~~~(0 : AccWord) = BitVec.allOnes 56 by decide, BitVec.and_allOnes]
  simp

theorem exec_tst (d : Acc) (m : PMove) : ∃ t, exec (.tst d m) s = .next t ∧ FlagsOf s t (wrapped s.sa (s.accSrc d)) ∧
    t.srBit 1 = false ∧ t.srBit 0 = s.srBit 0 ∧ Stickies s t (.tst d m) false ∧
    (Spares s (.tst d m) .a → t.acc .a = s.acc .a) ∧ (Spares s (.tst d m) .b → t.acc .b = s.acc .b) := by
  obtain ⟨f0, f1, f2, f3, f4, f5, sticky⟩ := commit_flags s (.tst d m) (opTst d s) (Instr.tst d m).len 1 false false
    (wrapped s.sa (s.accSrc d) == 0) (wrapped s.sa (s.accSrc d)).msb (s.flagU (wrapped s.sa (s.accSrc d)))
    (s.flagE (wrapped s.sa (s.accSrc d))) rfl (by show ∀ k < 6, (0x3E#8).getLsbD k = _; decide) (by decide)
    (by show (0x3E#8).getLsbD 6 = _; decide) (by show (0x3E#8).getLsbD 7 = _; decide)
  exact ⟨_, exec_outOf s _ _ rfl, ⟨extUnn_of_flags s _ _ f5 f4, f3, f2⟩, f1, f0, sticky,
    acc_commit_flags s _ _ _ .a, acc_commit_flags s _ _ _ .b⟩

theorem exec_clr (d : Acc) (m : PMove) : ∃ t, exec (.clr d m) s = .next t ∧ (Spares s (.clr d m) d → t.acc d = 0) ∧
    t.srBit 5 = false ∧ t.srBit 4 = true ∧ t.srBit 3 = false ∧ t.srBit 2 = true ∧ t.srBit 1 = false ∧
    t.srBit 0 = s.srBit 0 ∧ Stickies s t (.clr d m) false := by
  obtain ⟨f0, f1, f2, f3, f4, f5, sticky⟩ := commit_flags s (.clr d m) (opClr d s) (Instr.clr d m).len 1 false false true
    false true false rfl (by show ∀ k < 6, (0x3E#8).getLsbD k = _; decide) (by decide)
    (by show (0x3E#8).getLsbD 6 = _; decide) (by show (0x3E#8).getLsbD 7 = _; decide)
  exact ⟨_, exec_outOf s _ _ rfl, s.acc_commit_all _ d 0 _ _, f5, f4, f3, f2, f1, f0, sticky⟩

/-- An instruction with the stored result of an exact value, and C as before. -/
theorem exec_outNoC {i : Instr} {d : Acc} {r : AccWord × Bool} (h : outOf s i = some (s.outNoC d r)) :
    ∃ t, exec i s = .next t ∧ (Spares s i d → t.acc d = r.1) ∧ t.srBit 1 = r.2 ∧ t.srBit 0 = s.srBit 0 ∧
      FlagsOf s t r.1 ∧ Stickies s t i r.2 :=
  ⟨_, exec_outOf s i _ h, commit_outNoC s i d r i.len⟩

/-! ## Transfers -/

/-- A transfer changes no flag but S and L, those of its move. -/
theorem commit_transfer (i : Instr) (d : Acc) (v : AccWord) (n : Nat) :
    let t := (s.commit ⟨d, accAll, v, .keep⟩ (s.plan (parallelPart i))).advance n
    (Spares s i d → t.acc d = v) ∧ (∀ k < 6, t.srBit k = s.srBit k) ∧ Stickies s t i false := by
  have none : ∀ k, (0#8).getLsbD k = false := fun k => BitVec.getLsbD_zero
  refine ⟨s.acc_commit_all i d v _ n, fun k hk => ?_, ?_, ?_⟩
  · have := s.srBit_commit_low ⟨d, accAll, v, .keep⟩ (s.plan (parallelPart i)) n k hk
    rwa [show CcrUpd.keep.mask = 0#8 from rfl, none, if_neg Bool.false_ne_true] at this
  · have := s.srBit_commit_L ⟨d, accAll, v, .keep⟩ (s.plan (parallelPart i)) n (none 6)
    rwa [show CcrUpd.keep.mask = 0#8 from rfl, none, Bool.false_and] at this
  · exact s.srBit_commit_S ⟨d, accAll, v, .keep⟩ (s.plan (parallelPart i)) n (none 7)

theorem tccSrc_val (g : AccOrReg) (d : Acc) : s.commitAcc (tccSrc g d s) = s.withAcc d (match g with
      | .other => wrapped s.sa (s.accSrc (otherAcc d))
      | .reg r => wrapped s.sa (s.wordSrc r)) := by
  have all : ∀ v : AccWord, s.commitAcc ⟨d, accAll, v, .keep⟩ = s.withAcc d v := by
    intro v
    unfold State.commitAcc
    dsimp only
    rw [and_accAll]
    simp [accAll]
  cases g <;> exact all _

/-- A condition that is true makes the transfers of Tcc, a false one nothing. -/
theorem runTcc_true {c : Cond} (h : s.cond c = true) (g : AccOrReg) (d : Acc) (r : Option (Fin 8 × Fin 8)) :
    runTcc c (tccSrc g d) r s = .next ((match r with
      | none => s.commitAcc (tccSrc g d s)
      | some p => (s.commitAcc (tccSrc g d s)).setR p.2 s.agu.r[p.1]).advance 1) := by
  cases r <;> simp only [runTcc, h, if_true]

theorem runTcc_false {c : Cond} (h : ¬s.cond c = true) (o : State → AluOut) (r : Option (Fin 8 × Fin 8)) :
    runTcc c o r s = .next (s.advance 1) := by
  simp only [runTcc, if_neg h]

theorem State.r_setR (n : Fin 8) (v : Word) : (s.setR n v).agu.r[n] = v := by
  simp [State.setR]

/-! ## Maximum -/

/-- MAX and MAXM: C is the complement of the transfer, the other low flags stay. -/
theorem commit_outMax (i : Instr) (b : Bool) (n : Nat) :
    let t := (s.commit (s.outMax b) (s.plan (parallelPart i))).advance n
    t.srBit 0 = !b ∧ (∀ k, 1 ≤ k → k < 6 → t.srBit k = s.srBit k) ∧
      (Spares s i .b → t.acc .b = if b then (clipped s false (wrapped s.sa (s.accSrc .a)) false).1 else s.acc .b) := by
  have acc : s.outMax b = ⟨.b, accAll, if b then (clipped s false (wrapped s.sa (s.accSrc .a)) false).1 else s.acc .b,
      (s.outMax b).ccr⟩ := by
    rw [clipped_eq, wrapped_eq]
    unfold State.outMax
    cases b <;> simp only [Bool.false_eq_true, if_true, if_false]
  have flags : (s.outMax b).ccr.mask.getLsbD 0 = true ∧ (s.outMax b).ccr.val.getLsbD 0 = !b ∧
      ∀ k, 1 ≤ k → k < 6 → (s.outMax b).ccr.mask.getLsbD k = false := by
    unfold State.outMax
    dsimp only
    (repeat' split) <;> simp only [*] <;> decide
  obtain ⟨mask, val, kept⟩ := flags
  refine ⟨?_, fun k h1 hk => ?_, fun h => ?_⟩
  · rw [s.srBit_commit_low _ _ n 0 (by decide), mask, val, if_pos rfl]
  · rw [s.srBit_commit_low _ _ n k hk, kept k h1 hk, if_neg Bool.false_ne_true]
  · rw [acc]; exact s.acc_commit_all i .b _ _ n h

theorem exec_outMax {i : Instr} {a b : Int} (h : outOf s i = some (s.outMax (decide (b ≤ a)))) :
    ∃ t, exec i s = .next t ∧ t.srBit 0 = decide (a < b) ∧ (∀ k, 1 ≤ k → k < 6 → t.srBit k = s.srBit k) ∧
      (Spares s i .b → t.acc .b =
        if b ≤ a then (clipped s false (wrapped s.sa (s.accSrc .a)) false).1 else s.acc .b) := by
  obtain ⟨c, kept, acc⟩ := commit_outMax s i (decide (b ≤ a)) i.len
  refine ⟨_, exec_outOf s i _ h, c.trans ?_, kept, by simpa only [decide_eq_true_eq] using acc⟩
  rw [← decide_not, decide_eq_decide, Int.not_le]

/-- Magnitudes compare as the model compares them. -/
theorem natAbs_le_natAbs_iff (a b : Int) : a.natAbs ≤ b.natAbs ↔ |a| ≤ |b| := by
  rw [Int.abs_eq_natAbs, Int.abs_eq_natAbs, Int.ofNat_le]

end Sys2Proof.Machine
open Sys2Proof Sys2Proof.Machine

/-- Settles O18. -/
theorem sums : Obligations.Sums := by
  refine ⟨fun s i T h => ?_, fun s i T h => ?_⟩
  · refine ⟨_, exec_outOf s i _ (outOf_sum s h), ?_⟩
    rw [T.op_eq s]
    exact commit_outStd s i T.d (stored s true T.exact) (T.carry s.sa) i.len
  · obtain ⟨acc, v, c, flags, sticky⟩ := commit_outStd s i T.d
      ((stored s true T.exact).1, (stored s true T.exact).2 || signMoves (s.acc T.d)) (T.carry s.sa) i.len
    exact ⟨_, exec_outOf s i _ (outOf_doubled s h), acc, v, c, flags, v ▸ sticky⟩

/-- Settles O19. -/
theorem comparisons : Obligations.Comparisons := by
  refine ⟨fun s i T h => ⟨_, exec_outOf s i _ (outOf_compare s h), commit_outCmp s i _ _ _ i.len⟩, fun s g d => ?_⟩
  intro a b
  have hb : b = match g with
      | .other => accNat s.sa (s.acc (otherAcc d)) % 2 ^ (accWidth s.sa - 8)
      | .reg r => patOf s.sa (s.wordSrc r) % 2 ^ (accWidth s.sa - 8) := by
    cases g with
    | other => exact unsignedLow_eq _ _
    | reg r => exact unsignedWord_eq _ _
  have ha : a = accNat s.sa (s.acc d) % 2 ^ (accWidth s.sa - 8) := unsignedLow_eq _ _
  have out : outOf s (.cmpu g d) =
      some ⟨.a, 0, 0, ⟨0x0F#8, ccrByte (decide (a < b)) false (a == b) (decide (a < b)) false false⟩⟩ := by
    rw [ha, hb]; cases g <;> rfl
  obtain ⟨b0, b1, b2, b3, b4, b5⟩ := ccrByte_bits (decide (a < b)) false (a == b) (decide (a < b)) false false
  refine ⟨_, exec_outOf s _ _ out, ?_, ?_, ?_, ?_, fun k hk => ?_, s.acc_alone_flags _ _ .a, s.acc_alone_flags _ _ .b⟩
  · exact (s.srBit_alone_written _ _ 0x0F#8 rfl (by decide) (by decide)).trans b0
  · exact (s.srBit_alone_written _ _ 0x0F#8 rfl (by decide) (by decide)).trans b1
  · exact (s.srBit_alone_written _ _ 0x0F#8 rfl (by decide) (by decide)).trans (b2.trans (beq_eq_decide _ _))
  · exact (s.srBit_alone_written _ _ 0x0F#8 rfl (by decide) (by decide)).trans b3
  · by_cases h6 : k = 6
    · subst h6
      exact (s.srBit_alone_L _ _ 0x0F#8 rfl (by decide)).trans
        ((congrArg (fun b => s.srBit 6 || ((0x0F#8).getLsbD 1 && b)) b1).trans (by simp))
    · exact s.srBit_alone_kept _ _ 0x0F#8 rfl h6 (getLsbD_of_small (by decide) hk)

/-- Settles O20. -/
theorem single_operand : Obligations.Single_operand := by
  refine ⟨exec_tst, exec_clr, fun s d m => ⟨exec_outNoC s ?_, exec_outNoC s ?_⟩⟩
  · rw [stored_eq_finish, ← Int.natCast_natAbs]; rfl
  · rw [stored_eq_finish]; rfl

/-- Settles O21. -/
theorem transfers : Obligations.Transfers := by
  refine ⟨fun s d m => ⟨?_, fun r => ?_⟩, fun s c g d a b => ?_⟩
  · exact ⟨_, exec_outOf s _ _ rfl, commit_transfer s (.tfrAcc d m) d _ _⟩
  · exact ⟨_, exec_outOf s _ _ rfl, commit_transfer s (.tfrReg r d m) d _ _⟩
  · intro v
    split
    · next h =>
      have acc : (s.commitAcc (tccSrc g d s)).acc d = v :=
        (congrArg (fun t : State => t.acc d) (tccSrc_val s g d)).trans ((State.acc_withAcc ..).trans (if_pos rfl))
      refine ⟨⟨_, runTcc_true s h g d none, ?_, by simp, by simp⟩, ⟨_, runTcc_true s h g d (some (a, b)), ?_, ?_, by simp⟩,
        _, congrArg (fun t : State => Host.Outcome.next (t.advance 1)) (if_pos h), ?_,
        by simp [State.commitAcc_of_no_mask _ (o := .nothing) rfl], by simp⟩
      · rw [State.acc_advance, acc]
      · rw [State.acc_advance, State.acc_setR, acc]
      · exact State.r_setR ..
      · exact State.r_setR ..
    · next h => exact ⟨runTcc_false s h (tccSrc g d) none, runTcc_false s h (tccSrc g d) (some (a, b)),
        runTcc_false s h (fun _ => .nothing) (some (a, b))⟩

/-- Settles O22. -/
theorem maximum : Obligations.Maximum := by
  refine fun s m => ⟨exec_outMax s rfl, exec_outMax s ?_⟩
  show some (opMaxm s) = _
  simp only [opMaxm, natAbs_le_natAbs_iff]
end

section
/-!
The products, roundings, shifts, normalization and division step of the Data ALU (41_arithmetic_a, 42_arithmetic_b; O23 to O27).
-/
namespace Sys2Proof.Machine

variable (s : State)

/-! ## Products -/

theorem product_eq (sa : Bool) (a b : Word) (p q k : Bool) : product sa a b p q k = twiceProduct sa a b p q k := by
  have value : ∀ (sg : Bool) (w : Word), mulVal sa sg w = wordValue sa sg w := by
    intro sg w; cases sa <;> cases sg <;> rfl
  unfold product twiceProduct
  rw [value, value]
  cases k <;> simp <;> ring

theorem dmActive_eq : s.dmActive = doubleMode s := rfl

theorem outOf_product {i : Instr} {d : Acc} {sm : Bool} {x : Int} (h : productTerms s i = some (d, sm, x)) :
    outOf s i = some (s.outNoC d (stored s sm x)) := by
  rw [stored_eq_finish]
  cases i <;> simp only [productTerms, reduceCtorEq] at h
  case mpy q d k m =>
    split at h
    · exact absurd h (by simp)
    · next hm =>
      cases h
      simp [outOf, opMpy, dmActive_eq, hm, State.pairProduct, product_eq]
  case mac q d k m =>
    split at h
    · exact absurd h (by simp)
    · next hm =>
      cases h
      simp [outOf, opMac, State.macTerms, dmActive_eq, hm, State.pairProduct, product_eq]
  case mpySu sg q d k => cases h; cases sg <;> (simp only [outOf, opMpySu, su1, product_eq]; rfl)
  case macSu sg q d k => cases h; cases sg <;> (simp only [outOf, opMacSu, su1, product_eq]; rfl)
  case dmac sg q d k => cases h; cases sg <;> (simp only [outOf, opDmac, signs2, product_eq]; rfl)
  all_goals
    cases h
    simp [outOf, opMpyImm, opMacImm, State.immProduct, product_eq]

theorem outOf_doubleMode {i : Instr} {d : Acc} {x : Int} (hm : doubleMode s = true) (h : doubleModeTerms s i = some (d, x)) :
    outOf s i = some (s.outNoC d (stored s true x)) := by
  have sa : s.sa = false := by
    simp only [doubleMode, Bool.and_eq_true, Bool.not_eq_true'] at hm
    exact hm.2
  have src : ∀ d, s.accSrc d = (s.acc d).toInt := fun d => by simp [State.accSrc, accInt, sa]
  rw [stored_eq_finish]
  cases i <;> simp only [doubleModeTerms, reduceCtorEq] at h
  case mpy q d k m =>
    cases q <;> cases h <;> simp [outOf, opMpy, dmActive_eq, hm, State.pairProduct, product_eq, sa]
  case mac q d k m =>
    cases q <;> cases h <;> simp [outOf, opMac, State.macTerms, dmActive_eq, hm, State.pairProduct, product_eq, sa, src]

/-! ## Rounding -/

/-- An exact value as the accumulator holds it: the same modulo the accumulator's width. -/
theorem accOfInt_congr (sa : Bool) {x y : Int} (h : x % 2 ^ accWidth sa = y % 2 ^ accWidth sa) : accOfInt sa x = accOfInt sa y := by
  have eq : ∀ w, x % 2 ^ w = y % 2 ^ w → BitVec.ofInt w x = BitVec.ofInt w y := by
    intro w e
    apply BitVec.eq_of_toNat_eq
    rw [BitVec.toNat_ofInt, BitVec.toNat_ofInt]
    push_cast
    rw [e]
  cases sa
  · exact eq 56 h
  · exact congrArg pack (eq 40 h)

theorem v40_pack (v : BitVec 40) : v40 (pack v) = v := by
  apply BitVec.eq_of_getLsbD_eq
  intro i hi
  simp only [v40, pack, BitVec.getLsbD_append, BitVec.getLsbD_extractLsb']
  interval_cases i <;> simp

/-- The value an exact result has in the accumulator. -/
theorem accInt_accOfInt (sa : Bool) (x : Int) : accInt sa (accOfInt sa x) = x.bmod (2 ^ accWidth sa) := by
  cases sa
  · simp [accInt, accOfInt, accWidth]
  · simp [accInt, accOfInt, accWidth, v40_pack]

/-- The rounding of a pattern is that of its value, modulo the accumulator's width. -/
theorem roundPat_congr {w p : Nat} (rm : Bool) (x : Int) (h : (w, p) ∈ [(40, 15), (40, 16), (40, 14), (56, 23), (56, 24), (56, 22)]) :
    ((roundPat w p rm (x % 2 ^ w).toNat : Nat) : Int) % 2 ^ w = roundedTo (p + 1) (!rm) (x.bmod (2 ^ w)) % 2 ^ w := by
  have value : x.bmod (2 ^ w) = ((x % 2 ^ w).toNat : Int) ∨ x.bmod (2 ^ w) = ((x % 2 ^ w).toNat : Int) - 2 ^ w := by
    have pos : 0 ≤ x % 2 ^ w := Int.emod_nonneg _ (by positivity)
    unfold Int.bmod
    rw [Int.toNat_of_nonneg pos]
    push_cast
    split
    · exact .inl rfl
    · exact .inr rfl
  have lt : (x % 2 ^ w).toNat < 2 ^ w := by
    have := Int.emod_lt_of_pos x (by positivity : (0 : Int) < 2 ^ w)
    rw [Int.toNat_lt (Int.emod_nonneg _ (by positivity))]
    exact_mod_cast this
  generalize x.bmod (2 ^ w) = r at value
  generalize (x % 2 ^ w).toNat = n at value lt
  simp only [List.mem_cons, Prod.mk.injEq, List.not_mem_nil, or_false] at h
  unfold roundPat roundedTo
  rcases h with ⟨rfl, rfl⟩ | ⟨rfl, rfl⟩ | ⟨rfl, rfl⟩ | ⟨rfl, rfl⟩ | ⟨rfl, rfl⟩ | ⟨rfl, rfl⟩ <;> cases rm <;>
    simp only [Bool.not_true, Bool.not_false, Bool.true_and, Bool.false_and, Bool.and_eq_true, beq_iff_eq, Bool.false_eq_true,
      if_false] <;> (repeat' split) <;> omega

theorem State.clearedBits_eq (h : s.scaling ≠ .reserved) : clearedBits s.sa s.scaling = s.roundPos + 1 ∧
    (accWidth s.sa, s.roundPos) ∈ [(40, 15), (40, 16), (40, 14), (56, 23), (56, 24), (56, 22)] := by
  unfold State.roundPos clearedBits accWidth
  cases hs : s.scaling with
  | reserved => exact absurd hs h
  | none | down | up => cases s.sa <;> (simp only []; decide)

theorem finishRound_eq (h : s.scaling ≠ .reserved) (x : Int) : s.finishRound true x = roundedStored s x := by
  obtain ⟨bits, place⟩ := s.clearedBits_eq h
  have value : accOfInt s.sa (roundPat (accWidth s.sa) s.roundPos s.rm (patOf s.sa x)) =
      wrapped s.sa (roundedTo (clearedBits s.sa s.scaling) (!s.srBit 21) (accInt s.sa (wrapped s.sa x))) := by
    rw [wrapped_eq, wrapped_eq, accInt_accOfInt, bits]
    exact accOfInt_congr s.sa (roundPat_congr s.rm x place)
  unfold State.finishRound roundedStored
  dsimp only
  rw [if_neg h, clipped_eq, value, outOfRange_eq, bits, Nat.add_sub_cancel]

theorem outOf_round {i : Instr} {d : Acc} {x : Int} (hs : s.scaling ≠ .reserved) (h : roundTerms s i = some (d, x)) :
    outOf s i = some (s.outNoC d (roundedStored s x)) := by
  rw [← finishRound_eq s hs]
  cases i <;> simp only [roundTerms, reduceCtorEq] at h <;> cases h <;>
    simp [outOf, opRnd, opMpyr, opMacr, opMpyrImm, opMacrImm, State.pairProduct, State.immProduct, product_eq]

/-! ## Shifts -/

theorem testBit_accNat (sa : Bool) (a : AccWord) (k : Nat) : (accNat sa a).testBit k = operandBit sa a k := by
  cases sa <;> rfl

theorem operandBit_zero (sa : Bool) (a : AccWord) : operandBit sa a 0 = a.getLsbD (if sa then 8 else 0) := by
  cases sa
  · rfl
  · show BitVec.getLsbD (_ ++ a.extractLsb' 8 16) 0 = a.getLsbD 8
    rw [BitVec.getLsbD_append]
    simp

/-- An instruction with every flag. -/
theorem exec_outStd {i : Instr} {d : Acc} {r : AccWord × Bool} {c : Bool} (h : outOf s i = some (s.outStd d r c)) :
    ∃ t, exec i s = .next t ∧ (Spares s i d → t.acc d = r.1) ∧ t.srBit 1 = r.2 ∧ t.srBit 0 = c ∧
      FlagsOf s t r.1 ∧ Stickies s t i r.2 :=
  ⟨_, exec_outOf s i _ h, commit_outStd s i d r c i.len⟩

/-- What the sparing of an accumulator and the sticky flags come to without a move. -/
theorem spares_of_no_move {i : Instr} (h : parallelPart i = .none) (d : Acc) : Spares s i d := by
  intro p hp
  rw [h] at hp
  cases hp

theorem stickies_of_no_move {i : Instr} (h : parallelPart i = .none) {t : State} {v : Bool} (hs : Stickies s t i v) :
    t.srBit 6 = (s.srBit 6 || v) ∧ t.srBit 7 = s.srBit 7 := by
  obtain ⟨l, st⟩ := hs
  rw [h] at l st
  exact ⟨l.trans (Bool.or_false _), st.trans (Bool.or_false _)⟩

theorem opAslN_of_fits {n : Nat} (src d : Acc) (h : n ≤ if s.sa then 40 else 55) : opAslN n src d s =
    s.outStd d (wrapped s.sa (s.accSrc src * 2 ^ n), outOfRange s.sa (s.accSrc src * 2 ^ n))
      (n != 0 && operandBit s.sa (s.acc src) (if s.sa then 40 - n else 56 - n)) := by
  have width : accWidth s.sa - n = if s.sa then 40 - n else 56 - n := by unfold accWidth; split <;> rfl
  unfold opAslN
  rw [if_neg (show ¬maxShift s.sa < n from Nat.not_lt.2 h), testBit_accNat, width, outOfRange_eq, wrapped_eq]

theorem opAsrN_of_fits {n : Nat} (src d : Acc) (h : n ≤ if s.sa then 40 else 55) : opAsrN n src d s =
    s.outStd d (wrapped s.sa (s.accSrc src / 2 ^ n), false) (n != 0 && operandBit s.sa (s.acc src) (n - 1)) := by
  unfold opAsrN
  rw [if_neg (show ¬maxShift s.sa < n from Nat.not_lt.2 h), testBit_accNat, wrapped_eq]

theorem outOf_shift {i : Instr} {left : Bool} {n : Nat} {src d : Acc} (h : countedShift s i = some (left, n, src, d))
    (hn : n ≤ if s.sa then 40 else 55) :
    outOf s i = some (s.outStd d
      (wrapped s.sa (if left then s.accSrc src * 2 ^ n else s.accSrc src / 2 ^ n),
        left && outOfRange s.sa (if left then s.accSrc src * 2 ^ n else s.accSrc src / 2 ^ n))
      (n != 0 && operandBit s.sa (s.acc src) (if left then (if s.sa then 40 - n else 56 - n) else n - 1))) ∧
    parallelPart i = .none := by
  cases i <;> simp only [countedShift, reduceCtorEq] at h <;> cases h
  case aslNum => exact ⟨congrArg some (opAslN_of_fits s src d hn), rfl⟩
  case aslBy => exact ⟨congrArg some (opAslN_of_fits s src d hn), rfl⟩
  case asrNum => exact ⟨congrArg some (opAsrN_of_fits s src d hn), rfl⟩
  case asrBy => exact ⟨congrArg some (opAsrN_of_fits s src d hn), rfl⟩

/-! ## Normalization -/

theorem outOfRange_accSrc_ediv (d : Acc) (k : Nat) : outOfRange s.sa (s.accSrc d / 2 ^ k) = false := by
  have pos : (0 : Int) < 2 ^ k := by positivity
  have one : (1 : Int) ≤ 2 ^ k := pos
  have between : ∀ (x b : Int), -b ≤ x → x < b → -b ≤ x / 2 ^ k ∧ x / 2 ^ k < b := by
    intro x b hl hu
    constructor
    · rw [Int.le_ediv_iff_mul_le pos]; nlinarith
    · rw [Int.ediv_lt_iff_lt_mul pos]; nlinarith
  have h40 := between (v40 (s.acc d)).toInt (2 ^ 39) (v40 (s.acc d)).le_toInt (v40 (s.acc d)).toInt_lt
  have h56 := between (s.acc d).toInt (2 ^ 55) (s.acc d).le_toInt (s.acc d).toInt_lt
  unfold outOfRange State.accSrc accInt
  cases s.sa
  · simpa using h56
  · simpa using h40

theorem opNormf_of_fits (d : Acc) {k : Int} (h : if s.sa then -39 ≤ k ∧ k ≤ 40 else -55 ≤ k ∧ k ≤ 56) :
    let x : Int := if 0 ≤ k then s.accSrc d / 2 ^ k.toNat else s.accSrc d * 2 ^ (-k).toNat
    opNormf k d s = s.outNoC d (wrapped s.sa x, outOfRange s.sa x) := by
  have fits : ¬((accWidth s.sa : Int) < k ∨ k < 1 - (accWidth s.sa : Int)) := by
    unfold accWidth
    split at h <;> simp [*]
  intro x
  simp only [opNormf, if_neg fits, x]
  split
  · rw [outOfRange_accSrc_ediv, wrapped_eq]
  · rw [outOfRange_eq, wrapped_eq]

/-- NORM: Rn and the accumulator of its operation. -/
theorem exec_norm (n : Fin 8) (d : Acc) : ∃ t, exec (.norm n d) s = .next t ∧ t.agu.r[n] = s.agu.r[n] + normStep s ∧
    let u := (s.commit (opNorm d s) (s.plan (parallelPart (.norm n d)))).advance 1
    (∀ e, t.acc e = u.acc e) ∧ ∀ k, t.srBit k = u.srBit k := by
  refine ⟨_, rfl, State.r_setR .., ?_⟩
  rw [show parallelPart (.norm n d) = .none from rfl, ← State.commitAlu_eq_commit]
  exact ⟨fun e => by simp, fun _ => rfl⟩

theorem FlagsOf.congr {t u : State} {r : AccWord} (h : ∀ k, t.srBit k = u.srBit k) (hu : FlagsOf s u r) : FlagsOf s t r := by
  obtain ⟨extension, negative, zero⟩ := hu
  refine ⟨?_, (h 3).trans negative, (h 2).trans zero⟩
  cases hs : s.scaling <;> rw [hs] at extension <;> simp only [ExtUnn] at extension ⊢
  all_goals rw [h 5, h 4]; exact extension

/-- What NORM leaves, with the accumulator result and V of the branch taken. -/
theorem exec_norm_result (n : Fin 8) (d : Acc) {r : AccWord × Bool} (h : opNorm d s = s.outNoC d r) :
    ∃ t, exec (.norm n d) s = .next t ∧ t.srBit 0 = s.srBit 0 ∧ t.srBit 6 = (s.srBit 6 || t.srBit 1) ∧ t.srBit 7 = s.srBit 7 ∧
      t.acc d = r.1 ∧ t.agu.r[n] = s.agu.r[n] + normStep s ∧ t.srBit 1 = r.2 ∧ FlagsOf s t r.1 := by
  obtain ⟨t, ht, rn, acc, sr⟩ := exec_norm s n d
  rw [h] at acc sr
  obtain ⟨racc, v, c, flags, sticky⟩ := commit_outNoC s (.norm n d) d r 1
  obtain ⟨l, st⟩ := stickies_of_no_move s rfl sticky
  exact ⟨t, ht, (sr 0).trans c, by rw [sr 6, sr 1, l, v], (sr 7).trans st, (acc d).trans (racc (spares_of_no_move s rfl d)), rn,
    (sr 1).trans v, .congr s sr flags⟩

theorem exec_norm_idle (n : Fin 8) (d : Acc) (h : opNorm d s = opTst d s) :
    ∃ t, exec (.norm n d) s = .next t ∧ t.srBit 0 = s.srBit 0 ∧ t.srBit 6 = (s.srBit 6 || t.srBit 1) ∧ t.srBit 7 = s.srBit 7 ∧
      t.acc d = s.acc d ∧ t.agu.r[n] = s.agu.r[n] + normStep s ∧ t.srBit 1 = false ∧
      FlagsOf s t (wrapped s.sa (s.accSrc d)) := by
  obtain ⟨t, ht, rn, acc, sr⟩ := exec_norm s n d
  rw [h] at acc sr
  obtain ⟨u, hu, flags, v, c, sticky, -, -⟩ := exec_tst s d .none
  cases (exec_outOf s (.tst d .none) (opTst d s) rfl).symm.trans hu
  obtain ⟨l, st⟩ := stickies_of_no_move s rfl sticky
  exact ⟨t, ht, (sr 0).trans c, by rw [sr 6, sr 1]; exact l.trans (congrArg (s.srBit 6 || ·) v.symm), (sr 7).trans st,
    (acc d).trans (s.acc_alone_flags _ _ d), rn, (sr 1).trans v, .congr s sr flags⟩

/-- The CCR decides what NORM does (41_arithmetic_a R268). -/
theorem norm_cases (n : Fin 8) (d : Acc) :
    let f (x : Int) : AccWord × Bool := clipped s false (wrapped s.sa x) false
    ∃ t, exec (.norm n d) s = .next t ∧ t.srBit 0 = s.srBit 0 ∧ t.srBit 6 = (s.srBit 6 || t.srBit 1) ∧ t.srBit 7 = s.srBit 7 ∧
      if s.srBit 5 = false ∧ s.srBit 4 = true ∧ s.srBit 2 = false then
        t.acc d = (f (2 * s.accSrc d)).1 ∧ t.agu.r[n] = s.agu.r[n] - 1 ∧
          t.srBit 1 = (signMoves (s.acc d) || (f (2 * s.accSrc d)).2) ∧ FlagsOf s t (f (2 * s.accSrc d)).1
      else if s.srBit 5 = true then
        t.acc d = (f (s.accSrc d / 2)).1 ∧ t.agu.r[n] = s.agu.r[n] + 1 ∧ t.srBit 1 = (f (s.accSrc d / 2)).2 ∧
          FlagsOf s t (f (s.accSrc d / 2)).1
      else t.acc d = s.acc d ∧ t.agu.r[n] = s.agu.r[n] ∧ t.srBit 1 = false ∧ FlagsOf s t (wrapped s.sa (s.accSrc d)) := by
  intro f
  have left : (!s.srBit 5 && s.srBit 4 && !s.srBit 2) = true ↔ s.srBit 5 = false ∧ s.srBit 4 = true ∧ s.srBit 2 = false := by
    simp [and_assoc]
  by_cases h : s.srBit 5 = false ∧ s.srBit 4 = true ∧ s.srBit 2 = false
  · obtain ⟨t, ht, c, l, st, acc, rn, v, flags⟩ := exec_norm_result s n d
      (r := ((f (2 * s.accSrc d)).1, signMoves (s.acc d) || (f (2 * s.accSrc d)).2))
      (by simp only [opNorm, left, if_pos h, f, clipped_eq, wrapped_eq]; rfl)
    refine ⟨t, ht, c, l, st, ?_⟩
    rw [if_pos h]
    refine ⟨acc, ?_, v, flags⟩
    rw [rn, normStep, if_pos (left.2 h), BitVec.sub_eq_add_neg]
    rfl
  · by_cases h5 : s.srBit 5 = true
    · obtain ⟨t, ht, c, l, st, acc, rn, v, flags⟩ := exec_norm_result s n d (r := f (s.accSrc d / 2))
        (by simp only [opNorm, left, if_neg h, if_pos h5, f, clipped_eq, wrapped_eq])
      refine ⟨t, ht, c, l, st, ?_⟩
      rw [if_neg h, if_pos h5]
      refine ⟨acc, ?_, v, flags⟩
      rw [rn, normStep, if_neg (mt left.1 h), if_pos h5]
    · obtain ⟨t, ht, c, l, st, acc, rn, v, flags⟩ := exec_norm_idle s n d
        (by simp only [opNorm, left, if_neg h, if_neg h5]; rfl)
      refine ⟨t, ht, c, l, st, ?_⟩
      rw [if_neg h, if_neg h5]
      refine ⟨acc, ?_, v, flags⟩
      rw [rn, normStep, if_neg (mt left.1 h), if_neg h5]; exact BitVec.add_zero _

theorem clipped_of_plain (h : s.srBit 20 = false) (rnd : Bool) (r : AccWord) (v : Bool) : clipped s rnd r v = (r, v) := by
  simp [clipped, h]

theorem ofInt_double (a : AccWord) : BitVec.ofInt 56 (2 * a.toInt) = a <<< 1 := by
  apply BitVec.eq_of_toNat_eq
  have := a.isLt
  simp only [BitVec.toNat_ofInt, BitVec.toNat_shiftLeft, BitVec.toInt_eq_toNat_cond, Nat.shiftLeft_eq]
  split <;> omega

theorem ofInt_half (a : AccWord) : BitVec.ofInt 56 (a.toInt / 2) = a.sshiftRight 1 := by
  have h : a.toInt / 2 = (a.sshiftRight 1).toInt := by
    rw [BitVec.toInt_sshiftRight, Int.shiftRight_eq_div_pow]; rfl
  rw [h, BitVec.ofInt_toInt]

/-! ## The division step -/

theorem exec_div (r : XYReg) (d : Acc) :
    let twice := accInt s.sa (wrapped s.sa (2 * s.accSrc d + (if s.srBit 0 then 1 else 0)))
    let sum := wrapped s.sa (if (s.acc d).msb != (s.xy r).msb then twice + s.wordSrc r else twice - s.wordSrc r)
    let v := signMoves (s.acc d) || (clipped s false sum false).2
    ∃ t, exec (.div r d) s = .next t ∧ t.acc d = (clipped s false sum false).1 ∧ t.srBit 0 = !sum.msb ∧ t.srBit 1 = v ∧
      t.srBit 6 = (s.srBit 6 || v) ∧ (∀ k, 2 ≤ k → k ≠ 6 → t.srBit k = s.srBit k) := by
  intro twice sum v
  have out : outOf s (.div r d) = some ⟨d, accAll, (clipped s false sum false).1,
      ⟨0x03#8, ccrByte (!sum.msb) v false false false false⟩⟩ := by
    have carry : ((s.cin : Nat) : Int) = if s.srBit 0 then 1 else 0 := by unfold State.cin; split <;> rfl
    simp only [outOf, opDiv, clipped_eq, carry, v, sum, twice, wrapped_eq]
    rfl
  obtain ⟨b0, b1, -⟩ := ccrByte_bits (!sum.msb) v false false false false
  refine ⟨_, exec_outOf s _ _ out, s.acc_alone_all d _ _ _, ?_, ?_, ?_, fun k hk h6 => ?_⟩
  · exact (s.srBit_alone_written _ _ 0x03#8 rfl (by decide) (by decide)).trans b0
  · exact (s.srBit_alone_written _ _ 0x03#8 rfl (by decide) (by decide)).trans b1
  · exact (s.srBit_alone_L _ _ 0x03#8 rfl (by decide)).trans
      ((congrArg (fun b => s.srBit 6 || ((0x03#8).getLsbD 1 && b)) b1).trans (by simp))
  · exact s.srBit_alone_kept _ _ 0x03#8 rfl h6 (getLsbD_of_small (by decide) hk)

/-- The doubled accumulator with C below it. -/
theorem ofInt_double_with_bit (a : AccWord) (b : Bool) :
    BitVec.ofInt 56 (2 * a.toInt + (if b then 1 else 0)) = (a <<< 1) ||| (BitVec.ofBool b).setWidth 56 := by
  have low : (a <<< 1) &&& (BitVec.ofBool b).setWidth 56 = 0 := by
    apply BitVec.eq_of_getLsbD_eq
    intro i hi
    simp only [BitVec.getLsbD_and, BitVec.getLsbD_shiftLeft, BitVec.getLsbD_setWidth]
    cases i with
    | zero => simp
    | succ i => simp
  rw [← BitVec.add_eq_or_of_and_eq_zero _ _ low, BitVec.ofInt_add, ofInt_double]
  cases b <;> rfl

theorem ofInt_wordInt (w : Word) : BitVec.ofInt 56 (wordInt false w) = (w ++ 0#24 : BitVec 48).signExtend 56 := by
  unfold BitVec.signExtend
  rw [BitVec.toInt_append_zero, Int.mul_comm]
  rfl

end Sys2Proof.Machine
open Sys2Proof Sys2Proof.Machine

/-- Settles O23. -/
theorem products : Obligations.Products :=
  ⟨fun s _ _ _ _ h => exec_outNoC s (outOf_product s h), fun s _ _ _ hm h => exec_outNoC s (outOf_doubleMode s hm h)⟩

/-- Settles O24. -/
theorem rounded_results : Obligations.Rounded_results := fun s _ _ _ h hs => exec_outNoC s (outOf_round s hs h)

/-- Settles O25. -/
theorem arithmetic_shifts : Obligations.Arithmetic_shifts := by
  refine ⟨fun s d m => ⟨?_, ?_⟩, fun s i left n src d h hn => ?_⟩
  · obtain ⟨t, ht, acc, v, c, flags, sticky⟩ := exec_outStd s (i := .asl d m) rfl
    exact ⟨t, ht, acc, c, v, flags, sticky⟩
  · obtain ⟨t, ht, acc, v, c, flags, sticky⟩ := exec_outStd s (i := .asr d m) rfl
    exact ⟨t, ht, acc, c.trans ((testBit_accNat ..).trans (operandBit_zero ..)), v, flags, sticky⟩
  · obtain ⟨out, alone⟩ := outOf_shift s h hn
    obtain ⟨t, ht, acc, v, c, flags, sticky⟩ := exec_outStd s out
    obtain ⟨l, st⟩ := stickies_of_no_move s alone sticky
    exact ⟨t, ht, acc (spares_of_no_move s alone d), c, v, flags, by rw [l, v], st⟩

/-- Settles O26. -/
theorem normalization : Obligations.Normalization := by
  refine ⟨fun s c d => ?_, norm_cases, fun s n d hsa hsm => ?_⟩
  · intro k h x
    obtain ⟨t, ht, acc, v, c, flags, sticky⟩ := exec_outNoC s (i := .normf c d) (congrArg some (opNormf_of_fits s d h))
    obtain ⟨l, -⟩ := stickies_of_no_move s rfl sticky
    exact ⟨t, ht, acc (spares_of_no_move s rfl d), v, c, flags, by rw [l, v]⟩
  · obtain ⟨t, ht, c, l, -, result⟩ := norm_cases s n d
    have src : s.accSrc d = (s.acc d).toInt := by simp [State.accSrc, accInt, hsa]
    have wrap : ∀ x, wrapped s.sa x = BitVec.ofInt 56 x := fun x => by simp [wrapped, hsa]
    simp only [clipped_of_plain s hsm, wrap, src, ofInt_double, ofInt_half, BitVec.ofInt_toInt, Bool.or_false] at result
    refine ⟨t, ht, c, ?_, l, ?_⟩
    · split at result
      · obtain ⟨acc, -, -, flags⟩ := result; rwa [acc]
      · split at result <;> obtain ⟨acc, -, -, flags⟩ := result <;> rwa [acc]
    · split at result
      · obtain ⟨acc, rn, v, -⟩ := result; rw [if_pos ‹_›]; exact ⟨acc, rn, v⟩
      · rw [if_neg ‹_›]
        split at result <;> obtain ⟨acc, rn, v, -⟩ := result
        · rw [if_pos ‹_›]; exact ⟨acc, rn, v⟩
        · rw [if_neg ‹_›]; exact ⟨acc, rn, v⟩

/-- Settles O27. -/
theorem division_step : Obligations.Division_step := by
  refine ⟨exec_div, fun s r d hsa hsm => ?_⟩
  intro shifted divisor result
  obtain ⟨t, ht, acc, c, v, l, kept⟩ := exec_div s r d
  have twice : accInt s.sa (wrapped s.sa (2 * s.accSrc d + (if s.srBit 0 then 1 else 0))) = shifted.toInt := by
    simp only [accInt, wrapped, State.accSrc, hsa, Bool.false_eq_true, if_false, ofInt_double_with_bit, shifted]
  have sum : wrapped s.sa (if (s.acc d).msb != (s.xy r).msb then shifted.toInt + s.wordSrc r else shifted.toInt - s.wordSrc r) =
      result := by
    have word : BitVec.ofInt 56 (s.wordSrc r) = divisor := by unfold State.wordSrc; rw [hsa]; exact ofInt_wordInt _
    rw [show ∀ x, wrapped s.sa x = BitVec.ofInt 56 x from fun x => by simp [wrapped, hsa]]
    simp only [result]
    split
    · rw [BitVec.ofInt_add, BitVec.ofInt_toInt, word]
    · rw [Int.sub_eq_add_neg, BitVec.ofInt_add, BitVec.ofInt_neg, BitVec.ofInt_toInt, word, BitVec.sub_eq_add_neg]
  rw [twice, sum, clipped_of_plain s hsm] at acc v l
  rw [twice, sum] at c
  simp only [Bool.or_false] at v l
  exact ⟨t, ht, acc, c, v, l, kept⟩
end

section
/-!
Moves into registers: the content that lands, and what stays (46_move R440; O8, O10).
-/
namespace Sys2Proof.Machine

variable (s : State)

/-! ## Registers of the five-bit code -/

theorem partFromBus_eq_taken (sa : Bool) (w : Word) : partFromBus sa w = taken sa w := by
  cases sa
  · rfl
  · apply BitVec.eq_of_getLsbD_eq
    intro i hi
    simp only [partFromBus, taken, if_true, BitVec.getLsbD_append, BitVec.getLsbD_extractLsb', BitVec.getLsbD_shiftLeft]
    by_cases h : i < 8
    · simp [h]
    · simp [h, hi]; omega

theorem wrAcc_eq (sa : Bool) (w : Word) : wrAcc sa w = (taken sa w ++ 0#24 : BitVec 48).signExtend 56 := by
  rw [← partFromBus_eq_taken]
  unfold wrAcc
  generalize partFromBus sa w = p
  apply BitVec.eq_of_getLsbD_eq
  intro i hi
  have top : (p ++ 0#24 : BitVec 48).msb = p.msb := by
    rw [BitVec.msb_append]; rfl
  simp only [BitVec.getLsbD_signExtend, top, BitVec.getLsbD_append, hi, decide_true, Bool.true_and]
  by_cases low : i < 24
  · simp [low, show i < 48 by omega]
  · by_cases mid : i < 48
    · simp [low, mid, show i - 24 < 24 by omega]
    · have ones : ∀ j < 8, (0xFF#8).getLsbD j = true := by decide
      have bit := ones (i - 24 - 24) (by omega)
      cases p.msb <;> simp only [low, mid, show ¬i - 24 < 24 by omega, if_true, if_false, Bool.false_eq_true]
      · exact BitVec.getLsbD_zero
      · exact bit

theorem setLsp_low (a : AccWord) (w : Word) : (setLsp a w).extractLsb' 0 24 = w := by
  apply BitVec.eq_of_getLsbD_eq; intro i hi
  simp only [setLsp, BitVec.getLsbD_extractLsb', BitVec.getLsbD_append]
  simp [hi]

theorem setMsp_mid (a : AccWord) (w : Word) : (setMsp a w).extractLsb' 24 24 = w := by
  apply BitVec.eq_of_getLsbD_eq; intro i hi
  simp only [setMsp, BitVec.getLsbD_extractLsb', BitVec.getLsbD_append]
  simp [hi]

theorem setExt_high (a : AccWord) (w : Byte) : (setExt a w).extractLsb' 48 8 = w := by
  apply BitVec.eq_of_getLsbD_eq; intro i hi
  simp only [setExt, BitVec.getLsbD_extractLsb', BitVec.getLsbD_append]
  simp [hi]

theorem low_byte (w : Word) : (w.extractLsb' 0 8).setWidth 56 = (w &&& 0x0000FF#24).setWidth 56 := by
  apply BitVec.eq_of_toNat_eq
  have mask : w.toNat &&& 255 = w.toNat % 256 := Nat.and_two_pow_sub_one_eq_mod _ 8
  have lt := w.isLt
  simp only [BitVec.toNat_setWidth, BitVec.toNat_and, BitVec.extractLsb'_toNat]
  rw [show (0x0000FF#24).toNat = 255 from rfl, mask, Nat.shiftRight_zero]

theorem wrXY_content (q : XYReg) (w : Word) : (s.wrXY q w).xy q = taken s.sa w := by
  rw [← partFromBus_eq_taken]
  unfold State.wrXY
  cases q <;> (dsimp only; split <;> rfl)

/-- What lands in a register of the five-bit code. -/
theorem wrD_content (d : DReg) (w : Word) : (s.wrD d w).content (.d d) = landed s d w := by
  match d with
  | .r n =>
    have h : (s.wrD (.r n) w).agu.r[n] = scMask s.sc w := State.r_setR ..
    exact congrArg (BitVec.setWidth 56) h
  | .n n =>
    have h : (s.wrD (.n n) w).agu.n[n] = scMask s.sc w := by simp [State.wrD]
    exact congrArg (BitVec.setWidth 56) h
  | .alu .x0 => exact congrArg (BitVec.setWidth 56) (wrXY_content s .x0 w)
  | .alu .x1 => exact congrArg (BitVec.setWidth 56) (wrXY_content s .x1 w)
  | .alu .y0 => exact congrArg (BitVec.setWidth 56) (wrXY_content s .y0 w)
  | .alu .y1 => exact congrArg (BitVec.setWidth 56) (wrXY_content s .y1 w)
  | .alu .a => exact wrAcc_eq s.sa w
  | .alu .b => exact wrAcc_eq s.sa w
  | .alu .a0 => exact congrArg (BitVec.setWidth 56) ((setLsp_low ..).trans (partFromBus_eq_taken ..))
  | .alu .b0 => exact congrArg (BitVec.setWidth 56) ((setLsp_low ..).trans (partFromBus_eq_taken ..))
  | .alu .a1 => exact congrArg (BitVec.setWidth 56) ((setMsp_mid ..).trans (partFromBus_eq_taken ..))
  | .alu .b1 => exact congrArg (BitVec.setWidth 56) ((setMsp_mid ..).trans (partFromBus_eq_taken ..))
  | .alu .a2 => exact (congrArg (BitVec.setWidth 56) (setExt_high ..)).trans (low_byte w)
  | .alu .b2 => exact (congrArg (BitVec.setWidth 56) (setExt_high ..)).trans (low_byte w)

theorem wrD_pcu (d : DReg) (w : Word) : (s.wrD d w).pcu = s.pcu := by
  have xy : ∀ q, (s.wrXY q w).pcu = s.pcu := by
    intro q; unfold State.wrXY; cases q <;> (dsimp only; split <;> rfl)
  match d with
  | .r _ => rfl
  | .n _ => rfl
  | .alu .x0 => exact xy .x0
  | .alu .x1 => exact xy .x1
  | .alu .y0 => exact xy .y0
  | .alu .y1 => exact xy .y1
  | .alu .a | .alu .b | .alu .a0 | .alu .b0 | .alu .a1 | .alu .b1 | .alu .a2 | .alu .b2 => rfl

/-! ## Control registers -/

theorem keepHigh_getLsbD (old w : Word) (k : Nat) (hk : k < 24) :
    (s.keepHigh old w).getLsbD k = if s.sc && decide (16 ≤ k) then old.getLsbD k else w.getLsbD k := by
  have high : ∀ k < 24, (0xFF0000#24).getLsbD k = decide (16 ≤ k) := by decide
  have low : ∀ k < 24, (0x00FFFF#24).getLsbD k = decide (k < 16) := by decide
  unfold State.keepHigh low16
  cases s.sc
  · rfl
  · simp only [if_true, BitVec.getLsbD_or, BitVec.getLsbD_and, high k hk, low k hk, Bool.true_and, decide_eq_true_eq]
    by_cases h : 16 ≤ k
    · simp [h, show ¬k < 16 by omega]
    · simp [h, show k < 16 by omega]

theorem srMask_getLsbD : ∀ k < 24, (0xFBEFFF#24).getLsbD k = (k != 18 && k != 12) := by decide

theorem wrC_sr (w : Word) (k : Nat) (hk : k < 24) : (s.wrC .sr w).srBit k =
    (k != 18 && k != 12 && if s.sc && decide (16 ≤ k) then s.srBit k else w.getLsbD k) := by
  show (s.writeSr (s.keepHigh s.pcu.sr w)).pcu.sr.getLsbD k = _
  rw [State.writeSr_sr, BitVec.getLsbD_and, srMask_getLsbD k hk, keepHigh_getLsbD s _ _ k hk, Bool.and_comm]
  rfl

theorem wrC_omr (w : Word) (k : Nat) (hk : k < 24) : (s.wrC .omr w).omrBit k =
    (omrMask.getLsbD k && if s.sc && decide (16 ≤ k) then s.omrBit k else w.getLsbD k) := by
  show (s.writeOmr (s.keepHigh s.pcu.omr w)).pcu.omr.getLsbD k = _
  rw [State.writeOmr_omr, BitVec.getLsbD_and, keepHigh_getLsbD s _ _ k hk, Bool.and_comm]
  rfl

theorem State.ssh_congr {t : State} (high : t.pcu.ssh = s.pcu.ssh) (sp : t.pcu.sp = s.pcu.sp) : t.ssh = s.ssh :=
  congrArg₂ (fun (v : Vector Word 16) (p : Word) => v[(Fin.ofNat 16 p.toNat : Fin 16)]) high sp

/-- SSH as a destination: pushed, with the low half of the location left (10_state R62). -/
theorem pushHigh_landed (v : Word) : (s.pushHigh v).ssh = v ∧ (s.pushHigh v).pcu.ssl = s.pcu.ssl ∧
    (s.sen = true → (s.pushHigh v).pcu.sp = s.pcu.sp + 1) := by
  refine ⟨(State.ssh_congr ((s.spUp.setSsh s.spUp.slot v).withSc (s.pcu.sc + 1)) ?_ ?_).trans ?_, ?_, fun extended => ?_⟩
  · simp [State.pushHigh]
  · simp [State.pushHigh]
  · exact getElem_set_same s.spUp.pcu.ssh s.spUp.slot v
  · simp [State.pushHigh]
  · show ((s.spUp.setSsh s.spUp.slot v).withSc (s.pcu.sc + 1)).afterPush.pcu.sp = s.pcu.sp + 1
    simp [(s.spUp_of_extended extended).1]

theorem control_landed (c : CReg) (w : Word) : ControlLanded s (s.wrC c w) c w := by
  cases c with
  | m n => exact (by simp [State.wrC] : (s.wrC (.m n) w).agu.m[n] = scMask s.sc w)
  | sc =>
    intro plain
    show ((s.withSc (w.extractLsb' 0 5)).balance).pcu.sc = _
    unfold State.balance
    rw [if_neg (by simpa [State.sen, State.omrBit] using plain)]
    rfl
  | sr => exact wrC_sr s w
  | omr => exact wrC_omr s w
  | ssh => exact pushHigh_landed s (scMask s.sc w)
  | ssl => exact ⟨getElem_set_same s.pcu.ssl s.slot (scMask s.sc w), rfl, rfl⟩
  | ep | vba | sz | sp | la | lc => rfl

theorem slot_eq_slotAt : s.slot = slotAt s 0 := by
  rw [Fin.ext_iff, toNat_slot]
  simp [slotAt]
  omega

/-- A move into a control register other than SC and SSH changes the content of no other register. -/
theorem control_content (c : CReg) (w : Word) (hsc : c ≠ .sc) (hssh : c ≠ .ssh) (r : Reg) (h : r ≠ .c c) :
    (s.wrC c w).content r = s.content r := by
  match r with
  | .d (.alu r) => cases r <;> simp [State.content]
  | .d (.r n) => simp [State.content]
  | .d (.n n) => simp [State.content]
  | .c e =>
    cases c with
    | sc => exact absurd rfl hsc
    | ssh => exact absurd rfl hssh
    | sr => cases e <;> simp [State.content, State.wrC]
    | omr => cases e <;> first | exact absurd rfl h | simp [State.content, State.wrC]
    | m n =>
      cases e with
      | m k =>
        have apart : n ≠ k := by rintro rfl; exact h rfl
        exact congrArg (BitVec.setWidth 56) (Vector.getElem_set_ne n.isLt k.isLt (by simpa [Fin.ext_iff] using apart))
      | _ => rfl
    | ep | vba | sz | sp | ssl | la | lc => cases e <;> first | rfl | exact absurd rfl h

/-- What a move into a control register other than SC and SSH leaves. -/
theorem control_kept (c : CReg) (w : Word) (hsc : c ≠ .sc) (hssh : c ≠ .ssh) :
    let t := s.wrC c w
    (∀ r, r ≠ .c c → t.content r = s.content r) ∧ t.mem.x = s.mem.x ∧ t.mem.y = s.mem.y ∧
      (c ≠ .sr → t.mem = s.mem ∧ t.cache = s.cache ∧ t.pcu.sr = s.pcu.sr) ∧ (c ≠ .ssl → StackSame s t) ∧
      (c = .ssl → t.pcu.ssh = s.pcu.ssh ∧ ∀ j : Fin 16, j ≠ slotAt s 0 → t.pcu.ssl[j] = s.pcu.ssl[j]) := by
  refine ⟨control_content s c w hsc hssh, ?_⟩
  cases c with
  | sc => exact absurd rfl hsc
  | ssh => exact absurd rfl hssh
  | sr => simp [State.wrC, StackSame]
  | omr => simp [State.wrC, StackSame]
  | ssl =>
    refine ⟨rfl, rfl, fun _ => ⟨rfl, rfl, rfl⟩, fun h => absurd rfl h, fun _ => ⟨rfl, fun j hj => ?_⟩⟩
    have apart : s.slot ≠ j := by rw [slot_eq_slotAt]; exact Ne.symm hj
    exact (getElem_set_slot ..).trans (if_neg apart.symm)
  | m | ep | vba | sz | sp | la | lc =>
    exact ⟨rfl, rfl, fun _ => ⟨rfl, rfl, rfl⟩, fun _ => ⟨rfl, rfl⟩, fun h => by cases h⟩
end Sys2Proof.Machine
open Sys2Proof Sys2Proof.Machine

/-- Settles O8. -/
theorem data_register_write : Obligations.Data_register_write := fun s d w =>
  ⟨wrD_content s d w, s.content_wrD d w, wrD_pcu s d w, by simp, by simp, by simp⟩

/-- Settles O10. -/
theorem control_register_write : Obligations.Control_register_write := fun s c w =>
  ⟨control_landed s c w, s.wrC_pc c w, control_kept s c w⟩
end

section
/-!
The logical operations, shifts and rotates (43_logical; O28, O29).
-/
namespace Sys2Proof.Machine

variable (s : State)

/-! ## The logical word of an accumulator -/

theorem logicLow_add (sa : Bool) : logicLow sa + logicWidth sa = 48 := by cases sa <;> rfl

theorem testBit_logicAcc (d : Acc) {k : Nat} (hl : logicLow s.sa ≤ k) (hk : k < 48) :
    (s.logicAcc d).testBit (k - logicLow s.sa) = (s.acc d).getLsbD k := by
  unfold State.logicAcc
  cases h : s.sa <;> rw [h] at hl <;> simp only [logicLow, if_true, if_false, Bool.false_eq_true] at hl ⊢ <;>
    rw [BitVec.testBit_toNat, BitVec.getLsbD_extractLsb', Nat.add_sub_cancel' hl] <;> simp <;> omega

theorem testBit_logicWord (sa : Bool) (w : Word) {k : Nat} (hl : logicLow sa ≤ k) (hk : k < 48) :
    (logicWord sa w).testBit (k - logicLow sa) = w.getLsbD (k - 24) := by
  unfold logicWord
  cases sa <;> simp only [logicLow, if_true, if_false, Bool.false_eq_true] at hl ⊢
  · exact BitVec.testBit_toNat _
  · rw [BitVec.testBit_toNat, BitVec.getLsbD_extractLsb', show 8 + (k - 32) = k - 24 by omega]
    simp; omega

theorem logicAcc_lt (d : Acc) : s.logicAcc d < 2 ^ logicWidth s.sa := by
  unfold State.logicAcc logicWidth
  split <;> exact BitVec.isLt _

theorem logicWord_lt (sa : Bool) (w : Word) : logicWord sa w < 2 ^ logicWidth sa := by
  unfold logicWord logicWidth
  split <;> exact BitVec.isLt _

/-- A logical result: N, Z and V, and C where it is written. -/
def logicOut (sa : Bool) (d : Acc) (n : Nat) (m : Byte) (c : Bool) : AluOut :=
  ⟨d, mspMask sa, logicPlace sa n,
    ⟨m, ccrByte c false (n == 0) (decide (2 ^ (logicWidth sa - 1) ≤ n)) false false⟩⟩

theorem outLogic_eq (d : Acc) (n : Nat) : s.outLogic d n = logicOut s.sa d n 0x0E#8 false := rfl

theorem outLogicC_eq (d : Acc) (n : Nat) (c : Bool) : s.outLogicC d n c = logicOut s.sa d n 0x0F#8 c := by
  have carry : ∀ z g : Bool, ccrByte false false z g false false ||| bitAt 8 0 c = ccrByte c false z g false false := by
    intro z g; revert z g c; decide
  simp only [State.outLogicC, logicCcr, carry]
  rfl

theorem mspMask_getLsbD (sa : Bool) : ∀ k < 56, (mspMask sa).getLsbD k = decide (logicLow sa ≤ k ∧ k < 48) := by
  revert sa; decide

theorem logicPlace_getLsbD (sa : Bool) (n : Nat) {k : Nat} (hl : logicLow sa ≤ k) (hk : k < 48) :
    (logicPlace sa n).getLsbD k = n.testBit (k - logicLow sa) := by
  unfold logicPlace
  cases sa <;> simp only [logicLow, if_true, if_false, Bool.false_eq_true] at hl ⊢ <;>
    rw [BitVec.getLsbD_ofNat, Nat.testBit_mul_two_pow, decide_eq_true (by omega : k < 56), decide_eq_true (by omega)] <;> simp

theorem logicResult_getLsbD (sa : Bool) (a : AccWord) (n : Nat) {k : Nat} (hk : k < 56) :
    ((a &&& ~~~mspMask sa) ||| (logicPlace sa n &&& mspMask sa)).getLsbD k =
      if logicLow sa ≤ k ∧ k < 48 then n.testBit (k - logicLow sa) else a.getLsbD k := by
  simp only [BitVec.getLsbD_or, BitVec.getLsbD_and, BitVec.getLsbD_not, mspMask_getLsbD sa k hk, decide_eq_true hk]
  by_cases h : logicLow sa ≤ k ∧ k < 48
  · rw [if_pos h, logicPlace_getLsbD sa n h.1 h.2]; simp [h]
  · rw [if_neg h]; simp [h]

/-! ## SR after a logical operation -/

/-- `f` is the bits of the logical word that hold the number `n`. -/
def WordBits (sa : Bool) (n : Nat) (f : Nat → Bool) : Prop :=
  n < 2 ^ logicWidth sa ∧ ∀ k, logicLow sa ≤ k → k < 48 → f k = n.testBit (k - logicLow sa)

theorem WordBits.top {sa : Bool} {n : Nat} {f : Nat → Bool} (h : WordBits sa n f) :
    f 47 = decide (2 ^ (logicWidth sa - 1) ≤ n) := by
  obtain ⟨lt, bits⟩ := h
  rw [bits 47 (by cases sa <;> decide) (by decide)]
  rw [Nat.testBit_eq_decide_div_mod_eq, decide_eq_decide]
  cases sa <;> simp only [logicWidth, logicLow, if_true, if_false, Bool.false_eq_true] at lt ⊢ <;> omega

theorem WordBits.zero_iff {sa : Bool} {n : Nat} {f : Nat → Bool} (h : WordBits sa n f) :
    (n == 0) = true ↔ ∀ k, logicLow sa ≤ k → k < 48 → f k = false := by
  obtain ⟨lt, bits⟩ := h
  rw [beq_iff_eq]
  constructor
  · rintro rfl k hl hk
    rw [bits k hl hk, Nat.zero_testBit]
  · intro none
    apply Nat.eq_of_testBit_eq
    intro j
    rw [Nat.zero_testBit]
    by_cases hj : j < logicWidth sa
    · have place := logicLow_add sa
      have := none (logicLow sa + j) (by omega) (by omega)
      rwa [bits _ (by omega) (by omega), Nat.add_sub_cancel_left] at this
    · exact Nat.testBit_lt_two_pow (lt.trans_le (Nat.pow_le_pow_right (by decide) (by omega)))

/-- SR after a logical operation. -/
theorem commit_logicFlags (i : Instr) (d : Acc) (n len : Nat) (m : Byte) (c : Bool) (f : Nat → Bool)
    (h : WordBits s.sa n f) (hm : m = 0x0E#8 ∨ m = 0x0F#8) :
    let t := (s.commit (logicOut s.sa d n m c) (s.plan (parallelPart i))).advance len
    LogicFlags s t f ∧ t.srBit 0 = (if m.getLsbD 0 then c else s.srBit 0) ∧ Stickies s t i false := by
  intro t
  obtain ⟨b0, b1, b2, b3, -⟩ := ccrByte_bits c false (n == 0) (decide (2 ^ (logicWidth s.sa - 1) ≤ n)) false false
  have masked : m.getLsbD 1 = true ∧ m.getLsbD 2 = true ∧ m.getLsbD 3 = true ∧ m.getLsbD 4 = false ∧
      m.getLsbD 5 = false ∧ m.getLsbD 6 = false ∧ m.getLsbD 7 = false := by
    rcases hm with rfl | rfl <;> decide
  obtain ⟨m1, m2, m3, m4, m5, m6, m7⟩ := masked
  have low : ∀ k < 6, t.srBit k = if m.getLsbD k then
      (ccrByte c false (n == 0) (decide (2 ^ (logicWidth s.sa - 1) ≤ n)) false false).getLsbD k else s.srBit k :=
    fun k hk => s.srBit_commit_low _ _ len k hk
  refine ⟨⟨?_, ?_, ?_, ?_, ?_⟩, ?_, ?_, ?_⟩
  · rw [low 3 (by decide), m3, if_pos rfl, b3, h.top]
  · rw [low 2 (by decide), m2, if_pos rfl, b2, h.zero_iff]
  · rw [low 1 (by decide), m1, if_pos rfl, b1]
  · rw [low 4 (by decide), m4, if_neg Bool.false_ne_true]
  · rw [low 5 (by decide), m5, if_neg Bool.false_ne_true]
  · rw [low 0 (by decide), b0]
  · have := s.srBit_commit_L (logicOut s.sa d n m c) (s.plan (parallelPart i)) len m6
    rwa [show (logicOut s.sa d n m c).ccr.val.getLsbD 1 = false from b1, Bool.and_false] at this
  · exact s.srBit_commit_S (logicOut s.sa d n m c) (s.plan (parallelPart i)) len m7

/-! ## The accumulator after a logical operation -/

theorem commit_logicWord (i : Instr) (d : Acc) (n len : Nat) (m : Byte) (c : Bool) (f : Nat → Bool)
    (h : WordBits s.sa n f) (hs : Spares s i d) :
    LogicWord s.sa (s.acc d) (((s.commit (logicOut s.sa d n m c) (s.plan (parallelPart i))).advance len).acc d) f := by
  intro k hk
  rw [State.acc_advance, s.acc_commit _ _ _ hs, if_pos (show d = (logicOut s.sa d n m c).dst from rfl)]
  refine (logicResult_getLsbD s.sa (s.acc d) n hk).trans ?_
  split
  · next hk => exact (h.2 k hk.1 hk.2).symm
  · rfl

/-- A part of an accumulator that has no bit of its logical word. -/
theorem part_cases {d : Acc} {r : DReg} (hp : partOf d r = true) (hw : partMask r &&& 0x00FFFFFF000000#56 = 0) :
    (d = .a ∧ (r = .alu .a0 ∨ r = .alu .a2)) ∨ (d = .b ∧ (r = .alu .b0 ∨ r = .alu .b2)) := by
  match r with
  | .r n => exact absurd hp (by cases d <;> simp [partOf])
  | .n n => exact absurd hp (by cases d <;> simp [partOf])
  | .alu e => revert hp hw; cases d <;> cases e <;> decide

/-- A move that writes a part of an accumulator, but none of its logical word, writes nothing else. -/
theorem plan_single (pm : PMove) (d : Acc)
    (h : ∀ p ∈ (s.plan pm).regs, partOf d p.1 = true → partMask p.1 &&& 0x00FFFFFF000000#56 = 0)
    (p : DReg × Word) (hp : p ∈ (s.plan pm).regs) (hd : partOf d p.1 = true) :
    (s.plan pm).regs = [p] ∧ (s.plan pm).twice = none := by
  have whole := part_cases hd (h p hp hd)
  have part : p.1 = .alu .a0 ∨ p.1 = .alu .a2 ∨ p.1 = .alu .b0 ∨ p.1 = .alu .b2 := by
    rcases whole with ⟨-, e | e⟩ | ⟨-, e | e⟩ <;> simp [e]
  have one (q : DReg × Word) (hq : (s.plan pm).regs = [q]) : (s.plan pm).regs = [p] := by
    rw [hq] at hp ⊢
    rw [List.mem_singleton.1 hp]
  have long (l : LongReg) (x y : Word) (hl : (s.plan pm).regs = longWrites l x y) : False := by
    rw [hl] at hp h
    cases l <;> simp only [longWrites, List.mem_cons, List.not_mem_nil, or_false, forall_eq_or_imp, forall_eq] at hp h <;>
      rcases hp with rfl | rfl <;> dsimp only at hd part <;> revert hd h part <;> cases d <;> decide
  cases pm with
  | none => cases hp
  | imm | reg => exact ⟨one _ rfl, rfl⟩
  | upd => cases hp
  | xEa _ w _ | xAa _ w _ | yEa _ w _ | yAa _ w _ =>
    cases w
    · cases hp
    · exact ⟨one _ rfl, rfl⟩
  | xr1 xs s2 d2 w e =>
    cases w <;> simp [State.plan, State.planMem, State.planClass1] at hp
    · subst hp; cases d2 <;> simp [y01Reg] at part
    · rcases hp with rfl | rfl
      · cases xs <;> simp [xSideReg] at part
      · cases d2 <;> simp [y01Reg] at part
  | ry1 s1 d1 ys w e =>
    cases w <;> simp [State.plan, State.planMem, State.planClass1] at hp
    · subst hp; cases d1 <;> simp [x01Reg] at part
    · rcases hp with rfl | rfl
      · cases ys <;> simp [ySideReg] at part
      · cases d1 <;> simp [x01Reg] at part
  | xr2 e w | ry2 e w =>
    simp [State.plan, State.planClass2] at hp
    subst hp
    cases e <;> simp [accReg] at part
  | lEa l w e | lAa l w e =>
    cases w
    · cases hp
    · exact (long l _ _ rfl).elim
  | xy yw ym xs ys xw yn xm xn =>
    cases xw <;> cases yw <;> simp [State.plan, State.planXY, State.planMem] at hp
    · subst hp; cases ys <;> simp [ySideReg] at part
    · subst hp; cases xs <;> simp [xSideReg] at part
    · rcases hp with rfl | rfl
      · cases xs <;> simp [xSideReg] at part
      · cases ys <;> simp [ySideReg] at part

/-- The part of an accumulator outside its logical word that a move writes: the logical word stays. -/
theorem wrD_part_mid {d : Acc} {r : DReg} (w : Word) (hp : partOf d r = true)
    (hw : partMask r &&& 0x00FFFFFF000000#56 = 0) {k : Nat} (h24 : 24 ≤ k) (h48 : k < 48) :
    ((s.wrD r w).acc d).getLsbD k = (s.acc d).getLsbD k := by
  have lsp : ∀ (a : AccWord) (v : Word), (setLsp a v).getLsbD k = a.getLsbD k := by
    intro a v
    simp only [setLsp, BitVec.getLsbD_append, BitVec.getLsbD_extractLsb', show ¬k < 24 by omega, if_false]
    rw [Nat.add_sub_cancel' h24]; simp; omega
  have ext : ∀ (a : AccWord) (v : Byte), (setExt a v).getLsbD k = a.getLsbD k := by
    intro a v
    simp only [setExt, BitVec.getLsbD_append, BitVec.getLsbD_extractLsb', h48, if_true]
    simp
  rcases part_cases hp hw with ⟨rfl, rfl | rfl⟩ | ⟨rfl, rfl | rfl⟩
  · exact lsp _ _
  · exact ext _ _
  · exact lsp _ _
  · exact ext _ _

theorem landed_congr {t : State} (sr : t.pcu.sr = s.pcu.sr) (d : DReg) (w : Word) : landed t d w = landed s d w := by
  have sa : t.sa = s.sa := by simp [State.sa, State.srBit, sr]
  have sc : t.sc = s.sc := by simp [State.sc, State.srBit, sr]
  cases d with
  | alu r => cases r <;> simp only [landed, sa]
  | r n => simp only [landed, sc]
  | n n => simp only [landed, sc]

/-- A logical operation and a move of another part of its accumulator: each does what it does alone. -/
theorem commit_logicParts (i : Instr) (d : Acc) (n len : Nat) (m : Byte) (c : Bool) (f : Nat → Bool)
    (h : WordBits s.sa n f) (hs : SparesWord s i d) :
    let t := (s.commit (logicOut s.sa d n m c) (s.plan (parallelPart i))).advance len
    (∀ k, logicLow s.sa ≤ k → k < 48 → (t.acc d).getLsbD k = f k) ∧
      ∀ p ∈ (s.plan (parallelPart i)).regs, partOf d p.1 = true → t.content (.d p.1) = landed s p.1 p.2 := by
  intro t
  by_cases spared : Spares s i d
  · refine ⟨fun k hl hk => ?_, fun p hp hd => absurd hd (by simp [spared p hp])⟩
    rw [commit_logicWord s i d n len m c f h spared k (by omega), if_pos ⟨hl, hk⟩]
  · simp only [Spares, not_forall, Bool.not_eq_false] at spared
    obtain ⟨p, hp, hd⟩ := spared
    obtain ⟨regs, twice⟩ := plan_single s (parallelPart i) d hs p hp hd
    have apart : mspMask s.sa &&& partMask p.1 = 0 := by
      rcases part_cases hd (hs p hp hd) with ⟨rfl, e | e⟩ | ⟨rfl, e | e⟩ <;> rw [e] <;> cases s.sa <;> decide
    have once : twiceWritten (logicOut s.sa d n m c) (s.plan (parallelPart i)) = none := by
      unfold twiceWritten
      rw [regs, twice]
      simp [logicOut, apart]
    have end_ : t = ((((((s.applyUpds (s.plan (parallelPart i)).upds).commitAcc (logicOut s.sa d n m c)).wrD p.1 p.2)).withCcr
        (orSL (s.plan (parallelPart i)).sTerm (s.plan (parallelPart i)).lTerm
          ((logicOut s.sa d n m c).ccr.apply s.ccr))).applyMems (s.plan (parallelPart i)).mems).advance len := by
      show (s.commit _ _).advance len = _
      unfold State.commit
      dsimp only
      rw [once, regs]
      rfl
    have low := (by cases s.sa <;> decide : 24 ≤ logicLow s.sa)
    constructor
    · intro k hl hk
      rw [end_, State.acc_advance, State.acc_applyMems, State.acc_withCcr,
        wrD_part_mid _ p.2 hd (hs p hp hd) (low.trans hl) hk, State.acc_commitAcc,
        if_pos (show d = (logicOut s.sa d n m c).dst from rfl), State.acc_applyUpds]
      refine (logicResult_getLsbD s.sa (s.acc d) n (by omega)).trans ?_
      rw [if_pos ⟨hl, hk⟩, h.2 k hl hk]
    · intro q hq hdq
      rw [regs, List.mem_singleton] at hq
      subst hq
      rw [end_, State.content_advance, State.content_applyMems, State.content_withCcr, wrD_content]
      exact landed_congr s (by simp) _ _

/-- What the claims say of a logical operation. -/
theorem exec_logic {i : Instr} {d : Acc} {n : Nat} {f : Nat → Bool} (out : outOf s i = some (s.outLogic d n))
    (h : WordBits s.sa n f) :
    ∃ t, exec i s = .next t ∧ (Spares s i d → LogicWord s.sa (s.acc d) (t.acc d) f) ∧
      (SparesWord s i d → (∀ k, logicLow s.sa ≤ k → k < 48 → (t.acc d).getLsbD k = f k) ∧
        ∀ p ∈ (s.plan (parallelPart i)).regs, partOf d p.1 = true → t.content (.d p.1) = landed s p.1 p.2) ∧
      LogicFlags s t f ∧ t.srBit 0 = s.srBit 0 ∧ Stickies s t i false := by
  rw [outLogic_eq] at out
  obtain ⟨flags, carry, sticky⟩ := commit_logicFlags s i d n i.len 0x0E#8 false f h (.inl rfl)
  exact ⟨_, exec_outOf s i _ out, commit_logicWord s i d n i.len _ _ f h, commit_logicParts s i d n i.len _ _ f h, flags,
    carry, sticky⟩

theorem exec_logicC {i : Instr} {d : Acc} {n : Nat} {c : Bool} {f : Nat → Bool} (out : outOf s i = some (s.outLogicC d n c))
    (h : WordBits s.sa n f) :
    ∃ t, exec i s = .next t ∧ (Spares s i d → LogicWord s.sa (s.acc d) (t.acc d) f) ∧
      LogicFlags s t f ∧ t.srBit 0 = c ∧ Stickies s t i false := by
  rw [outLogicC_eq] at out
  obtain ⟨flags, carry, sticky⟩ := commit_logicFlags s i d n i.len 0x0F#8 c f h (.inr rfl)
  exact ⟨_, exec_outOf s i _ out, commit_logicWord s i d n i.len _ _ f h, flags, carry, sticky⟩

/-! ## AND, OR, EOR, NOT -/

theorem outOf_logic {i : Instr} {d : Acc} {f : Nat → Bool} (h : logicTerms s i = some (d, f)) :
    ∃ n, outOf s i = some (s.outLogic d n) ∧ WordBits s.sa n f := by
  have acc := logicAcc_lt s d
  have and (w : Word) : WordBits s.sa (s.logicAcc d &&& logicWord s.sa w)
      (fun k => (s.acc d).getLsbD k && w.getLsbD (k - 24)) :=
    ⟨Nat.and_lt_two_pow _ (logicWord_lt ..), fun k hl hk => by
      rw [Nat.testBit_and, testBit_logicAcc s d hl hk, testBit_logicWord _ w hl hk]⟩
  have or (w : Word) : WordBits s.sa (s.logicAcc d ||| logicWord s.sa w)
      (fun k => (s.acc d).getLsbD k || w.getLsbD (k - 24)) :=
    ⟨Nat.or_lt_two_pow acc (logicWord_lt ..), fun k hl hk => by
      rw [Nat.testBit_or, testBit_logicAcc s d hl hk, testBit_logicWord _ w hl hk]⟩
  have xor (w : Word) : WordBits s.sa (s.logicAcc d ^^^ logicWord s.sa w)
      (fun k => (s.acc d).getLsbD k ^^ w.getLsbD (k - 24)) :=
    ⟨Nat.xor_lt_two_pow acc (logicWord_lt ..), fun k hl hk => by
      rw [Nat.testBit_xor, testBit_logicAcc s d hl hk, testBit_logicWord _ w hl hk]⟩
  have not : WordBits s.sa (2 ^ logicWidth s.sa - 1 - s.logicAcc d) (fun k => !(s.acc d).getLsbD k) := by
    refine ⟨by omega, fun k hl hk => ?_⟩
    have width := logicLow_add s.sa
    rw [show 2 ^ logicWidth s.sa - 1 - s.logicAcc d = 2 ^ logicWidth s.sa - (s.logicAcc d + 1) by omega,
      Nat.testBit_two_pow_sub_succ acc, testBit_logicAcc s d hl hk, decide_eq_true (by omega), Bool.true_and]
  cases i <;> simp only [logicTerms, Option.some.injEq, reduceCtorEq, Prod.mk.injEq] at h <;> obtain ⟨rfl, rfl⟩ := h
  case and r m => exact ⟨_, rfl, and _⟩
  case or r m => exact ⟨_, rfl, or _⟩
  case eor r m => exact ⟨_, rfl, xor _⟩
  case not m => exact ⟨_, rfl, not⟩
  case andShort => exact ⟨_, rfl, and _⟩
  case andImm => exact ⟨_, rfl, and _⟩
  case orShort => exact ⟨_, rfl, or _⟩
  case orImm => exact ⟨_, rfl, or _⟩
  case eorShort => exact ⟨_, rfl, xor _⟩
  case eorImm => exact ⟨_, rfl, xor _⟩

/-! ## Shifts and rotates -/

/-- A word shifted left inside its width. -/
theorem wordBits_left (d : Acc) (n : Nat) :
    WordBits s.sa (s.logicAcc d * 2 ^ n % 2 ^ logicWidth s.sa) (leftBits s.sa (s.acc d) n) := by
  refine ⟨Nat.mod_lt _ (by positivity), fun k hl hk => ?_⟩
  have width := logicLow_add s.sa
  rw [Nat.testBit_mod_two_pow, Nat.testBit_mul_two_pow, decide_eq_true (by omega : k - logicLow s.sa < logicWidth s.sa),
    Bool.true_and]
  unfold leftBits
  by_cases h : logicLow s.sa + n ≤ k
  · rw [decide_eq_true h, decide_eq_true (by omega), ← testBit_logicAcc s d (k := k - n) (by omega) (by omega),
      show k - logicLow s.sa - n = k - n - logicLow s.sa by omega]
  · rw [decide_eq_false h, decide_eq_false (by omega), Bool.false_and, Bool.false_and]

/-- A word shifted right. -/
theorem wordBits_right (d : Acc) (n : Nat) : WordBits s.sa (s.logicAcc d / 2 ^ n) (rightBits (s.acc d) n) := by
  have acc := logicAcc_lt s d
  refine ⟨(Nat.div_le_self ..).trans_lt acc, fun k hl hk => ?_⟩
  have width := logicLow_add s.sa
  rw [Nat.testBit_div_two_pow]
  unfold rightBits
  by_cases h : k + n < 48
  · rw [decide_eq_true h, Bool.true_and, ← testBit_logicAcc s d (k := k + n) (by omega) h,
      show k - logicLow s.sa + n = k + n - logicLow s.sa by omega]
  · rw [decide_eq_false h, Bool.false_and]
    exact (Nat.testBit_lt_two_pow (acc.trans_le (Nat.pow_le_pow_right (by decide) (by omega)))).symm

theorem cin_eq : s.cin = (s.srBit 0).toNat := by unfold State.cin; cases s.srBit 0 <;> rfl

/-- A word rotated left through C. -/
theorem wordBits_rol (d : Acc) : WordBits s.sa (s.logicAcc d * 2 % 2 ^ logicWidth s.sa + s.cin)
    (fun k => if k = logicLow s.sa then s.srBit 0 else (s.acc d).getLsbD (k - 1)) := by
  have width := logicLow_add s.sa
  have pow : 2 ^ logicWidth s.sa = 2 * 2 ^ (logicWidth s.sa - 1) := by
    rw [← pow_succ', Nat.sub_add_cancel (by cases s.sa <;> decide)]
  have bit : (s.srBit 0).toNat < 2 := by cases s.srBit 0 <;> decide
  rw [cin_eq, pow, Nat.mul_comm _ 2, Nat.mul_mod_mul_left]
  have lt := Nat.mod_lt (s.logicAcc d) (by positivity : 0 < 2 ^ (logicWidth s.sa - 1))
  refine ⟨by omega, fun k hl hk => ?_⟩
  dsimp only
  rcases Nat.eq_or_lt_of_le hl with rfl | hlt
  · rw [if_pos rfl, Nat.sub_self, Nat.testBit_zero]
    cases s.srBit 0 <;> simp
  · rw [if_neg hlt.ne', show k - logicLow s.sa = (k - 1 - logicLow s.sa) + 1 by omega, Nat.testBit_succ,
      show ∀ m : Nat, (2 * m + (s.srBit 0).toNat) / 2 = m by intro m; omega, Nat.testBit_mod_two_pow,
      decide_eq_true (by omega), Bool.true_and, testBit_logicAcc s d (by omega) (by omega)]

/-- A word rotated right through C. -/
theorem wordBits_ror (d : Acc) : WordBits s.sa (s.logicAcc d / 2 + s.cin * 2 ^ (logicWidth s.sa - 1))
    (fun k => if k = 47 then s.srBit 0 else (s.acc d).getLsbD (k + 1)) := by
  have width := logicLow_add s.sa
  have wide : 0 < logicWidth s.sa := by cases s.sa <;> decide
  have acc := logicAcc_lt s d
  have pow : 2 ^ logicWidth s.sa = 2 * 2 ^ (logicWidth s.sa - 1) := by rw [← pow_succ', Nat.sub_add_cancel wide]
  have half : s.logicAcc d / 2 < 2 ^ (logicWidth s.sa - 1) := by omega
  rw [cin_eq, Nat.add_comm, Nat.mul_comm]
  refine ⟨by cases s.srBit 0 <;> simp <;> omega, fun k hl hk => ?_⟩
  dsimp only
  rw [Nat.two_pow_add_eq_or_of_lt half, Nat.testBit_or, Nat.mul_comm, Nat.testBit_mul_two_pow]
  by_cases h : k = 47
  · subst h
    rw [if_pos rfl, show 47 - logicLow s.sa = logicWidth s.sa - 1 by omega, Nat.testBit_lt_two_pow half, Nat.sub_self]
    cases s.srBit 0 <;> simp
  · rw [if_neg h, decide_eq_false (by omega : ¬logicWidth s.sa - 1 ≤ k - logicLow s.sa), Bool.false_and, Bool.false_or,
      show s.logicAcc d / 2 = s.logicAcc d / 2 ^ 1 by rw [pow_one], Nat.testBit_div_two_pow,
      show k - logicLow s.sa + 1 = k + 1 - logicLow s.sa by omega, testBit_logicAcc s d (by omega) (by omega)]

theorem opLslN_of_fits {n : Nat} (d : Acc) (h : n ≤ 48 - logicLow s.sa) : opLslN n d s =
    s.outLogicC d (s.logicAcc d * 2 ^ n % 2 ^ logicWidth s.sa) (n != 0 && (s.acc d).getLsbD (48 - n)) := by
  have width := logicLow_add s.sa
  simp only [opLslN, if_neg (show ¬logicWidth s.sa < n by omega)]
  rcases Nat.eq_zero_or_pos n with rfl | pos
  · rfl
  · rw [← testBit_logicAcc s d (k := 48 - n) (by omega) (by omega),
      show 48 - n - logicLow s.sa = logicWidth s.sa - n by omega]

theorem opLsrN_of_fits {n : Nat} (d : Acc) (h : n ≤ 48 - logicLow s.sa) : opLsrN n d s =
    s.outLogicC d (s.logicAcc d / 2 ^ n) (n != 0 && (s.acc d).getLsbD (logicLow s.sa + n - 1)) := by
  have width := logicLow_add s.sa
  simp only [opLsrN, if_neg (show ¬logicWidth s.sa < n by omega)]
  rcases Nat.eq_zero_or_pos n with rfl | pos
  · rfl
  · rw [← testBit_logicAcc s d (k := logicLow s.sa + n - 1) (by omega) (by omega),
      show logicLow s.sa + n - 1 - logicLow s.sa = n - 1 by omega]

theorem outOf_logicalShift {i : Instr} {T : ShiftTerms} (h : shiftTerms s i = some T) (hn : T.count ≤ 48 - logicLow s.sa) :
    ∃ n, outOf s i = some (s.outLogicC T.d n T.carry) ∧ WordBits s.sa n T.bits := by
  have low : logicLow s.sa ≤ 32 := by cases s.sa <;> decide
  have width := logicLow_add s.sa
  have nonzero (v : BitVec 5) : (v != 0) = (v.toNat != 0) := by
    rw [Bool.eq_iff_iff]; simp [← BitVec.toNat_inj]
  cases i <;> simp only [shiftTerms, Option.some.injEq, reduceCtorEq] at h <;> subst h
  case lsl d m => exact ⟨_, congrArg some (opLslN_of_fits s d hn), wordBits_left s d 1⟩
  case lsr d m => exact ⟨_, congrArg some (opLsrN_of_fits s d hn), wordBits_right s d 1⟩
  case lslNum v d => exact ⟨_, congrArg some ((opLslN_of_fits s d hn).trans (by rw [nonzero])), wordBits_left s d _⟩
  case lsrNum v d => exact ⟨_, congrArg some ((opLsrN_of_fits s d hn).trans (by rw [nonzero])), wordBits_right s d _⟩
  case lslBy c d => exact ⟨_, congrArg some (opLslN_of_fits s d hn), wordBits_left s d _⟩
  case lsrBy c d => exact ⟨_, congrArg some (opLsrN_of_fits s d hn), wordBits_right s d _⟩
  case rol d m =>
    refine ⟨_, congrArg some ?_, wordBits_rol s d⟩
    simp only [opRol]
    rw [← testBit_logicAcc s d (k := 47) (by omega) (by omega), show 47 - logicLow s.sa = logicWidth s.sa - 1 by omega]
  case ror d m =>
    refine ⟨_, congrArg some ?_, wordBits_ror s d⟩
    simp only [opRor]
    rw [← testBit_logicAcc s d (k := logicLow s.sa) (by omega) (by omega), Nat.sub_self]

end Sys2Proof.Machine
open Sys2Proof Sys2Proof.Machine

/-- Settles O28. -/
theorem logic : Obligations.Logic := by
  intro s i d f h
  obtain ⟨n, out, bits⟩ := outOf_logic s h
  exact exec_logic s out bits

/-- Settles O29. -/
theorem logical_shifts : Obligations.Logical_shifts := by
  intro s i T h hn
  obtain ⟨n, out, bits⟩ := outOf_logicalShift s h hn
  exact exec_logicC s out bits
end

section
/-!
CLB, MERGE and the bit fields (43_logical; O30, O31), and IFcc (47_program_control; O32).
-/
namespace Sys2Proof.Machine

variable (s : State)

/-! ## Leading bits -/

theorem leadSame_le (n : Nat) (b : Bool) (w : Nat) : leadSame n b w ≤ w := by
  induction w with
  | zero => exact Nat.le_refl 0
  | succ w ih => unfold leadSame; split <;> omega

/-- The number of leading bits is the number of top bits equal to `b` above one that is not. -/
theorem leadSame_eq {n : Nat} {b : Bool} {w c : Nat} (hc : c ≤ w) (same : ∀ k < w, w - c ≤ k → n.testBit k = b)
    (next : c < w → n.testBit (w - 1 - c) ≠ b) : leadSame n b w = c := by
  induction w generalizing c with
  | zero => exact (Nat.le_zero.1 hc).symm
  | succ w ih =>
    unfold leadSame
    cases c with
    | zero =>
      have := next (Nat.succ_pos w)
      rw [if_neg (by simpa using this)]
    | succ c =>
      rw [if_pos (by simpa using same w (by omega) (by omega)), Nat.add_comm 1]
      refine congrArg (· + 1) (ih (by omega) (fun k hk hkc => same k (by omega) (by omega)) fun h => ?_)
      have := next (by omega)
      rwa [show w + 1 - 1 - (c + 1) = w - 1 - c by omega] at this

/-- The result of CLB as a number (43_logical R352). -/
def clbCount (s : State) (src : Acc) : Int :=
  let n := accNat s.sa (s.acc src)
  if n = 0 then 0 else 9 - leadSame n (s.acc src).msb (accWidth s.sa)

theorem clbCount_bounds (src : Acc) : -47 ≤ clbCount s src ∧ clbCount s src ≤ 9 := by
  have le := leadSame_le (accNat s.sa (s.acc src)) (s.acc src).msb (accWidth s.sa)
  have width : accWidth s.sa ≤ 56 := by cases s.sa <;> decide
  unfold clbCount
  dsimp only
  split <;> omega

/-- A small number in the high word of an accumulator: its sign, and whether it is zero. -/
theorem ofInt_high {r : Int} (hl : -47 ≤ r) (hu : r ≤ 9) : (BitVec.ofInt 56 (r * 2 ^ 24)).getLsbD 47 = decide (r < 0) ∧
    (BitVec.ofInt 56 (r * 2 ^ 24) == 0) = (r == 0) := by
  constructor
  · rw [BitVec.getLsbD, BitVec.toNat_ofInt, Nat.testBit_eq_decide_div_mod_eq, decide_eq_decide]
    omega
  · rw [Bool.eq_iff_iff, beq_iff_eq, beq_iff_eq, ← BitVec.toNat_inj, BitVec.toNat_ofInt]
    simp only [BitVec.ofNat_eq_ofNat, BitVec.toNat_ofNat]
    omega

theorem operandWidth_eq (sa : Bool) : operandWidth sa = accWidth sa := by cases sa <;> rfl

theorem operandBit_of_ge (sa : Bool) (a : AccWord) {k : Nat} (h : operandWidth sa ≤ k) : operandBit sa a k = false := by
  cases sa <;> exact BitVec.getLsbD_of_ge _ _ h

theorem exec_clb (src d : Acc) :
    let W := operandWidth s.sa
    let b (k : Nat) : Bool := operandBit s.sa (s.acc src) k
    ∃ t, exec (.clb src d) s = .next t ∧
      ((∀ k < W, b k = false) → t.acc d = 0) ∧
      (∀ c, 1 ≤ c → c ≤ W → (∀ k < W, W - c ≤ k → b k = (s.acc src).msb) → (c < W → b (W - 1 - c) ≠ (s.acc src).msb) →
        (∃ k < W, b k = true) →
        t.acc d = BitVec.ofInt 56 ((9 - c) * 2 ^ 24)) ∧
      t.srBit 3 = (t.acc d).getLsbD 47 ∧ t.srBit 2 = (t.acc d == 0) ∧ t.srBit 1 = false ∧
      (∀ k, (k = 0 ∨ 4 ≤ k) → t.srBit k = s.srBit k) := by
  intro W b
  have bit (k : Nat) : (accNat s.sa (s.acc src)).testBit k = b k := testBit_accNat ..
  obtain ⟨lower, upper⟩ := clbCount_bounds s src
  obtain ⟨sign, zero⟩ := ofInt_high lower upper
  obtain ⟨b0, b1, b2, b3, -⟩ := ccrByte_bits false false (clbCount s src == 0) (decide (clbCount s src < 0)) false false
  let o : AluOut := ⟨d, accAll, BitVec.ofInt 56 (clbCount s src * 2 ^ 24),
    ⟨0x0E#8, ccrByte false false (clbCount s src == 0) (decide (clbCount s src < 0)) false false⟩⟩
  have acc : ((s.commit o (s.plan .none)).advance 1).acc d = BitVec.ofInt 56 (clbCount s src * 2 ^ 24) := s.acc_alone_all d _ _ _
  refine ⟨_, exec_outOf s (.clb src d) o rfl, fun none => ?_, fun c h1 hc same next some => ?_, ?_, ?_, ?_, fun k hk => ?_⟩
  · have empty : accNat s.sa (s.acc src) = 0 := by
      apply Nat.eq_of_testBit_eq
      intro j
      rw [Nat.zero_testBit, bit]
      by_cases hj : j < W
      · exact none j hj
      · exact operandBit_of_ge _ _ (by omega)
    refine acc.trans ?_
    rw [show clbCount s src = 0 by simp only [clbCount, empty, if_true]]
    rfl
  · have count : clbCount s src = 9 - c := by
      obtain ⟨j, -, hj⟩ := some
      have full : accNat s.sa (s.acc src) ≠ 0 := fun e => by
        have := bit j
        rw [e, Nat.zero_testBit, hj] at this
        cases this
      unfold clbCount
      dsimp only
      rw [if_neg full, leadSame_eq (c := c) (by rw [← operandWidth_eq]; exact hc)]
      · intro k hk hkc
        rw [← operandWidth_eq] at hk hkc
        rw [bit]; exact same k hk hkc
      · intro hk
        rw [← operandWidth_eq] at hk ⊢
        rw [bit]; exact next hk
    exact acc.trans (by rw [count])
  · exact (s.srBit_alone_written o 1 0x0E#8 rfl (by decide) (by decide)).trans (b3.trans
      (sign.symm.trans (congrArg (fun v : AccWord => v.getLsbD 47) acc.symm)))
  · exact (s.srBit_alone_written o 1 0x0E#8 rfl (by decide) (by decide)).trans (b2.trans
      (zero.symm.trans (congrArg (fun v : AccWord => v == 0) acc.symm)))
  · exact (s.srBit_alone_written o 1 0x0E#8 rfl (by decide) (by decide)).trans b1
  · by_cases h6 : k = 6
    · subst h6
      exact (s.srBit_alone_L o 1 0x0E#8 rfl (by decide)).trans
        ((congrArg (fun b => s.srBit 6 || ((0x0E#8).getLsbD 1 && b)) b1).trans (by simp))
    · refine s.srBit_alone_kept o 1 0x0E#8 rfl h6 ?_
      rcases hk with rfl | hk
      · decide
      · exact getLsbD_of_small (by decide) hk

/-! ## MERGE -/

/-- A number of two parts, the low one of `w` bits, bit by bit. -/
theorem testBit_parts {h l w : Nat} (hl : l < 2 ^ w) (j : Nat) :
    (h * 2 ^ w + l).testBit j = if w ≤ j then h.testBit (j - w) else l.testBit j := by
  rw [Nat.mul_comm, Nat.two_pow_add_eq_or_of_lt hl, Nat.testBit_or, Nat.mul_comm, Nat.testBit_mul_two_pow]
  by_cases h : w ≤ j
  · rw [if_pos h, decide_eq_true h, Nat.testBit_lt_two_pow (hl.trans_le (Nat.pow_le_pow_right (by decide) h))]
    simp
  · rw [if_neg h, decide_eq_false h]
    simp

theorem parts_lt {h l w : Nat} (hh : h < 2 ^ w) (hl : l < 2 ^ w) : h * 2 ^ w + l < 2 ^ (w + w) := by
  rw [pow_add]; nlinarith

/-- The bits of MERGE's result: the low half of the source above the low half of the word (43_logical R359). -/
def mergeBits (s : State) (c : ShiftSrc) (d : Acc) (k : Nat) : Bool :=
  if s.sa then (if 40 ≤ k then (s.shiftSrc c).getLsbD (k - 32) else (s.acc d).getLsbD k)
  else (if 36 ≤ k then (s.shiftSrc c).getLsbD (k - 36) else (s.acc d).getLsbD k)

theorem wordBits_merge (c : ShiftSrc) (d : Acc) :
    ∃ n, opMerge (s.shiftSrc c) d s = s.outLogic d n ∧ WordBits s.sa n (mergeBits s c d) := by
  unfold opMerge WordBits mergeBits
  cases s.sa
  · refine ⟨_, rfl, parts_lt (BitVec.isLt _) (BitVec.isLt _), fun k hl hk => ?_⟩
    simp only [logicLow, Bool.false_eq_true, if_false] at hl ⊢
    rw [testBit_parts (BitVec.isLt _)]
    by_cases h : 36 ≤ k
    · rw [if_pos h, if_pos (by omega), BitVec.testBit_toNat, BitVec.getLsbD_extractLsb',
        decide_eq_true (by omega), show 0 + (k - 24 - 12) = k - 36 by omega, Bool.true_and]
    · rw [if_neg h, if_neg (by omega), BitVec.testBit_toNat, BitVec.getLsbD_extractLsb',
        decide_eq_true (by omega), Nat.add_sub_cancel' hl, Bool.true_and]
  · refine ⟨_, rfl, parts_lt (BitVec.isLt _) (BitVec.isLt _), fun k hl hk => ?_⟩
    simp only [logicLow, if_true] at hl ⊢
    rw [testBit_parts (BitVec.isLt _)]
    by_cases h : 40 ≤ k
    · rw [if_pos h, if_pos (by omega), BitVec.testBit_toNat, BitVec.getLsbD_extractLsb',
        decide_eq_true (by omega), show 8 + (k - 32 - 8) = k - 32 by omega, Bool.true_and]
    · rw [if_neg h, if_neg (by omega), BitVec.testBit_toNat, BitVec.getLsbD_extractLsb',
        decide_eq_true (by omega), Nat.add_sub_cancel' hl, Bool.true_and]

/-! ## Bit fields -/

theorem accNat_accOfInt (sa : Bool) (x : Int) : accNat sa (accOfInt sa x) = (x % 2 ^ accWidth sa).toNat := by
  cases sa
  · simp [accNat, accOfInt, accWidth, BitVec.toNat_ofInt]
  · simp [accNat, accOfInt, accWidth, v40_pack, BitVec.toNat_ofInt]

/-- A bit of a number that an accumulator holds. -/
theorem operandBit_accOfInt (sa : Bool) (n : Nat) {k : Nat} (hk : k < accWidth sa) :
    operandBit sa (accOfInt sa n) k = n.testBit k := by
  have cast : ((n : Int) % 2 ^ accWidth sa).toNat = n % 2 ^ accWidth sa := by
    rw [show ((2 : Int) ^ accWidth sa) = ((2 ^ accWidth sa : Nat) : Int) by push_cast; rfl, ← Int.natCast_mod, Int.toNat_natCast]
  rw [← testBit_accNat, accNat_accOfInt, cast, Nat.testBit_mod_two_pow, decide_eq_true hk, Bool.true_and]

/-- The bits of an accumulator that Sixteen-bit Arithmetic mode does not use are zero in a result. -/
theorem accOfInt_unused (x : Int) : accOfInt true x &&& 0x000000FF0000FF#56 = 0 := by
  show pack _ &&& _ = _
  generalize BitVec.ofInt 40 x = v
  apply BitVec.eq_of_getLsbD_eq
  intro i hi
  simp only [pack, BitVec.getLsbD_and, BitVec.getLsbD_append, BitVec.getLsbD_extractLsb']
  interval_cases i <;> simp

theorem testBit_fieldOf (n off w k : Nat) : (fieldOf n off w).testBit k = (decide (k < w) && n.testBit (off + k)) := by
  unfold fieldOf
  rw [Nat.testBit_mod_two_pow, Nat.testBit_div_two_pow, Nat.add_comm]

/-- The number a signed field holds, as a pattern with its sign above. -/
theorem accOfInt_signed (sa : Bool) {f w : Nat} (hw : w ≤ accWidth sa) :
    accOfInt sa ((f : Int) - 2 ^ w) = accOfInt sa (((2 ^ (accWidth sa - w) - 1) * 2 ^ w + f : Nat) : Int) := by
  apply accOfInt_congr
  have top : (2 ^ (accWidth sa - w) - 1) * 2 ^ w + 2 ^ w = 2 ^ accWidth sa := by
    rw [← Nat.succ_mul, Nat.succ_eq_add_one, Nat.sub_add_cancel Nat.one_le_two_pow, ← pow_add, Nat.sub_add_cancel hw]
  have sum : (((2 ^ (accWidth sa - w) - 1) * 2 ^ w + f : Nat) : Int) = (f : Int) - 2 ^ w + 2 ^ accWidth sa := by
    have : (((2 ^ (accWidth sa - w) - 1) * 2 ^ w + 2 ^ w : Nat) : Int) = (2 ^ accWidth sa : Nat) := congrArg Nat.cast top
    push_cast at this ⊢
    omega
  rw [sum, Int.add_emod_right]

/-- EXTRACT: the field right-aligned with its sign above, or with zeros. -/
theorem extracted_bits (sa signed : Bool) (n : Nat) {off w : Nat} (hw : off + w ≤ accWidth sa) (pos : signed = true → 0 < w)
    {k : Nat} (hk : k < accWidth sa) :
    operandBit sa (accOfInt sa (if signed && (fieldOf n off w).testBit (w - 1) then ((fieldOf n off w : Nat) : Int) - 2 ^ w
      else (fieldOf n off w : Nat))) k =
    if k < w then n.testBit (off + k) else signed && n.testBit (off + w - 1) := by
  have small : fieldOf n off w < 2 ^ w := Nat.mod_lt _ (by positivity)
  have sign (h : signed = true) : (fieldOf n off w).testBit (w - 1) = n.testBit (off + w - 1) := by
    have := pos h
    rw [testBit_fieldOf, decide_eq_true (by omega), Bool.true_and, show off + (w - 1) = off + w - 1 by omega]
  split
  · next h =>
    obtain ⟨hs, hb⟩ := Bool.and_eq_true_iff.1 h
    rw [accOfInt_signed sa (by omega), operandBit_accOfInt sa _ hk, testBit_parts small]
    by_cases hkw : w ≤ k
    · rw [if_pos hkw, if_neg (by omega), Nat.testBit_two_pow_sub_one, decide_eq_true (by omega), hs, ← sign hs, hb]
      rfl
    · rw [if_neg hkw, if_pos (by omega), testBit_fieldOf, decide_eq_true (by omega), Bool.true_and]
  · next h =>
    rw [operandBit_accOfInt sa _ hk, testBit_fieldOf]
    by_cases hkw : k < w
    · rw [if_pos hkw, decide_eq_true hkw, Bool.true_and]
    · rw [if_neg hkw, decide_eq_false hkw, Bool.false_and]
      cases hs : signed
      · rfl
      · rw [← sign hs]
        exact (by simpa [hs] using h : (fieldOf n off w).testBit (w - 1) = false).symm

/-- INSERT: the field replaced, the bits outside it as before. -/
theorem inserted_bits (n g p w k : Nat) :
    (n - fieldOf n p w * 2 ^ p + g % 2 ^ w * 2 ^ p).testBit k =
      if p ≤ k ∧ k < p + w then g.testBit (k - p) else n.testBit k := by
  have split : n = (n / 2 ^ p / 2 ^ w * 2 ^ w + fieldOf n p w) * 2 ^ p + n % 2 ^ p := by
    unfold fieldOf
    rw [Nat.div_add_mod', Nat.div_add_mod']
  have low : n % 2 ^ p < 2 ^ p := Nat.mod_lt _ (by positivity)
  have new : n - fieldOf n p w * 2 ^ p + g % 2 ^ w * 2 ^ p = (n / 2 ^ p / 2 ^ w * 2 ^ w + g % 2 ^ w) * 2 ^ p + n % 2 ^ p := by
    rw [Nat.add_mul] at split ⊢
    omega
  rw [new, testBit_parts low, testBit_parts (Nat.mod_lt _ (by positivity))]
  by_cases hp : p ≤ k
  · by_cases hw : k < p + w
    · rw [if_pos hp, if_neg (by omega), if_pos ⟨hp, hw⟩, Nat.testBit_mod_two_pow, decide_eq_true (by omega), Bool.true_and]
    · rw [if_pos hp, if_pos (by omega), if_neg (by omega), Nat.testBit_div_two_pow, Nat.testBit_div_two_pow,
        show k - p - w + w + p = k by omega]
  · rw [if_neg hp, if_neg (by omega), Nat.testBit_mod_two_pow, decide_eq_true (by omega), Bool.true_and]

theorem testBit_logicWord_low (sa : Bool) (w : Word) {j : Nat} (h : j < logicWidth sa) :
    (logicWord sa w).testBit j = w.getLsbD (j + if sa then 8 else 0) := by
  have width := logicLow_add sa
  have bit := testBit_logicWord sa w (k := logicLow sa + j) (by omega) (by omega)
  rw [Nat.add_sub_cancel_left] at bit
  rw [bit]
  congr 1
  cases sa
  · simp [logicLow]
  · simp [logicLow]; omega

/-- What the claims say of a bit field instruction, whose result is the number `x`. -/
theorem exec_bitField {i : Instr} {d : Acc} {x : Int} {f : Nat → Bool} (alone : parallelPart i = .none)
    (out : outOf s i = some (s.outStd d (accOfInt s.sa x, false) false))
    (bits : ∀ k < accWidth s.sa, operandBit s.sa (accOfInt s.sa x) k = f k) :
    ∃ t, exec i s = .next t ∧ FlagsOf s t (t.acc d) ∧ t.srBit 1 = false ∧ t.srBit 0 = false ∧ t.srBit 6 = s.srBit 6 ∧
      t.srBit 7 = s.srBit 7 ∧ (s.sa = true → t.acc d &&& 0x000000FF0000FF#56 = 0) ∧
      ∀ k < operandWidth s.sa, operandBit s.sa (t.acc d) k = f k := by
  obtain ⟨t, ht, acc, v, c, flags, sticky⟩ := exec_outStd s out
  obtain ⟨l, st⟩ := stickies_of_no_move s alone sticky
  have acc := acc (spares_of_no_move s alone d)
  refine ⟨t, ht, acc ▸ flags, v, c, l.trans (Bool.or_false _), st, fun sa => ?_, fun k hk => ?_⟩
  · rw [acc, sa]; exact accOfInt_unused x
  · rw [acc]; exact bits k (operandWidth_eq s.sa ▸ hk)

theorem opExtract_of_fits (ctl : Word) (src d : Acc) (signed : Bool)
    (fits : (fieldAt s.sa ctl).1 + (fieldAt s.sa ctl).2 ≤ accWidth s.sa) (pos : signed = true → 0 < (fieldAt s.sa ctl).2) :
    let f := fieldOf (accNat s.sa (s.acc src)) (fieldAt s.sa ctl).1 (fieldAt s.sa ctl).2
    (if signed then opExtract ctl src d s else opExtractu ctl src d s) = s.outStd d (accOfInt s.sa
      (if signed && f.testBit ((fieldAt s.sa ctl).2 - 1) then (f : Int) - 2 ^ (fieldAt s.sa ctl).2 else f), false) false := by
  have off : ctlOffset s.sa ctl = (fieldAt s.sa ctl).1 := by unfold ctlOffset fieldAt; split <;> rfl
  have width : ctlWidth s.sa ctl = (fieldAt s.sa ctl).2 := by unfold ctlWidth fieldAt; split <;> rfl
  cases signed
  · simp only [Bool.false_eq_true, if_false, Bool.false_and, opExtractu, off, width]
    rw [if_neg (by omega)]
  · have := pos rfl
    simp only [if_true, Bool.true_and, opExtract, off, width]
    rw [if_neg (by omega)]

theorem outOf_extraction {i : Instr} {signed : Bool} {ctl : Word} {src d : Acc}
    (h : extraction s i = some (signed, ctl, src, d)) :
    outOf s i = some (if signed then opExtract ctl src d s else opExtractu ctl src d s) ∧ parallelPart i = .none := by
  cases i <;> simp only [extraction, Option.some.injEq, reduceCtorEq, Prod.mk.injEq] at h <;>
    obtain ⟨rfl, rfl, rfl, rfl⟩ := h <;> exact ⟨rfl, rfl⟩

theorem outOf_insertion {i : Instr} {ctl src : Word} {d : Acc} (h : insertion s i = some (ctl, src, d)) :
    outOf s i = some (opInsert ctl src d s) ∧ parallelPart i = .none := by
  cases i <;> simp only [insertion, Option.some.injEq, reduceCtorEq, Prod.mk.injEq] at h <;>
    obtain ⟨rfl, rfl, rfl⟩ := h <;> exact ⟨rfl, rfl⟩

theorem opInsert_of_fits (ctl src : Word) (d : Acc) :
    let bias := if s.sa then 16 else 0
    let p := (fieldAt s.sa ctl).1 - bias
    let w := (fieldAt s.sa ctl).2
    bias ≤ (fieldAt s.sa ctl).1 → w ≤ logicWidth s.sa → p + w ≤ accWidth s.sa →
    opInsert ctl src d s = s.outStd d (accOfInt s.sa
      ((accNat s.sa (s.acc d) - fieldOf (accNat s.sa (s.acc d)) p w * 2 ^ p + logicWord s.sa src % 2 ^ w * 2 ^ p : Nat) : Int),
      false) false := by
  intro bias p w hb hw hp
  have off : ctlOffset s.sa ctl = (fieldAt s.sa ctl).1 := by unfold ctlOffset fieldAt; split <;> rfl
  have width : ctlWidth s.sa ctl = w := by unfold ctlWidth; simp only [w, fieldAt]; split <;> rfl
  simp only [opInsert, off, width]
  rw [if_neg (by omega)]

/-! ## IFcc -/

/-- The operation of an opcode byte is the outcome of the instruction without a move. -/
theorem outOf_alone (op : AluOp) : outOf s (alone op) = some (aluOut op s) ∧ parallelPart (alone op) = .none ∧
    (alone op).len = 1 := by
  cases op <;> exact ⟨rfl, rfl, rfl⟩

theorem exec_alone (op : AluOp) : exec (alone op) s = .next ((s.commitAlu (aluOut op s)).advance 1) := by
  obtain ⟨out, none, one⟩ := outOf_alone s op
  rw [exec_outOf s _ _ out, none, one, ← State.commitAlu_eq_commit]

/-- The accumulator alone written: as with the CCR updated, and SR put back. -/
theorem commitAcc_eq_withSr (o : AluOut) : (s.commitAcc o).advance 1 = ((s.commitAlu o).advance 1).withSr s.pcu.sr := by
  cases h : o.dst <;> simp only [State.commitAcc, State.commitAlu, h] <;> rfl

end Sys2Proof.Machine
open Sys2Proof Sys2Proof.Machine

/-- Settles O30. -/
theorem count_and_merge : Obligations.Count_and_merge := by
  refine ⟨exec_clb, fun s c d => ?_⟩
  intro f
  obtain ⟨n, out, bits⟩ := wordBits_merge s c d
  obtain ⟨t, ht, word, -, flags, carry, sticky⟩ := exec_logic s (i := .merge c d) (congrArg some out) bits
  obtain ⟨l, st⟩ := stickies_of_no_move s rfl sticky
  exact ⟨t, ht, word (spares_of_no_move s rfl d), flags, carry, l.trans (Bool.or_false _), st⟩

/-- Settles O31. -/
theorem bit_fields : Obligations.Bit_fields := by
  refine ⟨fun s i signed ctl src d h => ?_, fun s i ctl src d h => ?_⟩
  · intro off w fits pos
    obtain ⟨out, alone⟩ := outOf_extraction s h
    rw [operandWidth_eq] at fits
    refine exec_bitField s alone (out.trans (congrArg some (opExtract_of_fits s ctl src d signed fits pos))) fun k hk => ?_
    rw [extracted_bits s.sa signed _ fits pos hk, testBit_accNat, testBit_accNat]
  · intro bias off w hb hw hp
    obtain ⟨out, alone⟩ := outOf_insertion s h
    rw [operandWidth_eq] at hp
    have hw : w ≤ logicWidth s.sa := hw
    refine exec_bitField s alone (out.trans (congrArg some (opInsert_of_fits s ctl src d hb hw hp))) fun k hk => ?_
    rw [operandBit_accOfInt s.sa _ hk, inserted_bits, testBit_accNat]
    change (if off ≤ k ∧ k < off + w then (logicWord s.sa src).testBit (k - off) else operandBit s.sa (s.acc d) k) = _
    by_cases h : off ≤ k ∧ k < off + w
    · rw [if_pos h, if_pos h, testBit_logicWord_low _ _ (by omega)]
    · rw [if_neg h, if_neg h]

/-- Settles O32. -/
theorem conditional_operation : Obligations.Conditional_operation := by
  intro s c op
  split
  · next h =>
    refine ⟨?_, _, exec_alone s op, ?_⟩
    · rw [exec_alone]
      exact congrArg (fun t : State => Host.Outcome.next (t.advance 1)) (if_pos h)
    · rw [← commitAcc_eq_withSr]
      exact congrArg (fun t : State => Host.Outcome.next (t.advance 1)) (if_pos h)
  · next h =>
    exact ⟨congrArg (fun t : State => Host.Outcome.next (t.advance 1)) (if_neg h),
      congrArg (fun t : State => Host.Outcome.next (t.advance 1)) (if_neg h)⟩
end

section
/-!
Address arithmetic: linear, reverse-carry and modulo, and the addressing modes that use it (20_memory R116 to R124, R131; O12,
O13).
-/
namespace Sys2Proof.Machine

variable (s : State)

/-! ## Sixteen bits -/

theorem toNat_low16 (w : Word) : (low16 w).toNat = w.toNat % 2 ^ 16 := by
  rw [low16, BitVec.toNat_and, show (0x00FFFF#24).toNat = 2 ^ 16 - 1 from rfl, Nat.and_two_pow_sub_one_eq_mod]

/-- An address register within its sixteen bits passes the check of Sixteen-bit Compatibility mode. -/
theorem inside_sixteen_bits {sc : Bool} {r : Word} (h : sc = true → r.toNat < 2 ^ 16) :
    (sc && r.extractLsb' 16 8 != 0) = false := by
  cases sc with
  | false => rfl
  | true => simpa using extractLsb'_high_of_lt (h rfl)

/-! ## The addressing modes -/

theorem upd_of_some {site : FreeSite} {sub : Nat} {n : Fin 8} {d : Word} {minus : Bool} {a : Word}
    (h : aguStep s.sc s.agu.m[n] s.agu.r[n] d minus = some a) : s.upd site sub n d minus = a := by
  simp only [State.upd, h]

theorem upd_of_none {site : FreeSite} {sub : Nat} {n : Fin 8} {d : Word} {minus : Bool}
    (h : aguStep s.sc s.agu.m[n] s.agu.r[n] d minus = none) :
    s.upd site sub n d minus = scMask s.sc (s.freeWord site sub) := by
  simp only [State.upd, h]

theorem stepped_of_some {n : Fin 8} {d v : Word} {minus : Bool}
    (h : aguStep s.sc s.agu.m[n] s.agu.r[n] d minus = some v) : Stepped s n d minus v := by
  simp only [Stepped, h]

theorem stepped_of_none {n : Fin 8} {d v : Word} {minus : Bool}
    (h : aguStep s.sc s.agu.m[n] s.agu.r[n] d minus = none) (low : s.sc = true → v.toNat < 2 ^ 16) :
    Stepped s n d minus v := by
  simpa only [Stepped, h] using low

theorem scMask_toNat_lt {sc : Bool} (w : Word) (h : sc = true) : (scMask sc w).toNat < 2 ^ 16 := by
  rw [h, scMask, if_pos rfl, toNat_low16]
  exact Nat.mod_lt _ (by decide)

theorem upd_stepped (site : FreeSite) (sub : Nat) (n : Fin 8) (d : Word) (minus : Bool) :
    Stepped s n d minus (s.upd site sub n d minus) := by
  cases h : aguStep s.sc s.agu.m[n] s.agu.r[n] d minus with
  | some a =>
    rw [upd_of_some s h]
    exact stepped_of_some s h
  | none =>
    rw [upd_of_none s h]
    exact stepped_of_none s h (scMask_toNat_lt _)

theorem rnAddr_pointed (site : FreeSite) (n : Fin 8) : Pointed s n (s.rnAddr site n) := by
  intro h
  unfold State.rnAddr
  rw [inside_sixteen_bits h, if_neg Bool.false_ne_true]

theorem updMode_meets (site : FreeSite) (u : UpdMode) (n : Fin 8) : UpdMeets s n (s.updMode site u n) u := by
  cases u <;> exact upd_stepped s site 1 n _ _

theorem ea_meets (e : Ea) : EaMeets s (s.ea e) e := by
  cases e with
  | postDecN n => exact ⟨rnAddr_pointed s .updX n, _, rfl, updMode_meets s .updX .postDecN n⟩
  | postIncN n => exact ⟨rnAddr_pointed s .updX n, _, rfl, updMode_meets s .updX .postIncN n⟩
  | postDec n => exact ⟨rnAddr_pointed s .updX n, _, rfl, updMode_meets s .updX .postDec n⟩
  | postInc n => exact ⟨rnAddr_pointed s .updX n, _, rfl, updMode_meets s .updX .postInc n⟩
  | noUpd n => exact ⟨rnAddr_pointed s .updX n, rfl⟩
  | indexN n => exact ⟨upd_stepped s .updX 0 n _ _, rfl⟩
  | preDec n => exact ⟨upd_stepped s .updX 0 n _ _, rfl⟩
  | abs a => rfl
  | imm w => rfl

theorem eaXY_meets (site : FreeSite) (m : XYMode) (n : Fin 8) : XYMeets s n (s.eaXY site m n) m := by
  cases m with
  | noUpd => exact ⟨rnAddr_pointed s site n, rfl⟩
  | postIncN => exact ⟨rnAddr_pointed s site n, _, rfl, updMode_meets s site .postIncN n⟩
  | postDec => exact ⟨rnAddr_pointed s site n, _, rfl, updMode_meets s site .postDec n⟩
  | postInc => exact ⟨rnAddr_pointed s site n, _, rfl, updMode_meets s site .postInc n⟩

/-! ## Linear arithmetic -/

theorem aguStep_linear (sc : Bool) {m : Word} (r d : Word) (minus : Bool) (hm : m.extractLsb' 0 16 = 0xFFFF#16)
    (hr : sc = true → r.toNat < 2 ^ 16) :
    aguStep sc m r d minus = some (scMask sc (r + if minus then -offsetOf sc d else offsetOf sc d)) := by
  unfold aguStep
  simp only [inside_sixteen_bits hr, hm]
  rfl

theorem upd_linear {n : Fin 8} (hsc : s.sc = false) (hm : s.agu.m[n].extractLsb' 0 16 = 0xFFFF#16) (site : FreeSite) (sub : Nat)
    (d : Word) (minus : Bool) : s.upd site sub n d minus = if minus then s.agu.r[n] - d else s.agu.r[n] + d := by
  have step := aguStep_linear s.sc s.agu.r[n] d minus hm (by simp [hsc])
  rw [upd_of_some s step, hsc]
  cases minus
  · rfl
  · exact (BitVec.sub_eq_add_neg _ _).symm

theorem ea_linear (e : Ea) (hsc : s.sc = false) (hm : ∀ n : Fin 8, s.agu.m[n].extractLsb' 0 16 = 0xFFFF#16) :
    (s.ea e).addr = (linearEa s e).1 ∧ (s.ea e).upd = (linearEa s e).2 := by
  have addr (n : Fin 8) : s.rnAddr .updX n = s.agu.r[n] := rnAddr_pointed s .updX n (by simp [hsc])
  have step (n : Fin 8) := upd_linear s hsc (hm n) .updX
  cases e <;> simp [State.ea, linearEa, State.updMode, addr, step]

/-- A sum cut to sixteen bits. -/
theorem toNat_sum_sixteen (r x : Word) {y : Int} (h : x.toInt ≡ y [ZMOD 2 ^ 16]) :
    ((scMask true (r + x)).toNat : Int) = ((r.toNat : Int) + y) % 2 ^ 16 := by
  have mod : ((r.toNat : Int) + x.toNat) % 2 ^ 16 = ((r.toNat : Int) + y) % 2 ^ 16 :=
    (((toInt_modEq_toNat (k := 16) (by decide) x).symm.trans h).add_left _)
  rw [scMask, if_pos rfl, toNat_low16, BitVec.toNat_add, ← mod]
  omega

/-- Linear arithmetic of sixteen bits. -/
theorem aguStep_linear_sixteen {m r : Word} (d : Word) (minus : Bool) (hm : m.extractLsb' 0 16 = 0xFFFF#16)
    (hr : r.toNat < 2 ^ 16) : aguStep true m r d minus =
      some (BitVec.ofInt 24 ((if minus then (r.toNat : Int) - d.toNat else r.toNat + d.toNat) % 2 ^ 16)) := by
  have pattern : d.toInt ≡ d.toNat [ZMOD 2 ^ 16] := toInt_modEq_toNat (by decide) d
  have offset : (if minus then -offsetOf true d else offsetOf true d).toInt ≡ (if minus then -(d.toNat : Int) else d.toNat)
      [ZMOD 2 ^ 16] := by
    refine (signed_offsetOf_modEq (by decide) true minus d).trans ?_
    cases minus
    · exact pattern
    · exact (toInt_neg_modEq (by decide) d).trans pattern.neg
  have sum := toNat_sum_sixteen r _ offset
  rw [aguStep_linear true r d minus hm fun _ => hr]
  congr 1
  apply BitVec.eq_of_toNat_eq
  rw [BitVec.toNat_ofInt]
  cases minus <;> simp only [Bool.false_eq_true, if_true, if_false] at sum ⊢ <;> omega

/-! ## Reverse-carry arithmetic -/

theorem reverse_reverse (w : Word) : w.reverse.reverse = w := BitVec.reverse_reverse_eq

/-- A word of sixteen bits is one whose reversal has a zero low byte. -/
theorem lt_sixteen_iff (w : Word) : w.toNat < 2 ^ 16 ↔ w.reverse.toNat % 2 ^ 8 = 0 := by
  have bit (i : Nat) (hi : i < 24) : w.reverse.getLsbD i = w.getLsbD (23 - i) := by
    rw [BitVec.getLsbD_reverse, BitVec.getMsbD, decide_eq_true hi, Bool.true_and]
  constructor
  · intro h
    apply Nat.eq_of_testBit_eq
    intro i
    rw [Nat.zero_testBit, Nat.testBit_mod_two_pow]
    by_cases hi : i < 8
    · rw [decide_eq_true hi, Bool.true_and]
      refine (bit i (by omega)).trans (Nat.testBit_lt_two_pow (h.trans_le (Nat.pow_le_pow_right (by decide) (by omega))))
    · rw [decide_eq_false hi, Bool.false_and]
  · intro h
    apply Nat.lt_pow_two_of_testBit
    intro i hi
    by_cases h24 : i < 24
    · have := congrArg (fun n => n.testBit (23 - i)) h
      simp only [Nat.zero_testBit, Nat.testBit_mod_two_pow, decide_eq_true (by omega : 23 - i < 8), Bool.true_and] at this
      have back := bit (23 - i) (by omega)
      rw [show 23 - (23 - i) = i by omega] at back
      exact back.symm.trans this
    · exact BitVec.getLsbD_of_ge w i (by omega)

theorem scMask_lt (w : Word) : (scMask true w).toNat < 2 ^ 16 := by
  rw [scMask, if_pos rfl, toNat_low16]; exact Nat.mod_lt _ (by decide)

/-- In Sixteen-bit Compatibility mode a reverse-carry sum of numbers of sixteen bits is one of sixteen bits. -/
theorem scMask_revStep {sc : Bool} {r : Word} (d : Word) (minus : Bool) (hr : sc = true → r.toNat < 2 ^ 16) :
    scMask sc (revStep r (scMask sc d) minus) = revStep r (scMask sc d) minus := by
  refine scMask_of_lt fun h => ?_
  subst h
  have low := (lt_sixteen_iff r).1 (hr rfl)
  have low' := (lt_sixteen_iff (scMask true d)).1 (scMask_lt d)
  rw [lt_sixteen_iff, revStep, reverse_reverse]
  cases minus
  · simp only [Bool.false_eq_true, if_false, BitVec.toNat_add]; omega
  · simp only [if_true, BitVec.toNat_sub]; omega

theorem aguStep_reverse (sc : Bool) {m r : Word} (d : Word) (minus : Bool) (hm : m.extractLsb' 0 16 = 0#16)
    (hr : sc = true → r.toNat < 2 ^ 16) : aguStep sc m r d minus = some (revStep r (scMask sc d) minus) := by
  rw [← scMask_revStep d minus hr]
  unfold aguStep
  simp only [inside_sixteen_bits hr, hm]
  rfl

/-! ## Modulo arithmetic -/

theorem log2_of_block {mm k : Nat} (lo : mm + 1 ≤ 2 ^ k) (hi : 2 ^ k < 2 * (mm + 1)) (pos : 1 ≤ mm) : Nat.log2 mm + 1 = k := by
  have k0 : 0 < k := by
    rcases Nat.eq_zero_or_pos k with rfl | h
    · omega
    · exact h
  have half : 2 ^ k = 2 * 2 ^ (k - 1) := by rw [← pow_succ', Nat.sub_add_cancel k0]
  have : Nat.log2 mm = k - 1 := by
    rw [Nat.log2_eq_iff (by omega), Nat.sub_add_cancel k0]
    omega
  omega

/-- The modulo step inside its buffer (20_memory R124). -/
theorem moduloStep_inside {mm k : Nat} (r : Word) (x : Int) (block : Nat.log2 mm + 1 = k) (off : r.toNat % 2 ^ k < mm + 1)
    (hx : x.natAbs ≤ mm + 1) : moduloStep mm r x =
      some (BitVec.ofInt 24 (r.toNat - (r.toNat % 2 ^ k : Nat) + ((r.toNat % 2 ^ k : Nat) + x) % (mm + 1 : Nat))) := by
  have le := Nat.mod_le r.toNat (2 ^ k)
  simp only [moduloStep, block]
  rw [if_neg (by omega), if_pos hx]
  congr 2
  generalize r.toNat % 2 ^ k = o at *
  rw [Nat.cast_sub le]
  congr 1
  by_cases above : (mm : Int) < o + x
  · rw [if_pos above, if_neg (by omega)]
    push_cast
    rw [← Int.sub_emod_right, Int.emod_eq_of_lt (by omega) (by omega)]
  · rw [if_neg above]
    by_cases below : (o : Int) + x < 0
    · rw [if_pos below]
      push_cast
      rw [← Int.add_emod_right, Int.emod_eq_of_lt (by omega) (by omega)]
    · rw [if_neg below]
      push_cast
      rw [Int.emod_eq_of_lt (by omega) (by omega)]

/-- The modulo step to another buffer. -/
theorem moduloStep_outside {mm k : Nat} (r : Word) (x : Int) (block : Nat.log2 mm + 1 = k) (off : r.toNat % 2 ^ k < mm + 1)
    (hx : mm + 1 < x.natAbs) (step : x % 2 ^ k = 0) : moduloStep mm r x = some (r + BitVec.ofInt 24 x) := by
  simp only [moduloStep, block]
  rw [if_neg (by omega), if_neg (by omega), if_pos (by exact_mod_cast step)]

theorem aguStep_modulo (sc : Bool) {m r : Word} (d : Word) (minus : Bool) {mm : Nat} (hm : (m.extractLsb' 0 16).toNat = mm)
    (lo : 1 ≤ mm) (hi : mm < 2 ^ 15) (hr : sc = true → r.toNat < 2 ^ 16) : aguStep sc m r d minus =
      (moduloStep mm r (if minus then -offsetOf sc d else offsetOf sc d).toInt).map (scMask sc) := by
  unfold aguStep
  simp only [inside_sixteen_bits hr, hm]
  rw [if_neg Bool.false_ne_true, if_neg (by omega), if_neg (by omega), if_pos (by omega)]

/-- A pointer inside its buffer, below 2^16, stays below 2^16. -/
theorem modulo_lt {M k off t r : Nat} (hM : M ≤ 2 ^ k) (hk : k ≤ 16) (hr : r < 2 ^ 16) (hoff : off = r % 2 ^ k) (ht : t < M) :
    r - off + t < 2 ^ 16 := by
  have split : 2 ^ 16 = 2 ^ k * 2 ^ (16 - k) := by rw [← pow_add, Nat.add_sub_cancel' hk]
  have block : r / 2 ^ k < 2 ^ (16 - k) := Nat.div_lt_of_lt_mul (split ▸ hr)
  have base : r - off = 2 ^ k * (r / 2 ^ k) := by have := Nat.div_add_mod r (2 ^ k); omega
  calc r - off + t
    _ < 2 ^ k * (r / 2 ^ k + 1) := by rw [base, Nat.mul_add]; omega
    _ ≤ 2 ^ 16 := split ▸ Nat.mul_le_mul_left _ block

end Sys2Proof.Machine
open Sys2Proof Sys2Proof.Machine

/-- Settles O12. -/
theorem effective_addresses : Obligations.Effective_addresses := by
  refine ⟨fun s => ⟨ea_meets s, eaXY_meets s, updMode_meets s, fun n d => upd_stepped s .updX 0 n d false⟩,
    fun s e hsc hm => ea_linear s e hsc hm, fun sc m r d hm hr => ?_, fun m r d minus hm hr => aguStep_linear_sixteen d minus hm hr⟩
  intro o
  rw [aguStep_reverse sc d false hm hr, aguStep_reverse sc d true hm hr]
  exact ⟨congrArg some (reverse_reverse _), congrArg some (reverse_reverse _)⟩

/-- Settles O13: the modifier selects `moduloStep`, whose result the cut to sixteen bits leaves as it is inside the buffer. -/
theorem modulo_addresses : Obligations.Modulo_addresses := by
  intro sc m r d minus k hr M lo hi fit small off o x inside
  obtain ⟨mm, hm⟩ : ∃ mm, (m.extractLsb' 0 16).toNat = mm := ⟨_, rfl⟩
  have hM : M = mm + 1 := congrArg (· + 1) hm
  rw [hM] at lo hi fit small inside ⊢
  have block := log2_of_block fit small (by omega)
  have hk : k ≤ 16 := by
    by_contra h
    have := Nat.pow_le_pow_right (n := 2) (by decide) (show 17 ≤ k by omega)
    omega
  have hx : (if minus then -offsetOf sc d else offsetOf sc d).toInt = x := rfl
  rw [aguStep_modulo sc d minus hm (by omega) (by omega) hr, hx]
  constructor
  · intro hx
    rw [moduloStep_inside r _ block inside hx]
    refine congrArg some (scMask_of_lt fun h => ?_)
    have low := Int.emod_nonneg ((off : Int) + x) (b := (mm + 1 : Nat)) (by omega)
    have high := Int.emod_lt_of_pos ((off : Int) + x) (b := (mm + 1 : Nat)) (by omega)
    obtain ⟨t, ht⟩ := Int.eq_ofNat_of_zero_le low
    have le : off ≤ r.toNat := Nat.mod_le ..
    have lt := modulo_lt (t := t) fit hk (hr h) (rfl : off = _) (by omega)
    show (BitVec.ofInt 24 ((r.toNat : Int) - off + ((off : Int) + x) % (mm + 1 : Nat))).toNat < 2 ^ 16
    rw [ht, BitVec.toNat_ofInt]
    omega
  · intro hx step
    rw [moduloStep_outside r _ block inside hx step]
    refine congrArg some (BitVec.eq_of_toNat_eq ?_)
    have sum := toNat_sum_sixteen r (BitVec.ofInt 24 x) (y := x) (by
      rw [BitVec.toInt_ofInt]; exact bmod_two_pow_modEq (by decide) x)
    rw [BitVec.toNat_ofInt]
    cases sc
    · simp only [scMask, Bool.false_eq_true, if_false, BitVec.toNat_add, BitVec.toNat_ofInt]
      omega
    · simp only [if_true]
      omega
end

section
/-!
Every instruction completes but for operands that name nothing, and leaves the processing state and the outside alone but for STOP,
WAIT and DEBUG (60_exceptions, 47_program_control; O59, O60).
-/
namespace Sys2Proof.Machine

variable {s : State}

/-! ## What the operations on the state leave alone -/

/-- The processing state, the JTAG port, the outside world and the counter of free values are as before. -/
structure SameOutside (s t : State) : Prop where
  phase : t.ctl.phase = s.ctl.phase
  jtag : t.jtag = s.jtag
  env : t.env = s.env
  free : t.ctl.freeCtr = s.ctl.freeCtr

/-- The outcome is a next state that leaves those alone. -/
def Completes (s : State) (r : Res) : Prop := ∃ t, r = .next t ∧ SameOutside s t

theorem Completes.next {t : State} (h : SameOutside s t) : Completes s (.next t) := ⟨t, rfl, h⟩

/-- An outcome by a condition. -/
theorem Completes.ite {c : Prop} [Decidable c] {t u : State} (ht : SameOutside s t) (hu : SameOutside s u) :
    Completes s (.next (if c then t else u)) := by
  refine .next ?_
  split
  · exact ht
  · exact hu

theorem SameOutside.refl (s : State) : SameOutside s s := ⟨rfl, rfl, rfl, rfl⟩

theorem SameOutside.trans {t u : State} (h : SameOutside s t) (k : SameOutside t u) : SameOutside s u :=
  ⟨k.phase.trans h.phase, k.jtag.trans h.jtag, k.env.trans h.env, k.free.trans h.free⟩

theorem SameOutside.advance {t : State} (h : SameOutside s t) (n : Nat) : SameOutside s (t.advance n) :=
  h.trans (by constructor <;> simp)

theorem SameOutside.applyUpd {t : State} (h : SameOutside s t) (u : Option (Fin 8 × Word)) : SameOutside s (t.applyUpd u) :=
  h.trans (by constructor <;> simp)

theorem SameOutside.writeData {t : State} (h : SameOutside s t) (sp : Space) (a w : Word) : SameOutside s (t.writeData sp a w) :=
  h.trans (by constructor <;> simp)

theorem SameOutside.writeP {t : State} (h : SameOutside s t) (a w : Word) : SameOutside s (t.writeP a w) :=
  h.trans (by constructor <;> simp)

theorem SameOutside.wrReg {t : State} (h : SameOutside s t) (r : Reg) (w : Word) : SameOutside s (t.wrReg r w) :=
  h.trans (by constructor <;> simp)

theorem SameOutside.rdReg {t : State} (h : SameOutside s t) (r : Reg) : SameOutside s (t.rdReg r).2 :=
  h.trans (by constructor <;> simp)

theorem SameOutside.jump {t : State} (h : SameOutside s t) (a : Word) : SameOutside s (t.jump a) :=
  h.trans (by constructor <;> simp)

theorem SameOutside.call {t : State} (h : SameOutside s t) (n : Nat) (a : Word) : SameOutside s (t.call n a) :=
  h.trans (by constructor <;> simp)

theorem SameOutside.setC {t : State} (h : SameOutside s t) (b : Bool) : SameOutside s (t.setC b) :=
  h.trans (by constructor <;> simp)

theorem SameOutside.push {t : State} (h : SameOutside s t) (a b : Word) : SameOutside s (t.push a b) :=
  h.trans (by constructor <;> simp)

theorem SameOutside.withLc {t : State} (h : SameOutside s t) (v : Word) : SameOutside s (t.withLc v) :=
  h.trans (by constructor <;> simp)

theorem SameOutside.withPc {t : State} (h : SameOutside s t) (v : Word) : SameOutside s (t.withPc v) :=
  h.trans (by constructor <;> simp)

theorem SameOutside.enterLoop {t : State} (h : SameOutside s t) (la : Word) (fv : Bool) : SameOutside s (t.enterLoop la fv) :=
  h.trans (by constructor <;> simp)

theorem SameOutside.leaveLoop {t : State} (h : SameOutside s t) : SameOutside s t.leaveLoop :=
  h.trans (by constructor <;> simp)

theorem SameOutside.withCache {t : State} (h : SameOutside s t) (c : ICache) : SameOutside s (t.withCache c) :=
  h.trans (by constructor <;> simp)

theorem SameOutside.illegal {t : State} (h : SameOutside s t) (n : Nat) : SameOutside s (t.illegal n) :=
  h.trans (by constructor <;> simp)

theorem SameOutside.trap {t : State} (h : SameOutside s t) : SameOutside s t.trap :=
  h.trans (by constructor <;> simp)

theorem SameOutside.commitAcc {t : State} (h : SameOutside s t) (o : AluOut) : SameOutside s (t.commitAcc o) :=
  h.trans (by constructor <;> simp)

theorem SameOutside.commitAlu {t : State} (h : SameOutside s t) (o : AluOut) : SameOutside s (t.commitAlu o) :=
  h.trans (by constructor <;> simp)

theorem SameOutside.bitRead {t : State} (h : SameOutside s t) (o : BitOpd) : SameOutside s (t.bitRead o).st := by
  cases o with
  | mem sp e => exact h.applyUpd _
  | io sp a => exact h
  | reg r => exact h.rdReg r

theorem SameOutside.bitWrite {t : State} (h : SameOutside s t) (o : BitOpd) (a w : Word) : SameOutside s (t.bitWrite o a w) := by
  cases o with
  | mem sp e => exact h.writeData ..
  | io sp a => exact h.writeData ..
  | reg r => exact h.wrReg r w

theorem SameOutside.pop {t : State} (h : SameOutside s t) : SameOutside s t.pop :=
  h.trans (by constructor <;> simp)

theorem SameOutside.writeSr {t : State} (h : SameOutside s t) (v : Word) : SameOutside s (t.writeSr v) :=
  h.trans (by constructor <;> simp)

theorem SameOutside.writeOmr {t : State} (h : SameOutside s t) (v : Word) : SameOutside s (t.writeOmr v) :=
  h.trans (by constructor <;> simp)

theorem SameOutside.controlByte {t : State} (h : SameOutside s t) (f : Word → Word → Word) (w : Word) (e : PcuByte) :
    SameOutside s (controlByte f w e t) := by
  cases e with
  | mr => exact h.writeSr _
  | ccr => exact h.writeSr _
  | com => exact h.writeOmr _
  | eom => exact h.writeOmr _

theorem SameOutside.resetPeripherals {t : State} (h : SameOutside s t) : SameOutside s t.resetPeripherals :=
  ⟨h.phase, h.jtag, h.env, h.free⟩

theorem SameOutside.withRep {t : State} (h : SameOutside s t) (r : Option Rep) :
    SameOutside s { t with ctl := { t.ctl with rep := r } } := ⟨h.phase, h.jtag, h.env, h.free⟩

/-! ## The shared meanings -/

theorem jumpIf_completes (c : Cond) (a : Word) (n : Nat) : Completes s (jumpIf c a n s) :=
  .ite ((SameOutside.refl s).jump a) ((SameOutside.refl s).advance n)

theorem callIf_completes (c : Cond) (a : Word) (n : Nat) : Completes s (callIf c a n s) :=
  .ite ((SameOutside.refl s).call n a) ((SameOutside.refl s).advance n)

theorem jumpEaIf_completes (take : Bool) (e : Ea) : Completes s (jumpEaIf take e s) :=
  .ite (((SameOutside.refl s).applyUpd _).jump _) (((SameOutside.refl s).applyUpd _).advance _)

theorem callEaIf_completes (take : Bool) (e : Ea) : Completes s (callEaIf take e s) :=
  .ite (((SameOutside.refl s).applyUpd _).call _ _) (((SameOutside.refl s).applyUpd _).advance _)

theorem startLoop_completes (src : State → Word × State) (hs : ∀ t, SameOutside s t → SameOutside s (src t).2) (la : Word) :
    Completes s (startLoop src la s) := by
  have inside := ((hs _ ((SameOutside.refl s).push s.pcu.la s.pcu.lc)).withLc (src (s.push s.pcu.la s.pcu.lc)).1).enterLoop la false
  simp only [startLoop]
  split
  · exact .next (inside.leaveLoop.withPc _)
  · exact .next (inside.advance 2)

theorem startForever_completes (la : Word) : Completes s (startForever la s) :=
  .next ((((SameOutside.refl s).push _ _).enterLoop la true).advance 2)

theorem startRep_completes (r : Word × State) (h : SameOutside s r.2) : Completes s (startRep r s) := by
  simp only [startRep]
  split
  · exact .next (h.advance 2)
  · exact .next (((h.advance 1).withLc r.1).withRep _)

theorem cacheCommand_completes (f : ICache → ICache) (n : Nat) : Completes s (cacheCommand f n s) := by
  unfold cacheCommand
  split
  · exact .next (((SameOutside.refl s).withCache _).advance n)
  · exact .next ((SameOutside.refl s).illegal n)

theorem lockEa_completes (b : Bool) (e : Ea) : Completes s (lockEa b e s) := by
  unfold lockEa
  split
  · exact .next ((((SameOutside.refl s).applyUpd _).withCache _).advance _)
  · exact .next ((SameOutside.refl s).illegal _)

theorem moveRegs_completes (src dst : Reg) : Completes s (moveRegs src dst s) :=
  .next ((((SameOutside.refl s).rdReg src).wrReg dst _).advance 1)

theorem movePeripheral_completes (ps : Space) (io : Word) (w : Dir) (sp : Space) (e : Ea) :
    Completes s (movePeripheral ps io w sp e s) := by
  cases w <;> exact .next ((((SameOutside.refl s).applyUpd _).writeData _ _ _).advance _)

theorem movePeripheralP_completes (ps : Space) (io : Word) (w : Dir) (e : Ea) : Completes s (movePeripheralP ps io w e s) := by
  cases w
  · exact .next ((((SameOutside.refl s).applyUpd _).writeP _ _).advance _)
  · exact .next ((((SameOutside.refl s).applyUpd _).writeData _ _ _).advance _)

theorem storeViterbi_completes (d : Acc) (i : Bool) (e : Ea) : Completes s (storeViterbi d i e s) :=
  .next (((((SameOutside.refl s).applyUpd _).writeData _ _ _).writeData _ _ _).advance _)

theorem runIf_completes (c : Cond) (op : State → AluOut) : Completes s (runIf c op s) := by
  refine .next (SameOutside.advance ?_ 1)
  split
  · exact (SameOutside.refl s).commitAcc _
  · exact .refl s

theorem runIfU_completes (c : Cond) (op : State → AluOut) : Completes s (runIfU c op s) := by
  refine .next (SameOutside.advance ?_ 1)
  split
  · exact (SameOutside.refl s).commitAlu _
  · exact .refl s

/-! ## Families of instructions -/

theorem dests_completes {i : Instr} {l : List Reg} (h : dests i = some l) : Completes s (exec i s) := by
  obtain ⟨t, ht, -, frame⟩ := frame_of_dests s i l h
  obtain ⟨phase, -, -, free⟩ := frame.control
  exact ⟨t, ht, phase, frame.outside.1, frame.outside.2, free⟩

theorem put_outside {t : State} (h : SameOutside s t) (v : Word) (l : Loc) : SameOutside s (l.put t v) := by
  cases l with
  | data sp a => exact h.writeData sp a v
  | prog a => exact h.writeP a v
  | word w => exact h

theorem transfer_completes {i : Instr} {T : Transfer} (h : transfer s i = some T) : Completes s (exec i s) := by
  rw [exec_of_transfer h]
  refine .next (SameOutside.advance ?_ _)
  unfold Transfer.done
  split
  · exact ((SameOutside.refl s).applyUpd _).wrReg _ _
  · exact put_outside (((SameOutside.refl s).rdReg _).applyUpd _) _ _

/-- A bit instruction completes, but for a bit number that names no bit. -/
theorem bitUse_run (u : BitUse) (len : Nat) : match s.badBit u.n with
    | some r => u.run len s = .refused r
    | none => Completes s (u.run len s) := by
  have read := (SameOutside.refl s).bitRead u.opd
  unfold BitUse.run
  cases hb : s.badBit u.n with
  | some r => cases u.eff <;> simp [bitModify, bitTest, bitJump, bitCall, hb]
  | none =>
    cases u.eff with
    | change f =>
      simp only [bitModify, hb]
      refine .next (SameOutside.advance ?_ len)
      split
      · exact read.bitWrite u.opd _ _
      · exact (read.bitWrite u.opd _ _).setC _
    | test => simp only [bitTest, hb]; exact .next ((read.setC _).advance len)
    | jump want a => simp only [bitJump, hb]; exact .ite (read.jump a) (read.advance 2)
    | call want a => simp only [bitCall, hb]; exact .ite (read.call 2 a) (read.advance 2)

theorem bitUse_completes {i : Instr} {u : BitUse} (h : bitUse s i = some u) :
    (∃ r, s.badBit u.n = some r ∧ exec i s = .refused r) ∨ s.badBit u.n = none ∧ Completes s (exec i s) := by
  have run := bitUse_run (s := s) u i.len
  rw [exec_of_bitUse h]
  cases hb : s.badBit u.n with
  | some r => rw [hb] at run; exact .inl ⟨r, rfl, run⟩
  | none => rw [hb] at run; exact .inr ⟨rfl, run⟩

theorem countEa_outside (sp : Space) (e : Ea) (t : State) (h : SameOutside s t) : SameOutside s (countEa sp e t).2 := h.applyUpd _

/-- Every other instruction. -/
theorem other_completes (i : Instr) (hd : dests i = none) (hb : bitUse s i = none) (ht : transfer s i = none)
    (hp : changesPhase i = false) (hssh : ∀ la, i ≠ .doReg (.c .ssh) la ∧ i ≠ .dorReg (.c .ssh) la) : Completes s (exec i s) := by
  have here := SameOutside.refl s
  cases i <;> simp only [dests, bitUse, transfer, changesPhase, reduceCtorEq] at hd hb ht hp
  case reservedA => exact .next (here.illegal 1)
  case reservedB => exact .next (here.illegal 1)
  case ifcc => exact runIf_completes _ _
  case ifccU => exact runIfU_completes _ _
  case andi => exact .next ((here.controlByte ..).advance 1)
  case ori => exact .next ((here.controlByte ..).advance 1)
  case bccLong => exact jumpIf_completes ..
  case bccShort => exact jumpIf_completes ..
  case bccReg => exact jumpIf_completes ..
  case braLong => exact .next (here.jump _)
  case braShort => exact .next (here.jump _)
  case braReg => exact .next (here.jump _)
  case brkcc => exact .ite (here.leaveLoop.withPc _) (here.advance 1)
  case bsccLong => exact callIf_completes ..
  case bsccShort => exact callIf_completes ..
  case bsccReg => exact callIf_completes ..
  case bsrLong => exact .next (here.call _ _)
  case bsrShort => exact .next (here.call _ _)
  case bsrReg => exact .next (here.call _ _)
  case doEa => exact startLoop_completes _ (countEa_outside _ _) _
  case doAa => exact startLoop_completes _ (fun _ h => h) _
  case doNum => exact startLoop_completes _ (fun _ h => h) _
  case dorEa => exact startLoop_completes _ (countEa_outside _ _) _
  case dorAa => exact startLoop_completes _ (fun _ h => h) _
  case dorNum => exact startLoop_completes _ (fun _ h => h) _
  case doReg r la =>
    have : r ≠ .c .ssh := fun e => (hssh la).1 (by rw [e])
    show Completes s (if r = .c .ssh then _ else _)
    rw [if_neg this]
    exact startLoop_completes _ (fun _ h => h.rdReg r) _
  case dorReg r la =>
    have : r ≠ .c .ssh := fun e => (hssh la).2 (by rw [e])
    show Completes s (if r = .c .ssh then _ else _)
    rw [if_neg this]
    exact startLoop_completes _ (fun _ h => h.rdReg r) _
  case repEa => exact startRep_completes _ (here.applyUpd _)
  case repAa => exact startRep_completes _ here
  case repNum => exact startRep_completes _ here
  case repReg => exact startRep_completes _ (here.rdReg _)
  case doForever => exact startForever_completes _
  case dorForever => exact startForever_completes _
  case jccShort => exact jumpIf_completes ..
  case jccEa => exact jumpEaIf_completes ..
  case jmpShort => exact .next (here.jump _)
  case jmpEa => exact jumpEaIf_completes ..
  case jsccShort => exact callIf_completes ..
  case jsccEa => exact callEaIf_completes ..
  case jsrShort => exact .next (here.call _ _)
  case jsrEa => exact callEaIf_completes ..
  case movecReg w r c => cases w <;> exact moveRegs_completes ..
  case movecImm i c => exact .next ((here.wrReg (.c c) _).advance 1)
  case movepPpEa => exact movePeripheral_completes ..
  case movepXqqEa => exact movePeripheral_completes ..
  case movepYqqEa => exact movePeripheral_completes ..
  case movepPpP => exact movePeripheralP_completes ..
  case movepQqP => exact movePeripheralP_completes ..
  case plock => exact lockEa_completes ..
  case plockr => exact cacheCommand_completes (fun c => c.setLock (s.opRelative 2 _) true) 2
  case punlock => exact lockEa_completes ..
  case punlockr => exact cacheCommand_completes (fun c => c.setLock (s.opRelative 2 _) false) 2
  case trapcc => exact .ite here.trap (here.advance 1)
  case vsl => exact storeViterbi_completes ..
  case enddo => exact .next (here.leaveLoop.advance 1)
  case illegal => exact .next (here.illegal 1)
  case nop => exact .next (here.advance 1)
  case pflush => exact cacheCommand_completes ..
  case pflushun => exact cacheCommand_completes ..
  case pfree => exact cacheCommand_completes (fun c => { c with lock := 0 }) 1
  case reset => exact .next (here.resetPeripherals.advance 1)
  case rti => exact .next ((here.pop.writeSr _).jump _)
  case rts => exact .next (here.pop.jump _)
  case trap => exact .next here.trap

theorem State.endHalt_outside : s.endHalt.jtag = s.jtag ∧ s.endHalt.env = s.env ∧ s.endHalt.ctl.freeCtr = s.ctl.freeCtr := by
  unfold State.endHalt
  split <;> exact ⟨rfl, rfl, rfl⟩

theorem State.enterDebug_outside (c : BitVec 3) : (s.enterDebug c).jtag = s.jtag ∧ (s.enterDebug c).env = s.env ∧
    (s.enterDebug c).ctl.freeCtr = s.ctl.freeCtr := by
  unfold State.enterDebug
  split
  · exact ⟨rfl, rfl, rfl⟩
  · split <;> exact s.endHalt_outside

/-- STOP, WAIT, DEBUG and DEBUGcc complete too, and leave the outside alone. -/
theorem phase_completes (i : Instr) (hp : changesPhase i = true) :
    ∃ t, exec i s = .next t ∧ t.jtag = s.jtag ∧ t.env = s.env ∧ t.ctl.freeCtr = s.ctl.freeCtr := by
  have debug : s.debugCall.jtag = s.jtag ∧ s.debugCall.env = s.env ∧ s.debugCall.ctl.freeCtr = s.ctl.freeCtr :=
    (s.advance 1).enterDebug_outside _
  cases i <;> simp only [changesPhase, Bool.false_eq_true] at hp
  case stop => exact ⟨_, rfl, rfl, rfl, rfl⟩
  case wait => refine ⟨_, rfl, ?_⟩; split <;> exact ⟨rfl, rfl, rfl⟩
  case debug => exact ⟨_, rfl, debug⟩
  case debugcc => refine ⟨_, rfl, ?_⟩; split <;> [exact debug; exact ⟨rfl, rfl, rfl⟩]

theorem exec_completes (i : Instr) (hb : ∀ u, bitUse s i = some u → s.badBit u.n = none) (hp : changesPhase i = false)
    (hssh : ∀ la, i ≠ .doReg (.c .ssh) la ∧ i ≠ .dorReg (.c .ssh) la) : Completes s (exec i s) := by
  cases hd : dests i with
  | some l => exact dests_completes hd
  | none =>
    cases hu : bitUse s i with
    | some u =>
      rcases bitUse_completes hu with ⟨r, bad, -⟩ | ⟨-, h⟩
      · rw [hb u hu] at bad; cases bad
      · exact h
    | none =>
      cases ht : transfer s i with
      | some T => exact transfer_completes ht
      | none => exact other_completes i hd hu ht hp hssh

theorem exec_ssh_count (la : Word) : exec (.doReg (.c .ssh) la) s = .refused .loopCountFromSsh ∧
    exec (.dorReg (.c .ssh) la) s = .refused .loopCountFromSsh := ⟨rfl, rfl⟩

end Sys2Proof.Machine
open Sys2Proof Sys2Proof.Machine

/-- Settles O59. -/
theorem processing_state : Obligations.Processing_state := by
  intro s t i h
  cases hp : changesPhase i with
  | true =>
    obtain ⟨u, hu, outside⟩ := phase_completes (s := s) i hp
    cases h.symm.trans hu
    exact ⟨(by cases ·), outside⟩
  | false =>
    have complete : Completes s (exec i s) := by
      refine exec_completes i (fun u hu => ?_) hp fun la => ⟨?_, ?_⟩
      · rcases bitUse_completes hu with ⟨r, -, bad⟩ | ⟨good, -⟩
        · cases h.symm.trans bad
        · exact good
      · rintro rfl; cases h.symm.trans (exec_ssh_count la).1
      · rintro rfl; cases h.symm.trans (exec_ssh_count la).2
    obtain ⟨u, hu, same⟩ := complete
    cases h.symm.trans hu
    exact ⟨fun _ => same.phase, same.jtag, same.env, same.free⟩

/-- Settles O60. -/
theorem completion : Obligations.Completion := by
  refine ⟨fun s i hb hssh => ?_, fun s i u hu => ⟨fun h => ?_, fun h16 h24 sa => ?_⟩, fun s la => exec_ssh_count la⟩
  · cases hp : changesPhase i with
    | true => obtain ⟨t, ht, -⟩ := phase_completes (s := s) i hp; exact ⟨t, ht⟩
    | false =>
      obtain ⟨t, ht, -⟩ := exec_completes i (fun u hu => badBit_of_numbered (hb u hu)) hp hssh
      exact ⟨t, ht⟩
  · have bad : s.badBit u.n = some .noSuchBit := if_pos h
    rcases bitUse_completes hu with ⟨r, hr, run⟩ | ⟨good, -⟩
    · cases bad.symm.trans hr; exact run
    · cases bad.symm.trans good
  · have bad : s.badBit u.n = some .noSuchBitInSixteenBitMode := by
      unfold State.badBit
      rw [if_neg (by omega), if_pos (by simp [sa, h16])]
    rcases bitUse_completes hu with ⟨r, hr, run⟩ | ⟨good, -⟩
    · cases bad.symm.trans hr; exact run
    · cases bad.symm.trans good
end

section
/-!
STOP that the debug host injects (47_program_control R496, 61_debug R641; O48).
-/
namespace Sys2Proof.Machine

/-- STOP leaves the Debug state before the PC moves on, so the PC, frozen for an instruction the debug host injects, does not stay
frozen for this one. -/
theorem exec_stop_pc {s : State} (ctx : s.ctl.ctx = none) : ∃ t, exec .stop s = .next t ∧ t.pcu.pc = s.pcu.pc + 1 := by
  have running : (s.clearTriggers.withPhase .stop).frozen = false := by
    have noCtx : (s.clearTriggers.withPhase .stop).ctl.ctx = none := ctx
    rw [State.frozen, noCtx]
    rfl
  refine ⟨_, rfl, ?_⟩
  show State.nextPc _ 1 = _
  rw [State.nextPc, running]
  rfl

/-- The PC is frozen for an instruction that the debug host injects. -/
theorem State.advance_pc_of_debug {s : State} (h : s.ctl.phase = .debug) (n : Nat) : (s.advance n).pcu.pc = s.pcu.pc := by
  show s.nextPc n = _
  rw [State.nextPc, if_pos (by simp [State.frozen, h])]

end Sys2Proof.Machine
open Sys2Proof Sys2Proof.Machine

/-- Refutes O48. Its clause on STOP has the PC as `advance` leaves it, which in the Debug state, where the debug host injects STOP, is
the frozen PC of the halted program; but the model's STOP has left the Debug state when it moves the PC on: in the reset state put into
the Debug state, the PC counts up by one. -/
theorem not_system_instructions : ¬ Obligations.System_instructions := by
  intro h
  obtain ⟨-, -, -, -, ⟨t, run, -, pcu, -⟩, -⟩ := h (State.reset.withPhase .debug)
  obtain ⟨u, stopped, moved⟩ := exec_stop_pc (s := State.reset.withPhase .debug) rfl
  cases run.symm.trans stopped
  have kept : t.pcu.pc = (State.reset.withPhase .debug).pcu.pc := by rw [pcu]; exact State.advance_pc_of_debug rfl 1
  exact absurd (moved.symm.trans kept) (by simp)
end

section
/-!
A step runs the instruction that its bytes at the PC decode to (30_encoding section 3, 45_loop, 60_exceptions R569; O51).
-/
namespace Sys2Proof.Machine

variable {s : State}

/-! ## What surrounds an instruction -/

/-- The external port, the DMA, the cache, the processing state and the pending flags are the same. -/
def SameRest (s u : State) : Prop :=
  u.port = s.port ∧ u.dma = s.dma ∧ u.cache = s.cache ∧ u.ctl.phase = s.ctl.phase ∧ u.irq.pend = s.irq.pend

theorem SameRest.refl (s : State) : SameRest s s := ⟨rfl, rfl, rfl, rfl, rfl⟩

theorem SameRest.trans {s t u : State} (h : SameRest s t) (k : SameRest t u) : SameRest s u := by
  obtain ⟨port, dma, cache, phase, pend⟩ := h
  obtain ⟨port', dma', cache', phase', pend'⟩ := k
  exact ⟨port'.trans port, dma'.trans dma, cache'.trans cache, phase'.trans phase, pend'.trans pend⟩

theorem SameRest.foldl {α : Type} {f : State → α → State} (one : ∀ t a, SameRest t (f t a)) (l : List α) (s : State) :
    SameRest s (l.foldl f s) := by
  induction l generalizing s with
  | nil => exact .refl s
  | cons a l ih => exact (one s a).trans (ih (f s a))

theorem SameRest.promote (s : State) : SameRest s s.promote := by
  unfold State.promote
  split <;> exact .refl s

theorem SameRest.traceCount (s : State) : SameRest s s.traceCount := by
  unfold State.traceCount
  (repeat' split) <;> exact .refl s

theorem SameRest.watchAccess (s : State) (a : Access) : SameRest s (s.watchAccess a) := by
  simp only [State.watchAccess]
  (repeat' split) <;> exact .refl s

theorem SameRest.watchAll (s : State) (l : List Access) : SameRest s (s.watchAll l) := by
  unfold State.watchAll
  split
  · exact .refl s
  · exact .foldl .watchAccess l s

theorem SameRest.settleRequest (s : State) : SameRest s s.settleRequest := by
  unfold State.settleRequest
  split <;> exact .refl s

theorem SameRest.observe (b : State) (i : Instr) (a : Word) (l : List Access) (t u : State) :
    SameRest u (b.observe i a l t u) := by
  have flow : SameRest u (if isTraced i then u.promote.traceFlow a (b.changesFlow i) else u.promote) := by
    split <;> exact .promote u
  exact ((flow.trans (.traceCount _)).trans (.watchAll _ _)).trans (.settleRequest _)

theorem SameRest.maskWindow (b : State) (i : Instr) (u : State) : SameRest u (b.maskWindow i u) := by
  unfold State.maskWindow
  (repeat' split) <;> exact .refl u

theorem SameRest.dropPdb (b : State) (i : Instr) (u : State) : SameRest u (b.dropPdb i u) := by
  unfold State.dropPdb
  split <;> exact .refl u

theorem SameRest.settleLatches (s : State) : SameRest s s.settleLatches := by
  unfold State.settleLatches
  split <;> exact .refl s

theorem SameRest.notePWrite (s : State) (a : Word) : SameRest s (s.notePWrite a) := by
  unfold State.notePWrite
  dsimp only
  split <;> exact .refl s

theorem SameRest.remember (b : State) (i : Instr) (n : Nat) (u : State) : SameRest u (b.remember i n u) :=
  .trans (.refl u) (.foldl (f := fun v (a : Access) => v.notePWrite a.addr) (fun v a => .notePWrite v a.addr) _ _)

/-- With no other master at work, neither does what follows an instruction. -/
theorem SameRest.after {b : State} (dma : b.dmaActive = none) (env : b.env = []) (i : Instr) (a : Word) (l : List Access)
    (t u : State) : SameRest u (b.after i a l t u) := by
  unfold State.after
  rw [State.deferLast_of_alone dma env]
  exact ((((SameRest.maskWindow b i u).trans (.observe b i a l t _)).trans (.dropPdb b i _)).trans (.settleLatches _)).trans
    (.remember b i _ _)

/-- With no other master at work, what follows an instruction touches no more than the history, the debug observer and the window of
the interrupt mask. -/
theorem SameMachine.after {b : State} (dma : b.dmaActive = none) (env : b.env = []) (i : Instr) (a : Word) (l : List Access)
    (t u : State) : SameMachine u (b.after i a l t u) := by
  obtain ⟨alu, agu, mem, pcu, -⟩ := SameWork.after dma env i a l t u
  obtain ⟨port, channels, cache, phase, pend⟩ := SameRest.after dma env i a l t u
  exact ⟨alu, agu, pcu, mem, port, channels, cache, phase, State.after_ctx dma env i a l t u, pend⟩

/-! ## The core's turn -/

/-- Nothing comes before the instruction at the PC, whatever becomes of it. -/
theorem Ready.live_eq (h : Ready s) : live s = runNext s := by
  obtain ⟨⟨env, phase, debug, dma, late, spilled⟩, rep, ctx, irq, -⟩ := h
  have due : s.debugDue = false := by simp [State.debugDue, debug]
  simp only [live, env, turn, phase, due, dmaOr, dma, coreOr, late, coreTurn_of_alone dma env, coreInstr, rep, ctx, spilled, irq,
    Bool.false_eq_true, if_false]

theorem Ready.step_of_next {t : State} (h : Ready s) (run : runNext s = .next t) : step s = .next t.tick :=
  step_of_live (h.live_eq.trans run)

theorem Ready.step_of_refused {r : Refusal} (h : Ready s) (run : runNext s = .refused r) : step s = .refused r :=
  step_of_live_refused (h.live_eq.trans run)

theorem Ready.step_of_fault {r : Fault} (h : Ready s) (run : runNext s = .fault r) : step s = .fault r := by
  simp only [step, h.live_eq.trans run]

/-- The instruction at the PC, fetched. -/
theorem runNext_of_fetched {i : Instr} {s1 : State} (ready : Ready s) (h : FetchesInstr s i s1) :
    runNext s = if s.wordsTooSoon s.pcu.pc i.len then .refused .executedTooSoon
      else execThen i (s1.begin s.pcu.pc) id ((s1.begin s.pcu.pc).after i s.pcu.pc (fetches s.pcu.pc i.len)) := by
  obtain ⟨w, read⟩ := h.fetchInstr ready.pdb
  obtain ⟨c, rfl⟩ := h.withCache
  rw [runNext, read]
  rfl

/-! ## Where an instruction stops -/

theorem execThen_of_hazard {i : Instr} {b : State} {r : Refusal} {again : State → State} {k : State → State → State}
    (h : b.hazard i = some r) : execThen i b again k = .refused r := by
  rw [execThen, h]

theorem execThen_of_denied {i : Instr} {b t : State} {k : State → State → State} (placed : b.hazard i = none)
    (run : exec i b = .next t) (h : b.busDenied i t (b.loopTest i t) = true) :
    execThen i b id k = .fault .externalAccessWithBusDisabled := by
  simp only [execThen, placed, run, id, h, if_true]

theorem execThen_of_bad {i : Instr} {b t : State} {r : Refusal} {k : State → State → State} (placed : b.hazard i = none)
    (run : exec i b = .next t) (bus : b.busDenied i t (b.loopTest i t) = false) (h : b.badResult (b.loopTest i t) = some r) :
    execThen i b id k = .refused r := by
  simp only [execThen, placed, run, id, bus, h, Bool.false_eq_true, if_false]

/-! ## An undefined pattern -/

/-- An undefined pattern is fetched as ILLEGAL. -/
theorem fetchInstr_of_undefined {w : Word} {s1 : State} {e : DecodeError} (pdb : s.ctl.pdb = [])
    (fetched : s.fetch s.pcu.pc = some (w, s1)) (undefined : decode w 0 = .error e) : s.fetchInstr = some ⟨.illegal, w, s1⟩ := by
  have instr : orIllegal (decode w 0) = .illegal := by rw [undefined]; rfl
  simp only [State.fetchInstr, State.fetchWord_of_empty pdb, fetched, instr]
  rfl

/-- ILLEGAL moves nothing, so it stands beside no peripheral's word. -/
theorem State.peripheralPair_illegal : s.peripheralPair .illegal = false := by
  have apart (r : AluReg) : movesApartFromY false .illegal r = false := rfl
  have own : parallelPart .illegal = .none := rfl
  unfold State.peripheralPair
  split
  · rfl
  · simp only [own, apart, Bool.and_false, Bool.false_or]
    split <;> rfl

/-- ILLEGAL may stand anywhere but near the end of a loop. -/
theorem State.hazard_illegal (lf : s.lf = false) : s.hazard .illegal = none := by
  have past : beforeLoopStart s.ctl.hist .illegal = false ∧ beforeLoopExit s.ctl.hist .illegal = false ∧
      beforeReturn s.ctl.hist.past .illegal = false ∧ afterStackPointer s.ctl.hist.past .illegal = false ∧
      s.crossesLoops .illegal = false := ⟨rfl, rfl, rfl, rfl, rfl⟩
  have extension : s.misusesExtension .illegal = false := Bool.and_false _
  have near : s.nearLoopEnd .illegal = false := by simp [State.nearLoopEnd, lf]
  have call : s.callBeforeLoop .illegal = false := by simp [State.callBeforeLoop, lf]
  obtain ⟨start, leaves, returns, stack, crosses⟩ := past
  simp only [State.hazard, near, start, call, leaves, returns, stack, crosses, extension, s.peripheralPair_illegal, Bool.or_false,
    Bool.false_eq_true, if_false]

/-- The step that finds an undefined pattern at the PC requests the Illegal Instruction interrupt. -/
theorem Ready.step_of_illegal {w : Word} {s1 : State} {e : DecodeError} (h : Ready s) (fetched : s.fetch s.pcu.pc = some (w, s1))
    (undefined : decode w 0 = .error e) (lf : s.lf = false) (settled : s.tooSoon s.pcu.pc 0 = false) :
    ∃ u, step s = .next u ∧ u.pcu.pc = s.pcu.pc + 1 ∧ u.irq.pend.getLsbD 2 = true ∧ u.alu = s.alu ∧ u.mem = s.mem := by
  obtain ⟨c, rfl⟩ := withCache_of_fetch fetched
  let b := (s.withCache c).begin s.pcu.pc
  have test : b.loopTest .illegal (b.illegal 1) = b.illegal 1 := State.loopTest_of_clear (b := b) lf _ _
  have bus : b.busDenied .illegal (b.illegal 1) (b.loopTest .illegal (b.illegal 1)) = false := by
    have accesses : b.ownAccesses .illegal (b.illegal 1) = [] := by
      have source : b.afterSource .illegal = b := rfl
      have own : b.accesses .illegal = [] := rfl
      have spilled : b.ctl.spilled = false := h.spilled
      simp only [State.ownAccesses, own, State.stackAccesses, source, spilled, Bool.false_eq_true, if_false,
        State.stackMoves_of_same (b := b) (t := b) rfl, State.stackMoves_of_same (b := b) (t := b.illegal 1) rfl]
      rfl
    rw [test, State.busDenied_self, accesses]
    exact Bool.and_false _
  have good : b.badResult (b.loopTest .illegal (b.illegal 1)) = none := by
    have running : ((b.illegal 1).ctl.phase == .stop) = false := by
      rw [show (b.illegal 1).ctl.phase = .normal from h.phase]
      rfl
    have same : (b.illegal 1).ce = b.ce ∧ (b.illegal 1).memSwitch = b.memSwitch := ⟨rfl, rfl⟩
    obtain ⟨ce, switch⟩ := same
    rw [test, State.badResult, ce, switch, running]
    simp
  have run : runNext s = .next (b.after .illegal s.pcu.pc (fetches s.pcu.pc 1) (b.illegal 1) (b.illegal 1)) := by
    rw [runNext, fetchInstr_of_undefined h.pdb fetched undefined]
    have now : s.wordsTooSoon s.pcu.pc (Instr.len .illegal) = false := by
      rw [State.wordsTooSoon, settled]
      rfl
    have done := execThen_of_next (b := b) (again := id) (k := b.after .illegal s.pcu.pc (fetches s.pcu.pc 1))
      (State.hazard_illegal lf) rfl bus good
    rw [id, test] at done
    exact (if_neg (by rw [now]; exact Bool.false_ne_true)).trans done
  obtain ⟨alu, -, pcu, mem, -, -, -, -, -, pend⟩ := SameMachine.after (b := b) h.dma h.env .illegal s.pcu.pc
    (fetches s.pcu.pc 1) (b.illegal 1) (b.illegal 1)
  have running : (b.setPend 2 true).frozen = false := by
    rw [State.frozen, show (b.setPend 2 true).ctl.ctx = none from h.ctx, show (b.setPend 2 true).ctl.phase = .normal from h.phase]
    rfl
  refine ⟨_, h.step_of_next run, ?_, ?_, alu, mem⟩
  · calc
      _ = (b.setPend 2 true).nextPc 1 := congrArg PcuRegs.pc pcu
      _ = s.pcu.pc + 1 := if_neg (by rw [running]; exact Bool.false_ne_true)
  · refine (congrArg (BitVec.getLsbD · 2) pend).trans ?_
    show (setBit s.irq.pend 2 true).getLsbD 2 = true
    simp

end Sys2Proof.Machine
open Sys2Proof Sys2Proof.Machine

/-- Settles O51. -/
theorem step_runs_the_instruction : Obligations.Step_runs_the_instruction := by
  refine ⟨fun s i s1 t h => ?_, fun s ready => ⟨fun i s1 fetched => ?_, fun w s1 e fetched undefined lf settled => ?_, fun denied => ?_⟩⟩
  · obtain ⟨c, rfl⟩ := h.fetched.withCache
    refine ⟨_, step_of_runs h, ?_⟩
    have same := SameMachine.after (b := (s.withCache c).begin s.pcu.pc) h.ready.dma h.ready.env i s.pcu.pc (fetches s.pcu.pc i.len) t
      (((s.withCache c).begin s.pcu.pc).loopTest i t)
    unfold State.loopTest at same ⊢
    split <;> simp_all
  · have run := runNext_of_fetched ready fetched
    intro b
    split
    · rename_i tooSoon
      exact ready.step_of_refused (run.trans (if_pos tooSoon))
    · rename_i settled
      have run := run.trans (if_neg settled)
      split
      · rename_i r placed
        exact ready.step_of_refused (run.trans (execThen_of_hazard placed))
      · rename_i placed
        exact ⟨fun r refused => ready.step_of_refused (run.trans (execThen_of_refused placed refused)),
          fun t exec denied => ready.step_of_fault (run.trans (execThen_of_denied placed exec denied)),
          fun t r exec bus bad => ready.step_of_refused (run.trans (execThen_of_bad placed exec bus bad))⟩
  · exact ready.step_of_illegal fetched undefined lf settled
  · refine ready.step_of_fault ?_
    have unread : s.fetchInstr = none := by rw [State.fetchInstr, State.fetchWord_of_empty ready.pdb, denied]
    rw [runNext, unread]
end

section
/-!
The moves of two words at once: X:R, R:Y, L: and X:Y: (46_move R426, R428 to R432; O35).
-/
namespace Sys2Proof.Machine

variable (s : State)

/-! ## What a move leaves, from its plan -/

/-- `t` is a state after the plan `p`, whose registers are all of the Data ALU. -/
structure Planned (s t : State) (p : Plan) : Prop where
  content : p.twice = none → ∀ d, t.content (.d d) = ((s.applyUpds p.upds).applyRegs p.regs).content (.d d)
  agu : (∀ q ∈ p.regs, ∃ r, q.1 = .alu r) → t.agu = (s.applyUpds p.upds).agu
  stored : Stored s t p.mems
  bitS : t.srBit 7 = (s.srBit 7 || p.sTerm)
  bitL : t.srBit 6 = (s.srBit 6 || p.lTerm)

theorem wrAlu_agu (r : AluReg) (w : Word) : (s.wrAlu r w).agu = s.agu := by simp

theorem applyRegs_agu (l : List (DReg × Word)) (h : ∀ q ∈ l, ∃ r, q.1 = .alu r) : (s.applyRegs l).agu = s.agu := by
  unfold State.applyRegs
  induction l generalizing s with
  | nil => rfl
  | cons q l ih =>
    obtain ⟨r, hr⟩ := h q (by simp)
    refine (ih _ fun q hq => h q (by simp [hq])).trans ?_
    show (s.wrD q.1 q.2).agu = s.agu
    rw [hr]
    exact wrAlu_agu s r q.2

theorem SameDevices.of_applyRegs (l : List (DReg × Word)) : SameDevices s (s.applyRegs l) := by
  unfold State.applyRegs
  induction l generalizing s with
  | nil => exact .refl s
  | cons q l ih => exact (SameDevices.of_wrD s q.1 q.2).trans (ih _)

theorem SameDevices.of_applyUpds (l : List (Fin 8 × Word)) : SameDevices s (s.applyUpds l) := by
  unfold State.applyUpds
  induction l generalizing s with
  | nil => exact .refl s
  | cons q l ih => exact (SameDevices.of_setR s q.1 q.2).trans (ih _)

theorem SameDevices.of_freeTwice (e : Option Acc) : SameDevices s (s.freeTwice e) := by
  cases e with
  | none => exact .refl s
  | some d =>
    cases d with
    | a => exact .of_withAcc s .a _
    | b => exact .of_withAcc s .b _

theorem commit_nothing (p : Plan) : s.commit .nothing p = ((((s.applyUpds p.upds).applyRegs p.regs).freeTwice p.twice).withCcr
    (orSL p.sTerm p.lTerm s.ccr)).applyMems p.mems := by
  rw [State.commit, State.commitAcc_nothing, twiceWritten_nothing, AluOut.nothing, CcrUpd.keep_apply]

theorem runMove_planned (m : PMove) : ∃ t, runMove m s = .next t ∧ Planned s t (s.plan m) := by
  have keep : (AluOut.nothing.ccr.mask.getLsbD 7 = false ∧ AluOut.nothing.ccr.mask.getLsbD 6 = false) ∧
      AluOut.nothing.ccr.mask.getLsbD 1 = false := by decide
  obtain ⟨⟨keepS, keepL⟩, keepV⟩ := keep
  refine ⟨(s.commit .nothing (s.plan m)).advance (moveLen m), rfl, ?_⟩
  generalize s.plan m = p
  refine ⟨?_, ?_, ?_, s.srBit_commit_S .nothing p _ keepS, ?_⟩
  · intro none d
    rw [State.content_advance, commit_nothing, State.content_applyMems, State.content_withCcr, none]
    rfl
  · intro alu
    rw [commit_nothing]
    exact Eq.trans (by simp) (applyRegs_agu (s.applyUpds p.upds) p.regs alu)
  · have same := ((((SameDevices.of_applyUpds s p.upds).trans (.of_applyRegs _ p.regs)).trans (.of_freeTwice _ p.twice)).trans
      (.of_withCcr _ (orSL p.sTerm p.lTerm s.ccr)))
    rw [commit_nothing]
    exact same.stored p.mems
  · rw [s.srBit_commit_L .nothing p _ keepL, keepV, Bool.false_and, Bool.or_false]

/-! ## The registers loaded -/

/-- The word written last stands in its register. -/
theorem landed_last (u : List (Fin 8 × Word)) (l : List (DReg × Word)) (d : DReg) (w : Word) :
    ((s.applyUpds u).applyRegs (l ++ [(d, w)])).content (.d d) = landed s d w := by
  have last : (s.applyUpds u).applyRegs (l ++ [(d, w)]) = ((s.applyUpds u).applyRegs l).wrD d w := by
    simp [State.applyRegs]
  rw [last, wrD_content, landed_congr (s := s) (by simp)]

/-- So does the word written before it, in another register. -/
theorem landed_first (u : List (Fin 8 × Word)) {d e : DReg} (v w : Word) (apart : clash (.d e) (.d d) = false) :
    ((s.applyUpds u).applyRegs [(d, v), (e, w)]).content (.d d) = landed s d v := by
  have first := landed_last s u [] d v
  exact (State.content_wrD _ e w _ apart).trans first

/-! ## S and L -/

/-- A word read or a long read of an accumulator reports the same. -/
theorem rdAccLong_terms (d : Acc) :
    (s.rdAccLong d).1.sTerm = (s.rdAcc d).sTerm ∧ (s.rdAccLong d).1.lTerm = (s.rdAcc d).lTerm := by
  simp only [State.rdAccLong, State.rdAcc]
  (repeat' split) <;> exact ⟨rfl, rfl⟩

theorem rdAcc_lTerm (d : Acc) (hs : s.scaling ≠ .reserved) : (s.rdAcc d).lTerm =
    if s.sa then limits 16 (scaled s.scaling (s.accSrc d) 16) else limits 24 (scaled s.scaling (s.acc d).toInt 24) := by
  cases sa : s.sa with
  | true => rw [s.rdAcc_eq_of_sa d sa hs]; rfl
  | false => rw [s.rdAcc_eq d sa hs]; rfl

variable {s} in
/-- S and L are ORed with what the reads of the accumulators `l` report. -/
theorem readFlags_of_terms {t : State} {l : List Acc} (bitS : t.srBit 7 = (s.srBit 7 || l.any fun d => (s.rdAcc d).sTerm))
    (bitL : t.srBit 6 = (s.srBit 6 || l.any fun d => (s.rdAcc d).lTerm)) : ReadFlags s t l := by
  intro hs
  rw [bitS, bitL]
  simp only [rdAcc_lTerm s _ hs, (s.rdAcc_sTerm _ hs).1, and_self]

/-- A register of an X or Y side reports what the full accumulator that it is does. -/
theorem rdAlu_terms (r : AluReg) : (s.rdAlu r).sTerm = ((fullAcc r).any fun d => (s.rdAcc d).sTerm) ∧
    (s.rdAlu r).lTerm = ((fullAcc r).any fun d => (s.rdAcc d).lTerm) := by
  cases r <;> simp [State.rdAlu, fullAcc, Rd.plain]

theorem rdLong_terms (l : LongReg) : (s.rdLong l).1.sTerm = ((fullAccs l).any fun d => (s.rdAcc d).sTerm) ∧
    (s.rdLong l).1.lTerm = ((fullAccs l).any fun d => (s.rdAcc d).lTerm) := by
  cases l <;> simp [State.rdLong, State.rdAlu, fullAccs, Rd.plain, rdAccLong_terms, Bool.or_comm]

/-! ## Input registers on the bus -/

/-- In Sixteen-bit Arithmetic mode an input register's sixteen MSBs are the low ones on the bus. -/
theorem State.getLsbD_xyOnBus (sa : s.sa = true) (r : XYReg) {k : Nat} (hk : k < 16) :
    (s.xyOnBus r).getLsbD k = (s.xy r).getLsbD (8 + k) := by
  have low : (partOnBus true (s.xy r)).getLsbD k = (s.xy r).getLsbD (8 + k) := by
    rw [partOnBus, if_pos rfl, BitVec.getLsbD_setWidth, BitVec.getLsbD_extractLsb']
    simp [hk, show k < 24 by omega]
  have free : ∀ k < 16, (0xFF0000#24).getLsbD k = false := by decide
  rw [State.xyOnBus, sa, Bool.true_and]
  split
  · rw [BitVec.getLsbD_or, BitVec.getLsbD_and, free k hk, Bool.and_false, Bool.or_false, low]
  · exact low

theorem xyOnBus_inputOnBus (r : XYReg) : InputOnBus s (s.ctl.fresh.getLsbD (freshBit r)) (s.xy r) (s.xyOnBus r) := by
  unfold InputOnBus
  cases sa : s.sa with
  | false =>
    rw [State.xyOnBus, sa]
    rfl
  | true =>
    rw [if_pos rfl]
    constructor
    · apply BitVec.eq_of_getLsbD_eq
      intro k hk
      rw [BitVec.getLsbD_extractLsb', BitVec.getLsbD_extractLsb', Nat.zero_add, s.getLsbD_xyOnBus sa r hk]
    · intro old
      rw [State.xyOnBus, sa, old]
      apply BitVec.eq_of_getLsbD_eq
      intro k hk
      simp [partOnBus]

/-- What an accumulator takes of an input register. -/
theorem taken_xyOnBus (r : XYReg) : taken s.sa (s.xyOnBus r) = if s.sa then s.xy r &&& 0xFFFF00#24 else s.xy r := by
  cases sa : s.sa with
  | false =>
    rw [State.xyOnBus, sa]
    rfl
  | true =>
    have mask : ∀ k < 24, (0xFFFF00#24).getLsbD k = decide (8 ≤ k) := by decide
    rw [taken, if_pos rfl, if_pos rfl]
    apply BitVec.eq_of_getLsbD_eq
    intro k hk
    rw [BitVec.getLsbD_shiftLeft, BitVec.getLsbD_and, mask k hk]
    by_cases low : k < 8
    · simp [low, show ¬8 ≤ k by omega]
    · rw [s.getLsbD_xyOnBus sa r (by omega), show 8 + (k - 8) = k by omega]
      simp [low, hk, show 8 ≤ k by omega]

/-! ## Long words -/

/-- A word, or both words of a long read, of an accumulator. -/
theorem accWord_eq (d : Acc) (hs : s.scaling ≠ .reserved) : (s.rdAcc d).w =
    if s.sa then (limitedTo 16 (scaled s.scaling (s.accSrc d) 16)).signExtend 24
    else limitedTo 24 (scaled s.scaling (s.acc d).toInt 24) := by
  cases sa : s.sa with
  | true => rw [s.rdAcc_eq_of_sa d sa hs]; rfl
  | false => rw [s.rdAcc_eq d sa hs]; rfl

theorem accLong_eq (d : Acc) (hs : s.scaling ≠ .reserved) : ((s.rdAccLong d).1.w, (s.rdAccLong d).2) =
    if s.sa then
      let l : BitVec 32 := limitedTo 32 (scaled s.scaling (s.accSrc d) 0)
      ((l.extractLsb' 16 16).signExtend 24, (l.extractLsb' 0 16).setWidth 24)
    else
      let l : Long := limitedTo 48 (scaled s.scaling (s.acc d).toInt 0)
      (l.extractLsb' 24 24, l.extractLsb' 0 24) := by
  cases sa : s.sa with
  | true => rw [s.rdAccLong_eq_of_sa d sa hs]; rfl
  | false => rw [s.rdAccLong_eq d sa hs]; rfl

theorem longWords_eq (l : LongReg) (hs : s.scaling ≠ .reserved) : longWords s l = ((s.rdLong l).1.w, (s.rdLong l).2) := by
  cases l with
  | a10 => rfl
  | b10 => rfl
  | x => rfl
  | y => rfl
  | a => exact (accLong_eq s .a hs).symm
  | b => exact (accLong_eq s .b hs).symm
  | ab => exact (congrArg₂ Prod.mk (accWord_eq s .a hs) (accWord_eq s .b hs)).symm
  | ba => exact (congrArg₂ Prod.mk (accWord_eq s .b hs) (accWord_eq s .a hs)).symm

/-- A long accumulator takes both words, the high one with its sign above. -/
theorem setLsp_wrAcc (sa : Bool) (h l : Word) :
    setLsp (wrAcc sa h) (partFromBus sa l) = (taken sa h ++ taken sa l : BitVec 48).signExtend 56 := by
  rw [wrAcc_eq, partFromBus_eq_taken]
  generalize taken sa h = p, taken sa l = q
  have top : (p ++ q : BitVec 48).msb = (p ++ 0#24 : BitVec 48).msb := by rw [BitVec.msb_append, BitVec.msb_append]; rfl
  apply BitVec.eq_of_getLsbD_eq
  intro i hi
  simp only [setLsp, BitVec.getLsbD_append, BitVec.getLsbD_extractLsb', BitVec.getLsbD_signExtend, hi, top, decide_true, Bool.true_and]
  by_cases low : i < 24
  · simp [low, show i < 48 by omega]
  · have place : 24 + (i - 24) = i := by omega
    simp [low, place, hi, show i - 24 < 32 by omega]

theorem longWrites_landed (u : List (Fin 8 × Word)) (l : LongReg) (h v : Word) : ∀ p ∈ longLanded s.sa l h v,
    ((s.applyUpds u).applyRegs (longWrites l h v)).content (.d (.alu p.1)) = p.2 := by
  have sa : (s.applyUpds u).sa = s.sa := by simp [State.sa, State.srBit]
  have two {d e : AluReg} (apart : clash (.d (.alu e)) (.d (.alu d)) = false) :
      ∀ p ∈ [(d, landed s (.alu d) h), (e, landed s (.alu e) v)],
        ((s.applyUpds u).applyRegs [(.alu d, h), (.alu e, v)]).content (.d (.alu p.1)) = p.2 := by
    intro p hp
    simp only [List.mem_cons, List.not_mem_nil, or_false] at hp
    rcases hp with rfl | rfl
    · exact landed_first s u h v apart
    · exact landed_last s u [(.alu d, h)] _ v
  cases l with
  | a10 => exact two (by decide)
  | b10 => exact two (by decide)
  | x => exact two (by decide)
  | y => exact two (by decide)
  | ab => exact two (by decide)
  | ba => exact two (by decide)
  | a =>
    intro p hp
    cases List.mem_singleton.1 hp
    exact (setLsp_wrAcc (s.applyUpds u).sa h v).trans (by rw [sa])
  | b =>
    intro p hp
    cases List.mem_singleton.1 hp
    exact (setLsp_wrAcc (s.applyUpds u).sa h v).trans (by rw [sa])

/-! ## The classes of moves -/

variable {s} in
theorem Planned.pairMoved {t : State} {p : Plan} {u : Option (Fin 8 × Word)} {accs : List Acc} (h : Planned s t p)
    (alu : ∀ q ∈ p.regs, ∃ r, q.1 = .alu r) (upds : p.upds = u.toList)
    (terms : p.sTerm = (accs.any fun d => (s.rdAcc d).sTerm) ∧ p.lTerm = accs.any fun d => (s.rdAcc d).lTerm) :
    PairMoved s t u accs p.mems := by
  refine ⟨h.stored, ?_, readFlags_of_terms ?_ ?_⟩
  · rw [h.agu alu, upds, s.applyUpds_toList]
  · rw [h.bitS, terms.1]
  · rw [h.bitL, terms.2]

/-- Class I, a load: the accumulator goes to the input register `d`, memory to `r`. -/
theorem class1_load {m : PMove} {sp : Space} {r d : AluReg} {c : Acc} {e : Ea} (plan : s.plan m =
      s.planClass1 (s.planMem sp (.alu r) .write (s.ea e).addr (s.loadEa sp e) (s.eaUpds e)) c d)
    (apart : clash (.d (.alu d)) (.d (.alu r)) = false) :
    ∃ t, runMove m s = .next t ∧ t.content (.d (.alu r)) = landed s (.alu r) ((eaLoc s sp true e).value s) ∧
      t.content (.d (.alu d)) = landed s (.alu d) (s.rdAcc c).w ∧ PairMoved s t (s.ea e).upd [c] [] := by
  obtain ⟨t, run, h⟩ := runMove_planned s m
  rw [plan] at h
  refine ⟨t, run, ?_, ?_, ?_⟩
  · rw [h.content rfl, ← loadEa_eq]
    exact landed_first s _ _ _ apart
  · rw [h.content rfl]
    exact landed_last s _ [_] _ _
  · exact h.pairMoved (by simp [State.planClass1, State.planMem]) rfl
      (by simp [State.planClass1, State.planMem])

/-- Class I, a store. -/
theorem class1_store {m : PMove} {sp : Space} {r d : AluReg} {c : Acc} {e : Ea} (plan : s.plan m =
      s.planClass1 (s.planMem sp (.alu r) .read (s.ea e).addr (s.loadEa sp e) (s.eaUpds e)) c d) :
    ∃ t, runMove m s = .next t ∧ t.content (.d (.alu d)) = landed s (.alu d) (s.rdAcc c).w ∧
      PairMoved s t (s.ea e).upd (c :: fullAcc r) [(sp, (s.ea e).addr, (s.rdAlu r).w)] := by
  obtain ⟨t, run, h⟩ := runMove_planned s m
  rw [plan] at h
  refine ⟨t, run, ?_, ?_⟩
  · rw [h.content rfl]
    exact landed_last s _ [] _ _
  · obtain ⟨bitS, bitL⟩ := rdAlu_terms s r
    exact h.pairMoved (by simp [State.planClass1, State.planMem]) rfl
      (by simp [State.planClass1, State.planMem, State.rdD, bitS, bitL, Bool.or_comm])

/-- Class II: the accumulator goes to memory, the input register to the accumulator. -/
theorem class2 {m : PMove} {sp : Space} {d : Acc} {r : XYReg} {e : Ea} (plan : s.plan m = s.planClass2 sp d r e) :
    ∃ t, runMove m s = .next t ∧
      t.acc d = ((if s.sa then s.xy r &&& 0xFFFF00#24 else s.xy r) ++ 0#24 : BitVec 48).signExtend 56 ∧
      PairMoved s t (s.ea e).upd [d] [(sp, (s.ea e).addr, (s.rdAcc d).w)] := by
  obtain ⟨t, run, h⟩ := runMove_planned s m
  rw [plan] at h
  refine ⟨t, run, ?_, h.pairMoved (by simp [State.planClass2]) rfl (by simp [State.planClass2])⟩
  have content := (h.content rfl (.alu (accReg d))).trans (landed_last s _ [] _ _)
  have lands := congrArg (fun v => (v ++ 0#24 : BitVec 48).signExtend 56) (taken_xyOnBus s r)
  cases d <;> exact content.trans lands

/-- A one-word half of a move reports what the full accumulator it stores does. -/
theorem planMem_terms (sp : Space) (r : AluReg) (w : Dir) (a v : Word) (u : List (Fin 8 × Word)) :
    (s.planMem sp (.alu r) w a v u).sTerm = ((if w = .read then fullAcc r else []).any fun d => (s.rdAcc d).sTerm) ∧
    (s.planMem sp (.alu r) w a v u).lTerm = ((if w = .read then fullAcc r else []).any fun d => (s.rdAcc d).lTerm) := by
  cases w with
  | read => exact rdAlu_terms s r
  | write => exact ⟨rfl, rfl⟩

theorem planMem_regs (sp : Space) (r : AluReg) (w : Dir) (a v : Word) (u : List (Fin 8 × Word)) :
    (s.planMem sp (.alu r) w a v u).regs = if w = .write then [(.alu r, v)] else [] := by
  cases w <;> rfl

theorem planMem_upds (sp : Space) (d : DReg) (w : Dir) (a v : Word) (u : List (Fin 8 × Word)) :
    (s.planMem sp d w a v u).upds = u := by
  cases w <;> rfl

theorem planMem_mems (sp : Space) (r : AluReg) (w : Dir) (a v : Word) (u : List (Fin 8 × Word)) :
    (s.planMem sp (.alu r) w a v u).mems = if w = .read then [(sp, a, (s.rdAlu r).w)] else [] := by
  cases w <;> rfl

/-- Two loads into different registers, at most one of them each accumulator. -/
theorem sides_apart {xs : XSide} {ys : YSide} (h : bothLoad xs ys .write .write = none) :
    clash (.d (.alu (ySideReg ys))) (.d (.alu (xSideReg xs))) = false := by
  revert h
  cases xs <;> cases ys <;> decide

variable {s} in
/-- Both halves of an X:Y: move, the Y half with the word `y`, or not made (`both`). -/
theorem Planned.sides {t : State} {xs : XSide} {ys : YSide} {xw yw : Dir} {ax ay x y : Word} {ux uy : Option (Fin 8 × Word)}
    {both : Bool} (h : let px := s.planMem .x (.alu (xSideReg xs)) xw ax x ux.toList
      let py := s.planMem .y (.alu (ySideReg ys)) yw ay y uy.toList
      Planned s t ⟨px.sTerm || py.sTerm, px.lTerm || py.lTerm, px.upds ++ py.upds, px.regs ++ py.regs,
        px.mems ++ (if both then [] else py.mems), bothLoad xs ys xw yw⟩) :
    t.agu = ((s.applyUpd ux).applyUpd uy).agu ∧
    ReadFlags s t ((if xw = .read then fullAcc (xSideReg xs) else []) ++ (if yw = .read then fullAcc (ySideReg ys) else [])) ∧
    (bothLoad xs ys xw yw = none →
      (xw = .write → t.content (.d (.alu (xSideReg xs))) = landed s (.alu (xSideReg xs)) x) ∧
      (yw = .write → t.content (.d (.alu (ySideReg ys))) = landed s (.alu (ySideReg ys)) y)) ∧
    Stored s t ((if xw = .read then [(.x, ax, (s.rdAlu (xSideReg xs)).w)] else []) ++
      (if yw = .read ∧ both = false then [(.y, ay, (s.rdAlu (ySideReg ys)).w)] else [])) := by
  obtain ⟨content, agu, stored, bitS, bitL⟩ := h
  simp only [planMem_regs, planMem_upds, planMem_mems, planMem_terms] at content agu stored bitS bitL
  have updates : s.applyUpds (ux.toList ++ uy.toList) = (s.applyUpd ux).applyUpd uy := by
    rw [State.applyUpds, List.foldl_append]
    exact (State.applyUpds_toList _ uy).trans (congrArg (State.applyUpd · uy) (s.applyUpds_toList ux))
  refine ⟨?_, ?_, fun single => ⟨?_, ?_⟩, ?_⟩
  · rw [agu (by cases xw <;> cases yw <;> simp), updates]
  · exact readFlags_of_terms (by rw [bitS, List.any_append]) (by rw [bitL, List.any_append])
  · rintro rfl
    rw [content single]
    cases yw with
    | read => exact landed_last s _ [] _ _
    | write => exact landed_first s _ _ _ (sides_apart single)
  · rintro rfl
    rw [content single]
    exact landed_last s _ _ _ _
  · cases both <;> cases yw <;> simpa using stored

theorem long_load {m : PMove} {l : LongReg} {a : Word} {u : Option (Fin 8 × Word)}
    (plan : s.plan m = s.planLong l .write a u.toList) : ∃ t, runMove m s = .next t ∧ PairMoved s t u [] [] ∧
      ∀ p ∈ longLanded s.sa l (s.readData .x a) (s.readData .y a), t.content (.d (.alu p.1)) = p.2 := by
  obtain ⟨t, run, h⟩ := runMove_planned s m
  rw [plan] at h
  refine ⟨t, run, h.pairMoved ?_ rfl ⟨rfl, rfl⟩, fun p hp => (h.content rfl _).trans (longWrites_landed s _ l _ _ p hp)⟩
  show ∀ q ∈ longWrites l _ _, _
  cases l <;> simp [longWrites]

theorem long_store {m : PMove} {l : LongReg} {a : Word} {u : Option (Fin 8 × Word)}
    (plan : s.plan m = s.planLong l .read a u.toList) (hs : s.scaling ≠ .reserved) : ∃ t, runMove m s = .next t ∧
      PairMoved s t u (fullAccs l) [(.x, a, (longWords s l).1), (.y, a, (longWords s l).2)] := by
  obtain ⟨t, run, h⟩ := runMove_planned s m
  rw [plan] at h
  rw [longWords_eq s l hs]
  exact ⟨t, run, h.pairMoved (by simp [State.planLong]) rfl (rdLong_terms s l)⟩

end Sys2Proof.Machine
open Sys2Proof Sys2Proof.Machine

/-- Settles O35. -/
theorem pair_moves : Obligations.Pair_moves := by
  intro s
  refine ⟨?_, fun xs s2 d2 e => ?_, fun xs s2 d2 e => ?_, fun d e => ?_, fun s1 d1 ys e => ?_, fun s1 d1 ys e => ?_, fun d e => ?_,
    fun l e => ?_, fun l a => ?_, fun hs => ⟨fun l e => ?_, fun l a => ?_⟩, fun yw ym xs ys xw yn xm xn => ?_⟩
  · intro p hp
    simp only [List.mem_cons, List.not_mem_nil, or_false] at hp
    rcases hp with rfl | rfl | rfl | rfl
    · exact ⟨xyOnBus_inputOnBus s .x0, rfl, rfl⟩
    · exact ⟨xyOnBus_inputOnBus s .y0, rfl, rfl⟩
    · exact ⟨xyOnBus_inputOnBus s .x1, rfl, rfl⟩
    · exact ⟨xyOnBus_inputOnBus s .y1, rfl, rfl⟩
  · exact class1_load s (m := .xr1 xs s2 d2 .write e) rfl (by cases xs <;> cases d2 <;> rfl)
  · exact class1_store s (m := .xr1 xs s2 d2 .read e) rfl
  · exact class2 s (m := .xr2 d e) (r := .x0) rfl
  · exact class1_load s (m := .ry1 s1 d1 ys .write e) rfl (by cases ys <;> cases d1 <;> rfl)
  · exact class1_store s (m := .ry1 s1 d1 ys .read e) rfl
  · exact class2 s (m := .ry2 d e) (r := .y0) rfl
  · exact long_load s (m := .lEa l .write e) rfl
  · exact long_load s (m := .lAa l .write a) (u := none) rfl
  · exact long_store s (m := .lEa l .read e) rfl hs
  · exact long_store s (m := .lAa l .read a) (u := none) rfl hs
  · obtain ⟨t, run, h⟩ := runMove_planned s (.xy yw ym xs ys xw yn xm xn)
    obtain ⟨agu, flags, content, stored⟩ := h.sides
    refine ⟨t, _, run, agu, flags, fun whole => ?_, content, stored⟩
    exact if_neg (by rw [whole]; exact Bool.false_ne_true)
end

section
/-!
What a move between a register and memory leaves alone (46_move, 10_state R60 to R64, 48_cache R545, R556; O34).
-/
namespace Sys2Proof.Machine

variable (s : State)

/-! ## What a step may change -/

/-- Bounds on a change of state: the registers, the bits of SR and of OMR, the halves of the stack locations, the data addresses, and
whether the refresh of the DRAM control and the request of the Stack Error may be among it. -/
structure Reach where
  regs : List Reg
  sr : Word
  omr : Word
  highs : List (Fin 16)
  lows : List (Fin 16)
  stores : List (Space × Word)
  refresh : Bool
  error : Bool

/-- `t` differs from `s` within the bounds `R`; program memory and the cache are not spoken of. -/
structure Effect (s t : State) (R : Reach) : Prop where
  regs : ∀ r, (∀ q ∈ R.regs, clash q r = false) → t.content r = s.content r
  sr : t.pcu.sr &&& ~~~R.sr = s.pcu.sr &&& ~~~R.sr
  omr : t.pcu.omr &&& ~~~R.omr = s.pcu.omr &&& ~~~R.omr
  high : ∀ j : Fin 16, j ∉ R.highs → t.pcu.ssh[j] = s.pcu.ssh[j]
  low : ∀ j : Fin 16, j ∉ R.lows → t.pcu.ssl[j] = s.pcu.ssl[j]
  data : DataSame s t R.stores
  devices : (∀ p ∈ R.stores, s.internalIo p.1 p.2 = false) →
    t.dma = s.dma ∧ t.once = s.once ∧ t.port = { s.port with dcr := t.port.dcr } ∧ t.irq = { s.irq with pend := t.irq.pend } ∧
    (R.refresh = false → t.port = s.port) ∧ ∀ k < 128, (k ≠ 1 ∨ R.error = false) → t.irq.pend.getLsbD k = s.irq.pend.getLsbD k
  pc : t.pcu.pc = s.pcu.pc
  control : t.ctl.phase = s.ctl.phase ∧ t.ctl.ctx = s.ctl.ctx ∧ t.ctl.rep = s.ctl.rep ∧ t.ctl.freeCtr = s.ctl.freeCtr
  outside : t.jtag = s.jtag ∧ t.env = s.env

variable {R : Reach}

variable {s} in
/-- One step after another, where the first leaves the memory map alone. -/
theorem Effect.trans {t u : State} (h : Effect s t R) (bus : SameBus s t) (k : Effect t u R) : Effect s u R where
  regs r hr := (k.regs r hr).trans (h.regs r hr)
  sr := k.sr.trans h.sr
  omr := k.omr.trans h.omr
  high j hj := (k.high j hj).trans (h.high j hj)
  low j hj := (k.low j hj).trans (h.low j hj)
  data sp key hk := (k.data sp key fun p hp e => by rw [bus.dataKey]; exact hk p hp e).trans (h.data sp key hk)
  devices hio := by
    obtain ⟨dma, once, port, irq, kept, pend⟩ := h.devices hio
    obtain ⟨dma', once', port', irq', kept', pend'⟩ := k.devices fun p hp => by rw [bus.internalIo]; exact hio p hp
    refine ⟨dma'.trans dma, once'.trans once, ?_, ?_, fun r => (kept' r).trans (kept r), fun j hj e => (pend' j hj e).trans (pend j hj e)⟩
    · rw [port', port]
    · rw [irq', irq]
  pc := k.pc.trans h.pc
  control := ⟨k.control.1.trans h.control.1, k.control.2.1.trans h.control.2.1, k.control.2.2.1.trans h.control.2.2.1,
    k.control.2.2.2.trans h.control.2.2.2⟩
  outside := ⟨k.outside.1.trans h.outside.1, k.outside.2.trans h.outside.2⟩

/-- Bounds that keep the memory map: no change of SC and CE, nor of EBD and the memory switch. -/
def Reach.quiet (R : Reach) : Prop := (R.sr.getLsbD 13 = false ∧ R.sr.getLsbD 19 = false) ∧ R.omr &&& 0x600090#24 = 0

theorem getLsbD_of_masked {x y m : Word} (h : x &&& ~~~m = y &&& ~~~m) {k : Nat} (hk : k < 24) (clear : m.getLsbD k = false) :
    x.getLsbD k = y.getLsbD k := by
  have bit := congrArg (BitVec.getLsbD · k) h
  simpa only [BitVec.getLsbD_and, BitVec.getLsbD_not, hk, clear, decide_true, Bool.not_false, Bool.and_true] using bit

variable {s} in
theorem Effect.bus {t : State} (h : Effect s t R) (quiet : R.quiet) : SameBus s t := by
  obtain ⟨⟨sr, -⟩, omr⟩ := quiet
  have bit (k : Nat) (hk : k < 24) (used : (0x600090#24).getLsbD k = true) : t.pcu.omr.getLsbD k = s.pcu.omr.getLsbD k := by
    have clear := congrArg (BitVec.getLsbD · k) omr
    rw [BitVec.getLsbD_and, used, Bool.and_true] at clear
    exact getLsbD_of_masked h.omr hk (clear.trans BitVec.getLsbD_zero)
  refine ⟨getLsbD_of_masked h.sr (k := 13) (by decide) sr, bit 4 (by decide) rfl, Prod.ext (bit 7 (by decide) rfl) ?_⟩
  refine BitVec.eq_of_getLsbD_eq fun k hk => ?_
  have same : t.pcu.omr.getLsbD (21 + k) = s.pcu.omr.getLsbD (21 + k) := by
    interval_cases k
    · exact bit 21 (by decide) rfl
    · exact bit 22 (by decide) rfl
  show (t.pcu.omr.extractLsb' 21 2).getLsbD k = (s.pcu.omr.extractLsb' 21 2).getLsbD k
  rw [BitVec.getLsbD_extractLsb', BitVec.getLsbD_extractLsb', same]

variable {s} in
theorem Effect.ce {t : State} (h : Effect s t R) (quiet : R.quiet) : t.ce = s.ce :=
  getLsbD_of_masked h.sr (k := 19) (by decide) quiet.1.2

variable {s} in
theorem Effect.then {t u : State} (h : Effect s t R) (quiet : R.quiet) (k : Effect t u R) : Effect s u R := h.trans (h.bus quiet) k

/-- The memories, the devices and the control of the core are the same. -/
structure SameSystem (s t : State) : Prop where
  mem : t.mem = s.mem
  port : t.port = s.port
  dma : t.dma = s.dma
  irq : t.irq = s.irq
  once : t.once = s.once
  pc : t.pcu.pc = s.pcu.pc
  control : t.ctl.phase = s.ctl.phase ∧ t.ctl.ctx = s.ctl.ctx ∧ t.ctl.rep = s.ctl.rep ∧ t.ctl.freeCtr = s.ctl.freeCtr
  outside : t.jtag = s.jtag ∧ t.env = s.env

variable {s} in
theorem DataSame.of_mem {t : State} (x : t.mem.x = s.mem.x) (y : t.mem.y = s.mem.y) (l : List (Space × Word)) : DataSame s t l := by
  intro sp k _
  cases sp <;> simp only [State.dataMem, x, y]

variable {s} in
/-- A step that changes registers alone. -/
theorem Effect.of_system {t : State} (h : SameSystem s t)
    (regs : ∀ r, (∀ q ∈ R.regs, clash q r = false) → t.content r = s.content r)
    (sr : t.pcu.sr &&& ~~~R.sr = s.pcu.sr &&& ~~~R.sr) (omr : t.pcu.omr &&& ~~~R.omr = s.pcu.omr &&& ~~~R.omr)
    (high : ∀ j : Fin 16, j ∉ R.highs → t.pcu.ssh[j] = s.pcu.ssh[j])
    (low : ∀ j : Fin 16, j ∉ R.lows → t.pcu.ssl[j] = s.pcu.ssl[j]) : Effect s t R where
  regs := regs
  sr := sr
  omr := omr
  high := high
  low := low
  data := .of_mem (by rw [h.mem]) (by rw [h.mem]) _
  devices _ := ⟨h.dma, h.once, by rw [h.port], by rw [h.irq], fun _ => h.port, fun k _ _ => by rw [h.irq]⟩
  pc := h.pc
  control := h.control
  outside := h.outside

variable {s} in
/-- A step of registers that touches neither SR, OMR nor the stack. -/
theorem Effect.of_content {t : State} (h : SameSystem s t)
    (regs : ∀ r, (∀ q ∈ R.regs, clash q r = false) → t.content r = s.content r)
    (sr : t.pcu.sr = s.pcu.sr) (omr : t.pcu.omr = s.pcu.omr) (stack : StackSame s t) : Effect s t R :=
  .of_system h regs (by rw [sr]) (by rw [omr]) (fun j _ => by rw [stack.1]) (fun j _ => by rw [stack.2])

/-! ## Register steps -/

theorem Effect.refl : Effect s s R := .of_content ⟨rfl, rfl, rfl, rfl, rfl, rfl, ⟨rfl, rfl, rfl, rfl⟩, rfl, rfl⟩ (fun _ _ => rfl) rfl rfl ⟨rfl, rfl⟩

theorem Effect.applyUpd (u : Option (Fin 8 × Word)) (h : ∀ p ∈ u.toList, .d (.r p.1) ∈ R.regs) : Effect s (s.applyUpd u) R := by
  refine .of_content ?_ (fun r hr => ?_) (by simp) (by simp) ⟨by simp, by simp⟩
  · constructor <;> simp
  · rw [← s.applyUpds_toList]
    exact s.content_applyUpds _ r fun p hp => hr _ (h p hp)

theorem Effect.wrD (d : DReg) (w : Word) (h : .d d ∈ R.regs) : Effect s (s.wrD d w) R := by
  have pcu := wrD_pcu s d w
  refine .of_content ?_ (fun r hr => s.content_wrD d w r (hr _ h)) (by rw [pcu]) (by rw [pcu]) ⟨by rw [pcu], by rw [pcu]⟩
  constructor <;> simp

theorem Effect.mergeSL (r : Rd) (h : ∀ k < 8, 6 ≤ k → R.sr.getLsbD k = true) : Effect s (s.mergeSL r) R := by
  refine .of_system ?_ (fun r _ => s.content_withCcr _ r) ?_ ?_ ?_ ?_
  · constructor <;> simp [State.mergeSL]
  · refine BitVec.eq_of_getLsbD_eq fun k hk => ?_
    have bit := s.srBit_withCcr (orSL r.sTerm r.lTerm s.ccr) k
    rw [State.srBit, State.srBit, getLsbD_orSL, State.ccr_getLsbD] at bit
    rw [BitVec.getLsbD_and, BitVec.getLsbD_and, BitVec.getLsbD_not, State.mergeSL, bit]
    by_cases flags : k < 8 ∧ 6 ≤ k
    · simp [h k flags.1 flags.2]
    · by_cases ccr : k < 8
      · simp [ccr, State.srBit, show ¬k = 7 by omega, show ¬k = 6 by omega]
      · simp [ccr]
  · simp [State.mergeSL]
  · simp [State.mergeSL]
  · simp [State.mergeSL]

/-- A control register but SR, OMR, SC, SSH and SSL. -/
theorem Effect.wrC (c : CReg) (w : Word) (plain : movesMore (.c c) = false) (h : .c c ∈ R.regs) : Effect s (s.wrC c w) R := by
  have kept := control_kept s c w (by rintro rfl; cases plain) (by rintro rfl; cases plain)
  obtain ⟨content, -, -, rest, stack, -⟩ := kept
  obtain ⟨mem, cache, sr⟩ := rest (by rintro rfl; cases plain)
  refine .of_content ?_ (fun r hr => content r ?_) sr ?_ (stack (by rintro rfl; cases plain))
  · cases c with
    | sr | omr | sc | ssh | ssl => cases plain
    | m | ep | vba | sz | sp | la | lc => exact ⟨rfl, rfl, rfl, rfl, rfl, rfl, ⟨rfl, rfl, rfl, rfl⟩, rfl, rfl⟩
  · rintro rfl
    have := hr _ h
    simp [clash] at this
  · cases c with
    | sr | omr | sc | ssh | ssl => cases plain
    | m | ep | vba | sz | sp | la | lc => rfl

theorem Effect.withSp (v : Word) (h : .c .sp ∈ R.regs) : Effect s (s.withSp v) R := by
  refine .of_content ?_ (fun r hr => ?_) rfl rfl ⟨rfl, rfl⟩
  · constructor <;> simp
  · match r with
    | .d (.alu r) => cases r <;> rfl
    | .d (.r n) => rfl
    | .d (.n n) => rfl
    | .c e =>
      cases e with
      | sp => exact absurd (hr _ h) (by decide)
      | m | ep | vba | sc | sz | sr | omr | ssh | ssl | la | lc => rfl

theorem Effect.withSc (v : BitVec 5) (h : .c .sc ∈ R.regs) : Effect s (s.withSc v) R := by
  refine .of_content ?_ (fun r hr => ?_) rfl rfl ⟨rfl, rfl⟩
  · constructor <;> simp
  · match r with
    | .d (.alu r) => cases r <;> rfl
    | .d (.r n) => rfl
    | .d (.n n) => rfl
    | .c e =>
      cases e with
      | sc => exact absurd (hr _ h) (by decide)
      | m | ep | vba | sz | sr | omr | sp | ssh | ssl | la | lc => rfl

theorem Effect.withEp (v : Word) (h : .c .ep ∈ R.regs) : Effect s { s with agu := { s.agu with ep := v } } R := by
  refine .of_content ?_ (fun r hr => ?_) rfl rfl ⟨rfl, rfl⟩
  · constructor <;> simp
  · match r with
    | .d (.alu r) => cases r <;> rfl
    | .d (.r n) => rfl
    | .d (.n n) => rfl
    | .c e =>
      cases e with
      | ep => exact absurd (hr _ h) (by decide)
      | m | vba | sc | sz | sr | omr | sp | ssh | ssl | la | lc => rfl

theorem Effect.withOmr (m : Word) (h : .c .omr ∈ R.regs) (bits : m &&& ~~~R.omr = 0) : Effect s (s.withOmr (s.pcu.omr ||| m)) R := by
  refine .of_system ?_ (fun r hr => ?_) rfl ?_ (fun _ _ => rfl) (fun _ _ => rfl)
  · constructor <;> simp
  · match r with
    | .d (.alu r) => cases r <;> rfl
    | .d (.r n) => rfl
    | .d (.n n) => rfl
    | .c e =>
      cases e with
      | omr => exact absurd (hr _ h) (by decide)
      | m | ep | vba | sc | sz | sr | sp | ssh | ssl | la | lc => rfl
  · show (s.pcu.omr ||| m) &&& ~~~R.omr = _
    rw [BitVec.and_comm, BitVec.and_or_distrib_left, BitVec.and_comm _ m, bits, BitVec.and_comm]
    exact BitVec.or_zero

theorem Effect.setSsh (i : Fin 16) (v : Word) (h : i ∈ R.highs) : Effect s (s.setSsh i v) R := by
  refine .of_system ?_ (fun r _ => ?_) rfl rfl (fun j hj => ?_) (fun _ _ => rfl)
  · constructor <;> simp
  · exact State.content_congr s rfl rfl rfl rfl rfl rfl rfl rfl rfl r
  · exact (getElem_set_slot ..).trans (if_neg (by rintro rfl; exact hj h))

theorem Effect.setSsl (i : Fin 16) (v : Word) (h : i ∈ R.lows) : Effect s (s.setSsl i v) R := by
  refine .of_system ?_ (fun r _ => ?_) rfl rfl (fun _ _ => rfl) (fun j hj => ?_)
  · constructor <;> simp
  · exact State.content_congr s rfl rfl rfl rfl rfl rfl rfl rfl rfl r
  · exact (getElem_set_slot ..).trans (if_neg (by rintro rfl; exact hj h))

/-! ## Steps that reach memory or the interrupts -/

theorem Effect.writeData (sp : Space) (a w : Word) (h : (sp, a) ∈ R.stores) : Effect s (s.writeData sp a w) R where
  regs r _ := State.content_applyMems s [(sp, a, w)] r
  sr := by simp
  omr := by simp
  high j _ := by simp
  low j _ := by simp
  data sq k hk := s.read_writeData sp sq a w k fun e => by subst e; exact hk _ h rfl
  devices hio := by
    obtain ⟨port, dma, irq, once⟩ := s.writeData_devices sp a w (hio _ h)
    exact ⟨dma, once, by rw [port], by rw [irq], fun _ => port, fun k _ _ => by rw [irq]⟩
  pc := by simp
  control := by simp
  outside := by simp

theorem Effect.writeP (a w : Word) : Effect s (s.writeP a w) R where
  regs r _ := by apply State.content_congr <;> simp
  sr := by simp
  omr := by simp
  high j _ := by simp
  low j _ := by simp
  data := .of_mem (by simp) (by simp) _
  devices _ := by simp
  pc := by simp
  control := by simp
  outside := by simp

theorem Effect.stackError (h : R.error = true) : Effect s s.stackError R where
  regs r _ := State.content_congr s rfl rfl rfl rfl rfl rfl rfl rfl rfl r
  sr := rfl
  omr := rfl
  high _ _ := rfl
  low _ _ := rfl
  data := .of_mem rfl rfl _
  devices _ := by
    refine ⟨rfl, rfl, rfl, rfl, fun _ => rfl, fun k _ hk => ?_⟩
    have other : ¬k = 1 := hk.elim id fun e => by rw [h] at e; cases e
    rw [s.stackError_pend]
    simp [other]
  pc := rfl
  control := ⟨rfl, rfl, rfl, rfl⟩
  outside := ⟨rfl, rfl⟩

/-! ## The stack pointer, a spill and a refill -/

/-- Bounds that allow what the stack extension writes of the registers, and keep the memory map. -/
structure Reach.Extends (R : Reach) (s : State) : Prop where
  omr : s.sen = true → .c .omr ∈ R.regs
  ep : s.sen = true → .c .ep ∈ R.regs
  sc : .c .sc ∈ R.regs
  bits : 0x0E0000#24 &&& ~~~R.omr = 0
  quiet : R.quiet

/-- The flags of the stack extension are within the bounds. -/
theorem Reach.Extends.flag (C : R.Extends s) (m : Word) (h : m &&& 0x0E0000#24 = m) : m &&& ~~~R.omr = 0 := by
  rw [← h, BitVec.and_assoc, C.bits]
  exact BitVec.and_zero

/-- A limit passed, with the extension: the flags `m` become set, and the Stack Error is requested if they were clear. -/
theorem Effect.flagged {c : Prop} [Decidable c] (b : Bool) {m : Word} (C : R.Extends s) (extended : s.sen = true)
    (error : R.error = true) (h : m &&& 0x0E0000#24 = m) :
    Effect s (if c then (if b then s else s.stackError).withOmr (s.pcu.omr ||| m) else s) R := by
  have omr := C.omr extended
  split
  · cases b with
    | true => exact .withOmr s _ omr (C.flag s _ h)
    | false => exact (Effect.stackError s error).then C.quiet (.withOmr s.stackError _ omr (C.flag s _ h))
  · exact .refl s

theorem Effect.errorIf (b : Bool) (error : R.error = true) : Effect s (if b then s.stackError else s) R := by
  cases b with
  | true => exact .stackError s error
  | false => exact .refl s

theorem Effect.spUp (C : R.Extends s) (sp : .c .sp ∈ R.regs) (error : R.error = true) : Effect s s.spUp R := by
  unfold State.spUp
  split
  · next extended => exact (Effect.flagged s _ C extended error rfl).then C.quiet (.withSp _ _ sp)
  · exact (Effect.errorIf s _ error).then C.quiet (.withSp _ _ sp)

theorem Effect.spDown (C : R.Extends s) (sp : .c .sp ∈ R.regs) (error : R.error = true) : Effect s s.spDown R := by
  unfold State.spDown
  split
  · next extended => exact (Effect.flagged s _ C extended error rfl).then C.quiet (.withSp _ _ sp)
  · exact (Effect.errorIf s _ error).then C.quiet (.withSp _ _ sp)

/-- EP and SC after an entry has moved. -/
theorem Effect.counted (v : Word) (c : BitVec 5) (ep : .c .ep ∈ R.regs) (sc : .c .sc ∈ R.regs) (quiet : R.quiet) :
    Effect s { s with agu := { s.agu with ep := v }, pcu := { s.pcu with sc := c } } R :=
  (Effect.withEp s v ep).then quiet (.withSc { s with agu := { s.agu with ep := v } } c sc)

/-- An entry moved to memory: the two words at EP. -/
theorem Effect.spill (C : R.Extends s) (extended : s.sen = true) (high : (s.xys, s.agu.ep) ∈ R.stores)
    (low : (s.xys, s.agu.ep + 1) ∈ R.stores) : Effect s s.spill R := by
  let t := ((s.withOmr (s.pcu.omr ||| 0x080000#24)).writeData s.xys s.agu.ep s.pcu.ssh[s.oldest]).writeData s.xys (s.agu.ep + 1)
    s.pcu.ssl[s.oldest]
  have moved : Effect s t R := ((Effect.withOmr s 0x080000#24 (C.omr extended) (C.flag s _ rfl)).then C.quiet
    (.writeData _ _ _ _ high)).then C.quiet (.writeData _ _ _ _ low)
  exact moved.then C.quiet (.counted t (t.agu.ep + 2) (t.pcu.sc - 1) (C.ep extended) C.sc C.quiet)

/-- An entry taken back. -/
theorem Effect.refill {j : Fin 16} (C : R.Extends s) (extended : s.sen = true)
    (place : Fin.ofNat 16 (s.pcu.sp.toNat + 32 - s.pcu.sc.toNat) = j) (high : j ∈ R.highs) (low : j ∈ R.lows) :
    Effect s s.refill R := by
  subst place
  let i : Fin 16 := Fin.ofNat 16 (s.pcu.sp.toNat + 32 - s.pcu.sc.toNat)
  let t := (s.setSsh i (s.readData s.xys (s.agu.ep - 2))).setSsl i (s.readData s.xys (s.agu.ep - 1))
  have taken : Effect s t R := (Effect.setSsh s i _ high).then C.quiet (.setSsl _ i _ low)
  exact taken.then C.quiet (.counted t (t.agu.ep - 2) (t.pcu.sc + 1) (C.ep extended) C.sc C.quiet)

/-! ## SSH and SC as operands -/

theorem State.spUp_slot : s.spUp.slot = slotAt s 1 := by
  cases extended : s.sen with
  | true =>
    obtain ⟨pcu, -⟩ := s.spUp_of_extended extended
    rw [Fin.ext_iff, toNat_slot, pcu]
    simp only [slotAt, Fin.val_ofNat]
    bv_omega
  | false =>
    rw [s.spUp_of_plain extended, s.slot_spStep, Fin.ext_iff]
    simp only [nextSlot, slotAt, Fin.val_ofNat, spNext]
    split <;> omega

/-- A step of SP up with the extension leaves EP and the space of the stack's entries in memory. -/
theorem State.spUp_extension (extended : s.sen = true) : s.spUp.xys = s.xys ∧ s.spUp.sen = true ∧ s.spUp.agu.ep = s.agu.ep := by
  obtain ⟨pcu, -, -, agu⟩ := s.spUp_of_extended extended
  have bit (k : Nat) (clear : (0x040000#24).getLsbD k = false) : s.spUp.omrBit k = s.omrBit k := by
    rw [State.omrBit, pcu, getLsbD_or_if, clear, Bool.and_false, Bool.or_false, State.omrBit]
  exact ⟨by rw [State.xys, bit 16 rfl, State.xys], (bit 20 rfl).trans extended, by rw [agu]⟩

theorem State.sen_spUp : s.spUp.sen = s.sen := by
  cases extended : s.sen with
  | true => exact (s.spUp_extension extended).2.1
  | false =>
    rw [s.spUp_of_plain extended, State.sen, State.omrBit, State.spStep_pcu]
    exact extended

/-- SSH as a destination. -/
theorem Effect.pushHigh (v : Word) (C : R.Extends s) (sp : .c .sp ∈ R.regs) (error : R.error = true) (high : slotAt s 1 ∈ R.highs)
    (spills : s.sen = true → 14 < (s.pcu.sc + 1).toNat → (s.xys, s.agu.ep) ∈ R.stores ∧ (s.xys, s.agu.ep + 1) ∈ R.stores) :
    Effect s (s.pushHigh v) R := by
  let t := (s.spUp.setSsh s.spUp.slot v).withSc (s.pcu.sc + 1)
  have pushed : Effect s t R := ((Effect.spUp s C sp error).then C.quiet
    (.setSsh _ _ _ (by rw [s.spUp_slot]; exact high))).then C.quiet (.withSc _ _ C.sc)
  show Effect s t.afterPush R
  have sen : t.sen = s.sen := s.sen_spUp
  unfold State.afterPush
  split
  · next full =>
    rw [Bool.and_eq_true, decide_eq_true_eq, sen] at full
    obtain ⟨extended, full⟩ := full
    obtain ⟨xys, -, ep⟩ := s.spUp_extension extended
    obtain ⟨first, second⟩ := spills extended full
    have C' : R.Extends t := ⟨fun _ => C.omr extended, fun _ => C.ep extended, C.sc, C.bits, C.quiet⟩
    have place : (t.xys, t.agu.ep) = (s.xys, s.agu.ep) := Prod.ext xys ep
    have next : (t.xys, t.agu.ep + 1) = (s.xys, s.agu.ep + 1) := Prod.ext xys (congrArg (· + 1) ep)
    exact pushed.then C.quiet (.spill t C' (sen.trans extended) (by rw [place]; exact first) (by rw [next]; exact second))
  · exact pushed

/-- SC as a destination. -/
theorem Effect.balance (v : BitVec 5) (C : R.Extends s)
    (spills : s.sen = true → 14 < v.toNat → (s.xys, s.agu.ep) ∈ R.stores ∧ (s.xys, s.agu.ep + 1) ∈ R.stores)
    (refills : s.sen = true → v.toNat < 2 → v.toNat < s.pcu.sp.toNat → slotAt s (-v.toNat) ∈ R.highs ∧ slotAt s (-v.toNat) ∈ R.lows) :
    Effect s (s.withSc v).balance R := by
  have moved := Effect.withSc s v C.sc
  have C' : R.Extends (s.withSc v) := ⟨C.omr, C.ep, C.sc, C.bits, C.quiet⟩
  unfold State.balance
  split
  · next extended =>
    split
    · next full =>
      obtain ⟨first, second⟩ := spills extended full
      exact moved.then C.quiet (.spill _ C' extended first second)
    · split
      · next empty =>
        obtain ⟨first, second⟩ := refills extended empty.1 empty.2
        refine moved.then C.quiet (.refill _ C' extended ?_ first second)
        rw [Fin.ext_iff]
        simp only [slotAt, Fin.val_ofNat]
        show (s.pcu.sp.toNat + 32 - v.toNat) % 16 = _
        omega
      · exact moved
  · exact moved

/-- SSH as a source. -/
theorem Effect.pop (C : R.Extends s) (sp : .c .sp ∈ R.regs) (error : R.error = true)
    (refills : s.sen = true → (s.pcu.sc - 1).toNat < 2 → (s.pcu.sc - 1).toNat < (s.pcu.sp - 1).toNat →
      slotAt s (-s.pcu.sc.toNat) ∈ R.highs ∧ slotAt s (-s.pcu.sc.toNat) ∈ R.lows) : Effect s s.pop R := by
  have pulled : Effect s s.pulled R := (Effect.spDown s C sp error).then C.quiet (.withSc _ _ C.sc)
  cases extended : s.sen with
  | false =>
    have plain := s.pop_of_plain extended
    rw [← s.spDown_of_plain extended] at plain
    rw [plain]
    exact pulled
  | true =>
    have pcu := s.pulled_pcu extended
    have C' : R.Extends s.pulled := ⟨fun _ => C.omr extended, fun _ => C.ep extended, C.sc, C.bits, C.quiet⟩
    rw [s.pop_cases extended]
    split
    · next empty =>
      rw [pcu] at empty
      obtain ⟨first, second⟩ := refills extended empty.1 empty.2
      refine pulled.then C.quiet (.refill _ C' (s.pulled_sen extended) ?_ first second)
      have few := empty.1
      rw [Fin.ext_iff, pcu]
      simp only [slotAt, Fin.val_ofNat]
      bv_omega
    · exact pulled

/-! ## SR and OMR as destinations -/

theorem Effect.writeSr (v : Word) (all : R.sr = 0xFFFFFF#24) : Effect s (s.writeSr v) R where
  regs r _ := by apply State.content_congr <;> simp
  sr := by rw [all]; exact BitVec.and_zero.trans BitVec.and_zero.symm
  omr := by simp
  high j _ := by simp
  low j _ := by simp
  data := .of_mem (by simp) (by simp) _
  devices _ := by simp
  pc := by simp
  control := by simp
  outside := by simp

theorem Effect.writeOmr (v : Word) (all : R.omr = 0xFFFFFF#24) (refresh : R.refresh = true) (h : .c .omr ∈ R.regs) :
    Effect s (s.writeOmr v) R where
  regs r hr := by
    match r with
    | .d (.alu r) => cases r <;> simp [State.content]
    | .d (.r n) => simp [State.content]
    | .d (.n n) => simp [State.content]
    | .c e =>
      cases e with
      | omr => exact absurd (hr _ h) (by decide)
      | m | ep | vba | sc | sz | sr | sp | ssh | ssl | la | lc => simp [State.content]
  sr := by simp
  omr := by rw [all]; exact BitVec.and_zero.trans BitVec.and_zero.symm
  high j _ := by simp
  low j _ := by simp
  data := .of_mem (by simp) (by simp) _
  devices _ := by
    have port : (s.writeOmr v).port = { s.port with dcr := (s.writeOmr v).port.dcr } := by
      unfold State.writeOmr
      split <;> rfl
    exact ⟨by simp, by simp, port, by simp, fun no => Bool.noConfusion (no.symm.trans refresh), fun k _ _ => by simp⟩
  pc := by simp
  control := by simp
  outside := by simp

/-! ## A transfer -/

/-- The bounds of a transfer. -/
def Transfer.reach (s : State) (T : Transfer) : Reach where
  regs := T.dests ++ T.besides s
  sr := T.srBits
  omr := if T.load = true ∧ T.reg = .c .omr then 0xFFFFFF#24 else 0x0E0000#24
  highs := T.highs s
  lows := T.lows s
  stores := T.stores ++ T.spills s
  refresh := decide (T.load = true ∧ T.reg = .c .omr)
  error := decide (T.reg = .c .ssh)

theorem Transfer.reg_mem (T : Transfer) (h : T.load = true) : T.reg ∈ (T.reach s).regs := by
  simp [Transfer.reach, Transfer.dests, h]

theorem Transfer.upd_mem (T : Transfer) : ∀ p ∈ T.upd.toList, .d (.r p.1) ∈ (T.reach s).regs := by
  intro p hp
  simp only [Transfer.reach, Transfer.dests, List.mem_append, List.mem_map]
  exact .inl (.inr ⟨p, hp, rfl⟩)

/-- A load of SC, and SSH as an operand, leave the memory map. -/
theorem Transfer.reach_extends (T : Transfer) (h : T.reg = .c .ssh ∨ T.load = true ∧ T.reg = .c .sc) : (T.reach s).Extends s := by
  have omr : (T.reach s).omr = 0x0E0000#24 := if_neg (by rcases h with h | ⟨-, h⟩ <;> simp [h])
  have sr : (T.reach s).sr = 0 := by
    obtain ⟨reg, load, loc, upd⟩ := T
    rcases h with h | ⟨hl, h⟩
    · cases h; cases load <;> rfl
    · cases h; cases hl; rfl
  refine ⟨fun sen => ?_, fun sen => ?_, ?_, by rw [omr]; rfl, by rw [sr]; exact ⟨rfl, rfl⟩, by rw [omr]; rfl⟩
  · simp [Transfer.reach, Transfer.besides, sen, h]
  · simp [Transfer.reach, Transfer.besides, sen, h]
  · rcases h with h | ⟨load, h⟩ <;> simp [Transfer.reach, Transfer.besides, Transfer.dests, *]

variable {s} in
/-- What the register takes, once the address register is updated. -/
theorem Transfer.load_effect {v : State} (T : Transfer) (load : T.load = true) (pcu : v.pcu = s.pcu) (ep : v.agu.ep = s.agu.ep) :
    Effect v (v.wrReg T.reg (T.loc.value s)) (T.reach s) := by
  have own := T.reg_mem s load
  have sen : v.sen = s.sen := by simp only [State.sen, State.omrBit, pcu]
  have xys : v.xys = s.xys := by unfold State.xys State.omrBit; rw [pcu]
  have slot (k : Int) : slotAt v k = slotAt s k := by simp only [slotAt, pcu]
  obtain ⟨reg, load', loc, upd⟩ := T
  cases load
  have within (h : reg = .c .ssh ∨ reg = .c .sc) : (Transfer.reach s ⟨reg, true, loc, upd⟩).Extends v := by
    obtain ⟨omr, epIn, sc, bits, quiet⟩ := Transfer.reach_extends s ⟨reg, true, loc, upd⟩ (h.imp id fun h => ⟨rfl, h⟩)
    exact ⟨fun h => omr (sen.symm.trans h), fun h => epIn (sen.symm.trans h), sc, bits, quiet⟩
  have spill {c : Nat} (counter : Transfer.counter s ⟨reg, true, loc, upd⟩ = some c) (extended : v.sen = true) (full : 14 < c) :
      (v.xys, v.agu.ep) ∈ (Transfer.reach s ⟨reg, true, loc, upd⟩).stores ∧
      (v.xys, v.agu.ep + 1) ∈ (Transfer.reach s ⟨reg, true, loc, upd⟩).stores := by
    have spills : Transfer.spills s ⟨reg, true, loc, upd⟩ = [(s.xys, s.agu.ep), (s.xys, s.agu.ep + 1)] :=
      if_pos ⟨sen.symm.trans extended, c, counter, full⟩
    simp [Transfer.reach, spills, xys, ep]
  cases reg with
  | d d => exact .wrD v d _ own
  | c c =>
    cases c with
    | sr => exact .writeSr v _ rfl
    | omr => exact .writeOmr v _ rfl rfl own
    | ssl => exact .setSsl v _ _ (by rw [slot_eq_slotAt, slot]; simp [Transfer.reach, Transfer.lows])
    | ssh =>
      have C := within (.inl rfl)
      refine .pushHigh v _ C (by simp [Transfer.reach, Transfer.besides]) rfl ?_ fun extended full => ?_
      · rw [slot]
        simp [Transfer.reach, Transfer.highs]
      · exact spill rfl extended (by rw [pcu] at full; exact full)
    | sc =>
      have C := within (.inr rfl)
      refine .balance v _ C (fun extended full => spill rfl extended full) fun extended few more => ?_
      let c := ((loc.value s).extractLsb' 0 5).toNat
      have refills : Transfer.refills s ⟨.c .sc, true, loc, upd⟩ = [slotAt s (-c)] :=
        if_pos ⟨sen.symm.trans extended, few, pcu ▸ more⟩
      simp [Transfer.reach, Transfer.highs, Transfer.lows, refills, slot, c]
    | m | ep | vba | sz | sp | la | lc => exact .wrC v _ _ rfl own

variable {s} in
/-- What reading the register does. -/
theorem Transfer.read_effect (T : Transfer) (store : T.load = false) : Effect s (s.rdReg T.reg).2 (T.reach s) := by
  obtain ⟨reg, load', loc, upd⟩ := T
  cases store
  cases reg with
  | d d =>
    have flags : ∀ k < 8, 6 ≤ k → (0x0000C0#24).getLsbD k = true := by decide
    exact .mergeSL s _ flags
  | c c =>
    cases c with
    | ssh =>
      have C := Transfer.reach_extends s ⟨.c .ssh, false, loc, upd⟩ (.inl rfl)
      refine .pop s C (by simp [Transfer.reach, Transfer.besides]) rfl fun extended few more => ?_
      have refills : Transfer.refills s ⟨.c .ssh, false, loc, upd⟩ = [slotAt s (-s.pcu.sc.toNat)] := if_pos ⟨extended, few, more⟩
      simp [Transfer.reach, Transfer.highs, Transfer.lows, refills]
    | sr | omr | ssl | sc | m | ep | vba | sz | sp | la | lc => exact .refl s

theorem Effect.put (l : Loc) (v : Word) (h : ∀ p ∈ l.stores, p ∈ R.stores) : Effect s (l.put s v) R := by
  cases l with
  | data sp a => exact .writeData s sp a v (h _ (by simp [Loc.stores]))
  | prog a => exact .writeP s a v
  | word w => exact .refl s

theorem Transfer.reach_quiet (T : Transfer) (store : T.load = false) : (T.reach s).quiet := by
  obtain ⟨reg, load, loc, upd⟩ := T
  cases store
  have omr : (Transfer.reach s ⟨reg, false, loc, upd⟩).omr = 0x0E0000#24 := by
    simp [Transfer.reach]
  refine ⟨?_, by rw [omr]; rfl⟩
  cases reg with
  | d d => exact (by decide : (0x0000C0#24).getLsbD 13 = false ∧ (0x0000C0#24).getLsbD 19 = false)
  | c c => exact (by decide : (0 : Word).getLsbD 13 = false ∧ (0 : Word).getLsbD 19 = false)

theorem Transfer.done_effect (T : Transfer) : Effect s (T.done s) (T.reach s) := by
  unfold Transfer.done
  split
  · next load =>
    exact (Effect.applyUpd s T.upd (T.upd_mem s)).trans (SameDevices.applyUpd s T.upd).bus (T.load_effect load (by simp) (by simp))
  · next store =>
    have store : T.load = false := by simpa using store
    have quiet := T.reach_quiet s store
    refine ((T.read_effect store).then quiet (.applyUpd _ T.upd (T.upd_mem s))).then quiet (.put _ _ _ fun p hp => ?_)
    simp [Transfer.reach, Transfer.stores, store, hp]

/-! ## Program memory and the cache -/

variable {s} in
theorem ProgramSame.trans {t u : State} (h : ProgramSame s t) (k : ProgramSame t u) : ProgramSame s u := by
  obtain ⟨p, pExt, cache⟩ := h
  obtain ⟨p', pExt', cache'⟩ := k
  exact ⟨p'.trans p, pExt'.trans pExt, cache'.trans cache⟩

theorem ProgramSame.applyUpd (u : Option (Fin 8 × Word)) : ProgramSame s (s.applyUpd u) := ⟨by simp, by simp, by simp⟩

theorem ProgramSame.writeData (sp : Space) (a w : Word) : ProgramSame s (s.writeData sp a w) := ⟨by simp, by simp, by simp⟩

theorem wrC_program (c : CReg) (w : Word) (h : c ≠ .sr) : ProgramSame s (s.wrC c w) := by
  cases c with
  | sr => exact absurd rfl h
  | m | ep | vba | sz | sp | ssl | la | lc => exact ⟨rfl, rfl, rfl⟩
  | omr => exact ⟨by simp [State.wrC], by simp [State.wrC], by simp [State.wrC]⟩
  | sc => exact ⟨by simp [State.wrC], by simp [State.wrC], by simp [State.wrC]⟩
  | ssh => exact ⟨by simp [State.wrC], by simp [State.wrC], by simp [State.wrC]⟩

theorem rdReg_program (r : Reg) : ProgramSame s (s.rdReg r).2 := by
  refine ⟨?_, ?_, ?_⟩ <;> simp

theorem foldl_write_read {k : Nat} (f : Nat → Nat) (g : Nat → Word) (l : List Nat) (m : Mem) (h : ∀ i ∈ l, f i ≠ k) :
    (l.foldl (fun m i => m.write (f i) (g i)) m).read k = m.read k := by
  induction l generalizing m with
  | nil => rfl
  | cons i l ih =>
    have apart : k ≠ f i := fun e => h i (by simp) e.symm
    rw [List.foldl_cons, ih _ fun j hj => h j (by simp [hj]), Mem.read_write, if_neg apart]

/-- The end of Cache mode frees the words that were the cache, and no others. -/
theorem read_leaveCacheMode (k : Nat) (h : k < Config.icacheStart.val ∨ Config.icacheStart.val + 1024 ≤ k) :
    s.leaveCacheMode.mem.p.read k = s.mem.p.read k := by
  let word (i : Nat) : Word := (Config.free .cacheRam (1024 * s.ctl.freeCtr + i)).setWidth 24
  have form : s.leaveCacheMode.mem.p = (List.range 1024).foldl (fun m i => m.write (Config.icacheStart.val + i) (word i)) s.mem.p := by
    simp only [State.leaveCacheMode, State.scrambleCacheRam, State.withCache, word]
  rw [form]
  refine foldl_write_read (fun i => Config.icacheStart.val + i) word _ _ fun i hi => ?_
  have := List.mem_range.1 hi
  omega

theorem writeSr_program (v : Word) : if s.ce = true ∧ (s.writeSr v).ce = false then
      (s.writeSr v).mem.pExt = s.mem.pExt ∧ (s.writeSr v).cache.data = s.cache.data ∧
        ∀ k, (k < Config.icacheStart.val ∨ Config.icacheStart.val + 1024 ≤ k) → (s.writeSr v).mem.p.read k = s.mem.p.read k
    else ProgramSame s (s.writeSr v) := by
  have after : (s.writeSr v).ce = (v &&& 0xFBEFFF#24).getLsbD 19 := by rw [State.ce, State.srBit, State.writeSr_sr]
  split
  · next leaves =>
    have form : s.writeSr v = (s.withSr (v &&& 0xFBEFFF#24)).leaveCacheMode := by
      rw [after] at leaves
      exact if_pos (by rw [leaves.1, leaves.2]; rfl)
    rw [form]
    exact ⟨by simp, rfl, fun k hk => read_leaveCacheMode _ k hk⟩
  · next stays =>
    have form : s.writeSr v = s.withSr (v &&& 0xFBEFFF#24) := by
      rw [after] at stays
      exact if_neg (by simpa using stays)
    rw [form]
    exact ⟨rfl, rfl, rfl⟩

section Places
variable {s} {t : State} (bus : SameBus s t) (ce : t.ce = s.ce) (a : Word)
include bus ce

theorem SameBus.programRegions : t.pInModules a = s.pInModules a ∧ t.pInRam a = s.pInRam a ∧ t.pInCacheRange a = s.pInCacheRange a ∧
    t.pExternal a = s.pExternal a := by
  simp [State.pExternal, State.pInRam, State.pInCacheRange, State.inCacheWords, State.mapAddr, State.pInModules, bus.sc, bus.switch, ce]

theorem SameBus.pPlace : t.pPlace a = s.pPlace a := by
  have regions (b : Word) := SameBus.programRegions bus ce b
  simp only [State.pPlace, regions, bus.sc, State.mapAddr]

theorem SameBus.readP (program : ProgramSame s t) (free : t.ctl.freeCtr = s.ctl.freeCtr) : t.readP a = s.readP a := by
  obtain ⟨p, pExt, cache⟩ := program
  obtain ⟨modules, -, -, external⟩ := SameBus.programRegions bus ce a
  have raw : t.pRaw a = s.pRaw a := by
    simp [State.pRaw, State.pMem, State.pInRom, State.pInBoot, modules, SameBus.pPlace bus ce, p, pExt, State.absentAt, free]
  simp [State.readP, raw, external, cache, bus.ebd, ce, State.absentAt, free]

end Places

/-- A write of program memory, by a state that has the same program memory and the same map, leaves every other place. -/
theorem writeP_program {u : State} (bus : SameBus s u) (ce : u.ce = s.ce) (same : ProgramSame s u)
    (free : u.ctl.freeCtr = s.ctl.freeCtr) (a w : Word) :
    (∀ b : Word, s.pPlace b ≠ s.pPlace a → (u.writeP a w).readP b = s.readP b) ∧ (u.writeP a w).cache.tag = s.cache.tag ∧
      (u.writeP a w).cache.lock = s.cache.lock ∧ (u.writeP a w).cache.lru = s.cache.lru := by
  have cache : u.cache = s.cache := same.2.2
  by_cases dropped : u.pInModules a = true ∨ (u.ebd = true ∧ u.pExternal a = true)
  · rw [u.writeP_dropped dropped]
    exact ⟨fun b _ => SameBus.readP bus ce b same free, by rw [cache], by rw [cache], by rw [cache]⟩
  · refine ⟨fun b other => ?_, ?_⟩
    · have other : u.pPlace b ≠ u.pPlace a := by rw [SameBus.pPlace bus ce, SameBus.pPlace bus ce]; exact other
      exact (u.readP_writeP_other dropped w other).trans (SameBus.readP bus ce b same free)
    · rw [u.cache_writeP dropped, ← cache, State.cacheWritten]
      split
      · split <;> exact ⟨rfl, rfl, rfl⟩
      · exact ⟨rfl, rfl, rfl⟩

/-- A load into another register than SR leaves program memory and the cache. -/
theorem wrReg_program {r : Reg} (w : Word) (h : r ≠ .c .sr) : ProgramSame s (s.wrReg r w) := by
  cases r with
  | d d => exact ⟨by simp [State.wrReg], by simp [State.wrReg], by simp [State.wrReg]⟩
  | c c => exact wrC_program s c w fun e => h (by rw [e])

theorem Transfer.done_program (T : Transfer) : ProgramKept s (T.done s) T := by
  obtain ⟨reg, load, loc, upd⟩ := T
  cases load with
  | true =>
    let v := s.applyUpd upd
    have updated : ProgramSame s v := .applyUpd s upd
    have form : Transfer.done s ⟨reg, true, loc, upd⟩ = v.wrReg reg (loc.value s) := if_pos rfl
    have ce : v.ce = s.ce := by simp [State.ce, State.srBit, v]
    rw [form]
    show if reg = .c .sr ∧ s.ce = true ∧ (v.wrReg reg (loc.value s)).ce = false then _ else _
    by_cases sr : reg = .c .sr
    · subst sr
      have written := writeSr_program v (v.keepHigh v.pcu.sr (loc.value s))
      rw [ce] at written
      by_cases leaves : s.ce = true ∧ (v.wrReg (.c .sr) (loc.value s)).ce = false
      · obtain ⟨pExt, data, p⟩ := (if_pos leaves).mp written
        rw [if_pos ⟨rfl, leaves⟩]
        exact ⟨pExt.trans updated.2.1, data.trans (by rw [updated.2.2]), fun k hk => (p k hk).trans (by rw [updated.1])⟩
      · rw [if_neg fun h => leaves h.2]
        exact updated.trans ((if_neg leaves).mp written)
    · rw [if_neg fun h => sr h.1]
      exact updated.trans (wrReg_program v _ sr)
  | false =>
    let u := (s.rdReg reg).2.applyUpd upd
    have form : Transfer.done s ⟨reg, false, loc, upd⟩ = loc.put u (s.rdReg reg).1 := if_neg Bool.false_ne_true
    have same : ProgramSame s u := (rdReg_program s reg).trans (.applyUpd _ upd)
    have stays : (loc.put u (s.rdReg reg).1).ce = false → ¬(reg = .c .sr ∧ s.ce = true) := by
      rintro off ⟨rfl, on⟩
      have kept : (loc.put u (s.rdReg (.c .sr)).1).pcu.sr = s.pcu.sr := by cases loc <;> simp [Loc.put, u, State.rdReg]
      rw [State.ce, State.srBit, kept] at off
      exact Bool.noConfusion (off.symm.trans on)
    rw [form]
    cases loc with
    | prog a =>
      have quiet := Transfer.reach_quiet s ⟨reg, false, .prog a, upd⟩ rfl
      have effect := (Transfer.read_effect (s := s) ⟨reg, false, .prog a, upd⟩ rfl).then quiet
        (.applyUpd _ upd (Transfer.upd_mem s ⟨reg, false, .prog a, upd⟩))
      exact writeP_program s (effect.bus quiet) (effect.ce quiet) same effect.control.2.2.2 a _
    | data sp a =>
      show if _ then _ else _
      rw [if_neg fun h => stays h.2.2 ⟨h.1, h.2.1⟩]
      exact same.trans (.writeData u sp a _)
    | word w =>
      show if _ then _ else _
      rw [if_neg fun h => stays h.2.2 ⟨h.1, h.2.1⟩]
      exact same

variable {s} in
theorem ProgramKept.advance {u : State} {T : Transfer} (h : ProgramKept s u T) (n : Nat) : ProgramKept s (u.advance n) T := by
  obtain ⟨reg, load, loc, upd⟩ := T
  cases load with
  | true => exact h
  | false =>
    cases loc with
    | prog a =>
      obtain ⟨read, cache⟩ := h
      exact ⟨fun b other => (SameBus.readP (SameDevices.of_advance u n).bus rfl b ⟨rfl, rfl, rfl⟩ rfl).trans (read b other), cache⟩
    | data sp a => exact h
    | word w => exact h

/-! ## The frame -/

variable {s} in
theorem Transfer.frame {u : State} (T : Transfer) (h : Effect s u (T.reach s)) (n : Nat) (program : ProgramKept s (u.advance n) T) :
    TransferFrame s (u.advance n) T where
  regs r hr := (u.content_advance n r).trans (h.regs r hr)
  sr := h.sr
  omr other := by
    have omr := h.omr
    rw [show (T.reach s).omr = 0x0E0000#24 from if_neg other] at omr
    exact omr
  high := h.high
  low := h.low
  data := h.data
  program := program
  devices hio := by
    obtain ⟨dma, once, port, irq, refresh, pend⟩ := h.devices hio
    exact ⟨dma, once, port, irq, fun other => refresh (decide_eq_false other),
      fun k hk reg => pend k hk (reg.imp id fun reg => decide_eq_false reg)⟩
  control := h.control
  outside := h.outside

variable {s} in
/-- A move of a register that moves its content and no more. -/
theorem Transfer.plain_frame {t : State} (T : Transfer) (h : TransferFrame s t T) (plain : movesMore T.reg = false)
    (data : T.load = true ∨ ∀ a, T.loc ≠ .prog a) : Frame s t T.dests 0x0000C0#24 T.stores := by
  have other (c : CReg) (more : movesMore (.c c) = true) : T.reg ≠ .c c := fun e => by
    rw [e, more] at plain
    cases plain
  have ssh := other .ssh rfl
  have sc := other .sc rfl
  have besides : T.besides s = [] := by simp [Transfer.besides, ssh, sc]
  have counter : T.counter s = none := by
    unfold Transfer.counter
    split
    · next reg => exact absurd reg ssh
    · next reg => exact absurd reg sc
    · rfl
  have spills : T.spills s = [] := by simp [Transfer.spills, counter]
  have refills : T.refills s = [] := by
    unfold Transfer.refills
    split
    · next reg => exact absurd reg sc
    · next reg => exact absurd reg ssh
    · rfl
  have highs : T.highs s = [] := by simp [Transfer.highs, refills, ssh]
  have lows : T.lows s = [] := by simp [Transfer.lows, refills, other .ssl rfl]
  have bits : T.srBits ||| 0x0000C0#24 = 0x0000C0#24 := by
    unfold Transfer.srBits
    split
    · next reg => exact absurd reg (other .sr rfl)
    · rfl
    · rfl
  obtain ⟨regs, sr, -, high, low, stores, program, devices, control, outside⟩ := h
  rw [besides, List.append_nil] at regs
  rw [spills, List.append_nil] at stores devices
  rw [highs] at high
  rw [lows] at low
  refine ⟨regs, ?_, ⟨?_, ?_⟩, stores, ?_, fun hio => ?_, control, outside⟩
  · rw [← bits, BitVec.not_or, ← BitVec.and_assoc, ← BitVec.and_assoc, sr]
  · exact Vector.ext fun i hi => high ⟨i, hi⟩ (by simp)
  · exact Vector.ext fun i hi => low ⟨i, hi⟩ (by simp)
  · unfold ProgramKept at program
    split at program
    · next load loc => exact (data.elim (fun l => by rw [load] at l; cases l) fun n => absurd loc (n _))
    · rwa [if_neg fun h => other .sr rfl h.1] at program
  · obtain ⟨dma, once, -, irq, port, pend⟩ := devices hio
    have same : t.irq.pend = s.irq.pend := BitVec.eq_of_getLsbD_eq fun k hk => pend k hk (.inr ssh)
    exact ⟨port fun h => other .omr rfl h.2, dma, by rw [irq, same], once⟩

end Sys2Proof.Machine
open Sys2Proof Sys2Proof.Machine

/-- Settles O34. -/
theorem load_store_frame : Obligations.Load_store_frame := by
  intro s i T h
  have effect := T.done_effect s
  have frame := T.frame effect i.len ((T.done_program s).advance i.len)
  exact ⟨_, exec_of_transfer h, State.advance_pc s _ _ effect.pc effect.control.2.1 effect.control.1, frame, T.plain_frame frame⟩
end
